-- ==== Sys2Proof/Word.lean ====
section
/-!
DEFINITION. Word.lean: the byte, the sparse table and nothing else. A number the manual reads as an unsigned field
(R8) is a `Nat`, wrapped where a rule says that it wraps; the bytes of memory and of every message are `Byte`.
-/

namespace Sys2Proof

/-- One byte (R8). -/
abbrev Byte := BitVec 8

/-- A sparse table in canonical form: keys strictly rising, and no entry equal to what an unlisted key reads as. -/
abbrev Tab (α : Type) := List (Nat × α)

end Sys2Proof
end

