-- ==== Sys2Proof/Syntax.lean ====
section
/-!
DEFINITION. Syntax.lean: the commands of the block, one constructor of `Instr` for each row of the opcode table, and
the operands they carry. What the outside world decides (a frame's bytes, the outcome of a test, the object a request
names) is an operand; what the package decides is in `State`.
-/

namespace Sys2Proof

/-- The boot flash as the package reads it in a step of the boot: the bytes, an unlisted offset giving 0xFF, an erased byte, and the offsets at
which the read fails (R513, R517, R582). DESIGN CHOICE: log entry 110. -/
structure Flash where
  bytes : Tab Byte
  bad : List Nat
  deriving DecidableEq, Repr

/-- What the board presents to the package when it powers up (R506 steps 1 to 5, R513, R528, R576, R577).
DESIGN CHOICE: log entry 110. -/
structure Board where
  /-- Input voltage in mV (R535). -/
  vinMv : Nat
  /-- Level of the PCIE_SPLIT strap: `true` is high, two x4 links (R577). -/
  split : Bool
  /-- TIMEREF edges are present (R576). -/
  timeref : Bool
  /-- REFCLK is present (R576). -/
  refclk : Bool
  /-- The boot ROM's own check of the IOD passes (R578). -/
  iodOk : Bool
  /-- The boot flash as step 3 reads it (R513). -/
  flash : Flash
  /-- The same flash as step 11 reads it (R519, R582). -/
  coreFlash : Flash
  /-- The board identity memory's 256 bytes, or `none` when it does not answer within 50 ms (R527, R529). -/
  boardMem : Option (List Byte)
  deriving DecidableEq, Repr

/-- Where a Camip frame is addressed: the port's own address, the broadcast address, or another (R486). -/
inductive CamipDest where
  | port | broadcast | other
  deriving DecidableEq, Repr

/-- What of a Camip frame and its header can break R486, as a good request has it. -/
structure CamipHead where
  etherType : Nat := 0x88B5
  vlan : Bool := false
  dest : CamipDest := .port
  /-- Byte 0: the version in [7:4]. -/
  ver : Nat := 0x10
  /-- Byte 2 without SECURED: RESP in [7] and the reserved bits [5:0]. -/
  flags : Nat := 0
  /-- Bytes 3 and 21 to 23. -/
  reserved : Nat := 0
  /-- SESSION_ID and SEQ of a frame with SECURED 0. -/
  stray : Nat := 0
  status : Nat := 0
  /-- LEN, where it is not the number of body bytes. -/
  len : Option Nat := none
  /-- Requests of the session that the server has not taken when the frame arrives, which its timing decides (R492). -/
  waiting : Nat := 0
  deriving DecidableEq, Repr

/-- A Camip frame beside its port and body: its source address, its session slot and SEQ when SECURED is 1, its tag, its TRANS_ID and the
rest of its header (R486). -/
structure CamipFrame where
  peer : List Byte := []
  secured : Option (Nat × Nat) := none
  tag : List Byte := []
  trans : Nat := 0
  head : CamipHead := {}
  deriving DecidableEq, Repr

/-- The path on which a dictionary request arrives (R481), with what a Camip frame's header carries (R486). -/
inductive Src where
  /-- A Camip frame: port (0 A, 1 B), source address, session slot and SEQ when SECURED is 1, and its tag. -/
  | camip (port : Nat) (peer : List Byte) (secured : Option (Nat × Nat)) (tag : List Byte)
  /-- Host channel HCc (R494). -/
  | host (chan : Nat)
  /-- Core channel CCc (R494). -/
  | core (chan : Nat)
  deriving DecidableEq, Repr

/-- A dictionary request: where it came from and its TRANS_ID (R486, R494). -/
structure Request where
  src : Src
  trans : Nat
  /-- The rest of a Camip header (R486). -/
  head : CamipHead := {}
  /-- SERVICE and body as they were sent, where they are not those of the command: a service code outside R481, or a body that
  breaks its layout (R484). -/
  raw : Option (Nat × List Byte) := none
  deriving DecidableEq, Repr

/-- One item of WRITE_MULTI, laid out as a WRITE request (R481). -/
structure WriteItem where
  index : Nat
  sub : Nat
  type : Nat
  value : List Byte
  deriving DecidableEq, Repr

/-- What an SPDM message does to the package's sessions (R488 to R490, R523). It arrives on Camip port A (0) or B (1), or over
the DOE of HL0 (2) or HL1 (3). -/
inductive SpdmMsg where
  /-- A message of attestation or negotiation that opens and closes nothing; `code` is its request code. -/
  | attest (code : Nat) (body : List Byte)
  /-- GET_MEASUREMENTS of one block of R524; 0 asks for their number and 0xFF for all. -/
  | measurement (block : Nat)
  /-- KEY_EXCHANGE from the address given. -/
  | keyExchange (peer : List Byte)
  /-- FINISH of a session in its handshake, with the SHA-384 of the root of the requester's chain and the
  outcome of the requester's signature check. -/
  | finish (slot : Nat) (rootHash : List Byte) (proofOk : Bool)
  /-- KEY_UPDATE of an open session. -/
  | keyUpdate (slot : Nat)
  /-- END_SESSION. -/
  | endSession (slot : Nat)
  deriving DecidableEq, Repr

/-- An SPDM message with its bytes, and the Camip frame that carries it (R486, R488). Where a CHUNK_SEND carries it, `chunk` is that
one's handle and sequence number and whether it is the last; the message is then the one whose last bytes it carries. -/
structure SpdmFrame where
  msg : SpdmMsg
  bytes : List Byte := []
  chunk : Option (Nat × Nat × Bool) := none
  frame : CamipFrame := {}
  deriving DecidableEq, Repr

/-- A unit named in self-test and presence objects: tensor die, server-core die or link die (R543). -/
inductive Unit3 where
  | td (n : Nat)
  | hd (d : Nat)
  | ld (u : Nat)
  deriving DecidableEq, Repr

/-- A device error found at a read: correctable or uncorrectable (R114, R213, R214). -/
inductive ErrKind where
  | ce
  | ue
  deriving DecidableEq, Repr

/-- What the code makes of an error in three or more bytes of a line, which R210 leaves open: it detects it, takes it for a
correctable one, or misses it. DESIGN CHOICE: log entry 133. -/
inductive Sight where
  | detected
  | miscorrected
  | missed
  deriving DecidableEq, Repr

/-- An uncorrectable error in a cache of a server-core die: its level, 0 L1I, 1 L1D, 2 L2, 3 L3, and with it the correctable errors
that the die's caches have corrected since the last one (R411). DESIGN CHOICE: log entry 111. -/
structure CacheError where
  level : Nat
  corrected : Nat := 0
  deriving DecidableEq, Repr

/-- Device errors that have appeared since the last scrub visit, and that reads find later (R114, R116, R213, R214).
DESIGN CHOICE: log entry 133. -/
inductive Strike where
  /-- The LPDDR5X line or Canopy word at a physical address: what a read makes of it, all its errors taken together. -/
  | mem (addr : Nat) (kind : ErrKind)
  /-- Symbols of an LPDDR5X line: 0 to 63 its bytes, 64 to 67 its check symbols, 68 to 71 the poison bits and reserved bytes
  of its ECC block (R209, R210); `sight` counts where the errors pass what the code corrects. -/
  | bytes (addr : Nat) (symbols : List Nat) (sight : Sight)
  /-- Local SRAM of a die (R116): block 0 a tile (engine * 32 + tile), 1 a staging buffer (engine), 2 a vector buffer
  (unit), 3 a descriptor queue (queue), 4 the stream cache (line address). -/
  | sram (die block unit : Nat) (kind : ErrKind)
  deriving DecidableEq, Repr

/-- The agents of coherence (R224). -/
inductive Agent where
  /-- A server-core die, a caching agent. -/
  | hd (d : Nat)
  /-- The stream cache of a tensor die, a caching agent. -/
  | td (n : Nat)
  /-- The wait monitor of a tensor die. -/
  | wm (n : Nat)
  /-- Matrix engines, vector units and stash operations of a tensor die. -/
  | eng (n : Nat)
  /-- Inbound path and landing unit of a link die. -/
  | lu (u : Nat)
  /-- Inbound PCIe. -/
  | pcie
  /-- The management controller. -/
  | mc
  /-- An agent of another package through a remote access. -/
  | remote
  deriving DecidableEq, Repr

/-- The atomic operations (R242). -/
inductive AtomicOp where
  | swap | add | xor | and | or | min | max | minu | maxu | cas (compare : Nat)
  deriving DecidableEq, Repr

/-- A frame (R273): its four header words, its payload and its end-to-end CRC. -/
structure Frame where
  w0 : Nat
  w1 : Nat
  w2 : Nat
  w3 : Nat
  payload : List Byte
  crc : Nat
  deriving DecidableEq, Repr

/-- A link unit as it arrives (R267): the prefix word, the frame, the CRC-32 received, and whether the FEC found the
codeword uncorrectable. -/
structure LinkUnit where
  word : Nat
  frame : Option Frame
  crc : Nat
  fecBad : Bool
  /-- Codewords that the FEC corrected in it (R296). -/
  fecFixed : Nat := 0
  deriving DecidableEq, Repr

/-- One sample of the stage-1 controller, with the sensors read at it (R548, R551). Voltages and currents are binary32
codes; power is in milliwatts; temperatures are in thousandths of a degree Celsius, in PWR_TJ order. -/
structure PowerSample where
  volts : Nat
  amps : Nat
  milliwatts : Nat
  temps : List Int
  deriving DecidableEq, Repr

/-- Where in a function's memory space a host reads: its BAR0 or its BAR2 (R430, R432). -/
inductive BarPlace where
  | bar0 (offset : Nat)
  | bar2 (offset : Nat)
  deriving DecidableEq, Repr

/-- A register of a function's configuration space (R427, R429), by what it holds, since the spec gives no offsets.
PRESUMED: log entry 48. -/
inductive CfgReg where
  /-- Vendor ID and Device ID. -/
  | ident
  /-- Command: [1] Memory Space Enable, [2] Bus Master Enable. -/
  | command
  /-- Revision ID and Class Code. -/
  | classRev
  /-- Base address register 0 to 5. -/
  | bar (n : Nat)
  | expansionRom
  /-- Resizable BAR Control of BAR2: [13:8] the size selected. -/
  | barSize
  /-- AER Uncorrectable Error Status: [12] Poisoned TLP Received. -/
  | aerStatus
  /-- Power Management Control: [1:0] 0 D0, 3 D3hot. -/
  | powerState
  /-- MSI-X Message Control: [15] enable, [14] function mask, [10:0] table size less 1. -/
  | msixControl
  /-- Device Control: [7:5] Max Payload Size, [14:12] Max Read Request Size. -/
  | deviceControl
  /-- The header of the Data Object Exchange capability: [15:0] its ID, [19:16] its version. -/
  | doe
  deriving DecidableEq, Repr

/-- A configuration request: the link, the register, and the 32 bits of a write, or a read. PRESUMED: log entry 48. -/
structure ConfigAccess where
  link : Nat
  reg : CfgReg
  value : Option Nat
  deriving DecidableEq, Repr

/-- How an outbound host read ends, but for the timeout (R440). -/
inductive CplOutcome where
  | data (bytes : List Byte)
  | poisoned
  | refused
  deriving DecidableEq, Repr

/-- What CMIS_READ finds (R530). -/
inductive CmisResult where
  /-- The module's 384 bytes of the mirror, Module Media Type and whether it reached ModuleReady. -/
  | answered (map : List Byte) (mediaType : Nat) (ready : Bool)
  | noAnswer
  deriving DecidableEq, Repr

/-- Causes of a PCIe reset of a function (R428). -/
inductive PcieResetKind where
  | perst | hot | flr
  deriving DecidableEq, Repr

/-- Rows of a key-value cache: format, block size, and elements of a row (R153). -/
structure KvForm where
  fmt : Nat
  blk : Nat
  dim : Nat
  deriving DecidableEq, Repr

/-- The key-value cache that a request needs, and where the front end puts its page table (R153 to R155): its rows, layers,
the greatest number of token positions, and the table's address. DESIGN CHOICE: log entry 131. -/
structure KvNeed extends KvForm where
  layers : Nat
  positions : Nat
  table : Nat
  deriving DecidableEq, Repr

/-- A turn of a job's replay: the job, and the cache that the record needs when it is a serving request (R399). -/
structure ReplayTurn where
  job : Nat
  need : KvNeed
  deriving DecidableEq, Repr

/-- A turn of a job's delivery: the job, a result that its program brings, as sequence number and payload, and the channel of
DATA frames to a gateway (R19, R20, R452). -/
structure ResultTurn where
  job : Nat
  result : Option (Nat × List Byte)
  chan : Nat
  deriving DecidableEq, Repr

/-- An epoch plan as a package receives it: the signed message, the manifest that the checkpoint's store holds for the rank of the
package, and the digest of the parts that the package restores (R390, R398). DESIGN CHOICE: log entry 130. -/
structure PlanMessage where
  payload : List Byte
  manifest : List Byte
  digest : List Byte
  deriving DecidableEq, Repr

/-- A stem record as the coordinator receives it, with the address at which its program places the member list that the record may
complete (R341, R343). -/
structure StemTurn where
  payload : List Byte
  listAddr : Nat
  deriving DecidableEq, Repr

/-- A straggler release: the step, and the address of the member list (R341, R343). -/
structure ReleaseTurn where
  step : Nat
  listAddr : Nat
  deriving DecidableEq, Repr

/-- The Prism plan of one member, and its address in that member's memory (R387 step 3). -/
structure MemberPlan where
  device : Nat
  addr : Nat
  plan : List Byte
  deriving DecidableEq, Repr

/-- A PART_DONE as the coordinator receives it, with the Prism plans that its program has made in case the message is the last one
that a switch waits for (R376, R387). -/
structure PartMessage where
  payload : List Byte
  plans : List MemberPlan
  deriving DecidableEq, Repr

/-- Who makes a register store: the host through BAR0 of a link (R430), or a hart in the control window (R194). -/
inductive StoreBy where
  | bar0 (link : Nat)
  | hart (hart : Nat)
  deriving DecidableEq, Repr

/-- The three timer comparisons of a hart (R415). -/
inductive TimerLevel where
  | m | s | vs
  deriving DecidableEq, Repr

/-- The commands of the block: one constructor for each row of the opcode table. -/
inductive Instr where
  -- power, boot and time
  | powerUp (b : Board)
  | restIntervalExpiry (b : Board)
  | enDeassert
  | powerFault (cause source : Nat)
  | timeReferenceStart (timeref refclk : Bool)
  | settingsHoldExpiry
  | domainRamp (domains : List Nat)
  | domainRampTimeout (domain : Nat)
  | dieSelftestPowerup (unit : Unit3) (pass : Bool)
  | memChannelTrainingDone (group : Nat) (failed : Option (Nat × Nat))
  | memInitialisationDone (group : Nat)
  | coreImageLoad
  | secReady (rq : Request) (value : List Byte)
  | configRequest (access : ConfigAccess)
  -- dictionary and Camip
  | read (rq : Request) (index sub : Nat)
  | write (rq : Request) (index sub type : Nat) (value : List Byte)
  | readMulti (rq : Request) (items : List (Nat × Nat))
  | writeMulti (rq : Request) (items : List WriteItem)
  | describe (rq : Request) (index sub : Nat)
  | domRead (rq : Request) (index sub offset length : Nat)
  | domWrite (rq : Request) (index sub offset : Nat) (bytes : List Byte)
  | spdm (port : Nat) (msg : SpdmFrame)
  | ident (port : Nat) (frame : CamipFrame)
  | camipSessionIdleTimeout (slot : Nat)
  | camipSessionClose (rq : Request) (slot : Nat) (value : List Byte)
  | camipEnable (rq : Request) (port : Nat) (value : List Byte)
  | camipNodeId (rq : Request) (port : Nat) (value : List Byte)
  | plcaBeaconLost (port : Nat)
  | notifyRepeat (ring : Nat)
  | mailboxCmd (core : Bool) (chan link word : Nat)
  | dictReplayDone (rq : Request) (value : List Byte)
  | dictHoldMs (rq : Request) (value : List Byte)
  | dictPathWrite (rq : Request) (value : List Byte)
  | memInitStart (rq : Request) (value : List Byte)
  | secKeyRevoke (rq : Request) (value : List Byte)
  | secSvnCommit (rq : Request) (value : List Byte)
  | srvTimeReselect (rq : Request) (value : List Byte)
  | timerefLoss
  | referenceLoss
  -- enables and domains
  | tnsDieEnable (rq : Request) (value : List Byte)
  | tnsQuadEnable (rq : Request) (die : Nat) (value : List Byte)
  | tnsCanopyEnable (rq : Request) (die : Nat) (value : List Byte)
  | srvClusterEnable (rq : Request) (hd : Nat) (value : List Byte)
  | pwrMemgrpEnable (rq : Request) (value : List Byte)
  | pwrLdEnable (rq : Request) (value : List Byte)
  | domainSwitchOff (domain : Nat)
  | domainRegulatorFail (domain : Nat) (arrayRail : Bool)
  | cappingSample (sample : PowerSample)
  | pwrInputWPeak (rq : Request) (value : List Byte)
  | lpddrRefresh (group : Nat)
  | mr4Read (group : Nat) (rates : List Nat) (hot : List Bool)
  | memScrubVisit (addr : Nat) (found : Option ErrKind) (strikes : List Strike)
  | canopyScrubVisit (addr : Nat) (found : Option ErrKind)
  | memGroupFail (group : Nat) (channel : Option (Nat × Nat))
  | hsRateMeasure (rates : List Nat)
  | tnsSelftestStart (rq : Request) (value : List Byte)
  | selftestDone (die : Nat) (failing : List Nat)
  -- tensor queues and operations
  | tnsDoorbell (die queue value : Nat)
  | controlRegisterWrite (source : StoreBy) (addr width value : Nat)
  | tnsDqCtrlEnable (rq : Request) (die queue : Nat) (value : List Byte)
  | tnsDqReset (rq : Request) (value : List Byte)
  | dqResetDone (die queue : Nat)
  | descriptorTake (die : Nat)
  | splitNotice (root isn die : Nat)
  | operationStart (die isn : Nat)
  | nop (die isn : Nat)
  | mma (die isn : Nat)
  | mmaDrain (die isn : Nat)
  | drain (die isn : Nat)
  | tileRestore (die isn : Nat)
  | vecMap (die isn : Nat)
  | vecReduce (die isn : Nat)
  | stashBegin (die isn : Nat)
  | stashPut (die isn : Nat)
  | regrowPut (die isn : Nat)
  | stashFree (die isn : Nat)
  | operationComplete (die isn : Nat)
  | tnsSlotBindBound (rq : Request) (slot : Nat) (value : List Byte)
  | tnsSlotBindRelease (rq : Request) (slot : Nat) (value : List Byte)
  | slotReleaseDone (slot : Nat)
  | tnsStashPoolPeak (rq : Request) (die job : Nat) (value : List Byte)
  -- coherence and cores
  | rdShare (agent : Agent) (line : Nat)
  | rdUnique (agent : Agent) (line : Nat)
  | promote (agent : Agent) (line : Nat)
  | rdPeek (agent : Agent) (line : Nat)
  | rdPeekWatch (agent : Agent) (line : Nat)
  | wrFull (agent : Agent) (line : Nat) (data : List Byte)
  | wrHint (agent : Agent) (line : Nat) (data : List Byte) (targetOk : Bool)
  | wrMasked (agent : Agent) (line mask : Nat) (data : List Byte)
  | atomicHome (agent : Agent) (hart : Nat) (addr width : Nat) (op : AtomicOp) (operand : Nat)
  | snpShare (agent : Agent) (line : Nat)
  | snpUnique (agent : Agent) (line : Nat)
  | snpKill (agent : Agent) (line : Nat)
  | snpPeek (agent : Agent) (line : Nat)
  | watchNotice (die line : Nat)
  | rspNone (agent : Agent) (line : Nat)
  | rspSentKeep (agent : Agent) (line : Nat)
  | rspSentGone (agent : Agent) (line : Nat)
  | wbInFlight (agent : Agent) (line : Nat)
  | dat (agent : Agent) (line : Nat)
  | evDirty (agent : Agent) (line : Nat)
  | evClean (agent : Agent) (line : Nat)
  | ackGrant (agent : Agent) (line : Nat)
  | ackEv (agent : Agent) (line : Nat)
  | ackWr (agent : Agent) (line : Nat)
  | cacheEviction (agent : Agent) (line : Nat)
  | agentLost (agent : Agent)
  | cohHomeEnableSet (rq : Request) (value : List Byte)
  | cohHomeEnableClear (rq : Request) (value : List Byte)
  | amo (hart addr width : Nat) (op : AtomicOp) (operand : Nat)
  | lr (hart addr width : Nat)
  | sc (hart addr width value : Nat)
  | streamingStore (hart addr : Nat) (data : List Byte)
  | cboClean (hart addr : Nat)
  | cboFlush (hart addr : Nat)
  | cboInval (hart addr : Nat)
  | hartStartPc (hart pc : Nat)
  | coreCacheUe (hd : Nat) (error : CacheError) (hart addr : Nat)
  -- Margeram links
  | fabPortEnable (rq : Request) (value : List Byte)
  | cmisRead (port : Nat) (result : CmisResult)
  | portLaneTrainingDone (port : Nat)
  | portTrainTimeout (port : Nat)
  | portRetryTimer (port : Nat)
  | fabPortExpect (rq : Request) (port : Nat) (portNumber : Bool) (value : List Byte)
  | laneFailure (port : Nat)
  | linkUnitReceive (port : Nat) (unit : LinkUnit)
  | nak (port ackSeq : Nat)
  | replayTimeout (port : Nat)
  | frameRoute (port : Option Nat) (vl : Nat)
  | data (port : Option Nat)
  | rdReq (port : Option Nat)
  | rdRsp (port : Option Nat)
  | wrReq (port : Option Nat)
  | wrPart (port : Option Nat)
  | wrAck (port : Option Nat)
  | ctrl (port : Option Nat)
  | fellNotice (port : Option Nat)
  | identExchange (port : Nat)
  | ringRecordWrite (port : Option Nat)
  | remoteTimeout (tag : Nat)
  | vlStall (port vl : Nat)
  | sendDoorbell (job value : Nat)
  | sendDescriptor (job : Nat)
  -- collectives
  | colDoorbell (job value : Nat)
  | colDescriptorTake (job : Nat)
  | colNop (job path : Nat)
  | reduce (job path : Nat)
  | reduceHop (job path : Nat)
  | broadcast (job path : Nat)
  | prism (job path : Nat)
  | collectiveComplete (job path : Nat)
  -- landing units
  | luDoorbell (job value : Nat)
  | luNop (job : Nat)
  | ortho (job : Nat)
  | norm (job : Nat)
  | update (job : Nat)
  -- job coordinator and control messages
  | stemRecord (job : Nat) (turn : StemTurn)
  | stragglerRelease (job : Nat) (turn : ReleaseTurn)
  | memberList (job : Nat) (list : List Byte) (step : Nat)
  | normReport (job : Nat) (payload : List Byte)
  | clipRecord (job : Nat) (payload : List Byte) (step clipAddr : Nat)
  | heartbeat (job : Nat) (payload : List Byte)
  | faultReport (job : Nat) (payload : List Byte)
  | epochPlan (job : Nat) (plan : PlanMessage)
  | ready (job : Nat) (payload : List Byte)
  | start (job : Nat) (payload : List Byte)
  | prismPlan (job : Nat) (payload : List Byte) (planAddr targetAddr : Nat) (targets : List Byte) (path : Nat)
  | switch (job : Nat) (payload : List Byte)
  | partDone (job : Nat) (part : PartMessage)
  | ckptDone (job : Nat) (payload : List Byte)
  | snagReport (job : Nat) (payload : List Byte)
  | jobCtrlStart (rq : Request) (job : Nat)
  | jobCtrlStop (rq : Request) (job : Nat)
  | jobCtrlSpare (rq : Request) (job : Nat)
  | jobKick (rq : Request) (job : Nat) (value : List Byte)
  | jobSwitch (rq : Request) (job : Nat) (value : List Byte)
  | watchdogExpiry (job : Nat)
  | heartbeatTimer (job : Nat)
  | deadTimeout (job device : Nat)
  | restartTimeout (job : Nat)
  | journalReplay (turn : ReplayTurn)
  | requestAccept (job : Nat) (payload : List Byte) (source layers positions : Nat) (form : KvForm) (table : Nat)
  | resultDelivery (turn : ResultTurn)
  -- host coupling
  | attach (link value : Nat)
  | detach (link : Nat)
  | pcieLinkUp (link speed width : Nat)
  | pcieLinkDown (link : Nat)
  | pcieReset (link : Nat) (kind : PcieResetKind)
  | busMasterDisable (link : Nat)
  | inboundRead (link : Nat) (place : BarPlace) (length : Nat)
  | inboundWrite (link offset : Nat) (data : List Byte) (poisoned : Bool)
  | inboundAtomicop (link offset width : Nat) (op : AtomicOp) (operand : Nat)
  | setShared (link word : Nat)
  | setDevice (link word : Nat)
  | flush (link word : Nat)
  | ack (job value : Nat)
  | outboundReadCompletion (id : Nat) (outcome : CplOutcome)
  | hostCplTimeout (id : Nat)
  -- events
  | eventPost (hart word : Nat)
  | evtRingCons (ring value : Nat)
  | evtRingDone (ring : Nat)
  | evtRingEnable (rq : Request) (ring : Nat) (value : List Byte)
  | evtGlobalEnable (rq : Request) (value : List Byte)
  | evtRingTarget (rq : Request) (ring : Nat) (value : List Byte)
  | timerInterrupt (hart : Nat) (level : TimerLevel)
  -- the rows added at the table's end
  | hartStop (hart : Nat)
  | timeReferenceReturn (timeref : Bool)
  | plcaStatusTrue (port : Nat)
  | vinCrosses20v (rising : Bool)
  | pwrRailTargetMv (rq : Request) (die : Nat) (value : List Byte)
  | domainRampDone (domain : Nat)
  | landingOperationComplete (job : Nat)
  deriving DecidableEq, Repr

end Sys2Proof
end

