-- ==== Sys2Proof/Decode.lean ====
section
/-!
DEFINITION. Decode.lean: the words of the opcode table. The table of this block gives its rows no bits, so no word spells
a command (log entry 13).
-/

namespace Sys2Proof

/-- The command that a word of `nbits` bits spells by the table's bits: none, since the table gives no row any.
DESIGN CHOICE: log entry 13. -/
def decodeTableWord (_nbits _w : Nat) : Option Instr := none

end Sys2Proof
end

