-- ==== Sys2Proof/Config.lean ====
section
/-!
DEFINITION. Config.lean: what the manual leaves open, as constants without a body. Nothing in Lean can evaluate one or
prove a value of it, so a statement that mentions one holds whatever it is.
-/

namespace Sys2Proof.Config

/-- The n-th value that the manual leaves open (R13 "unspecified"), drawn by `State.draw` (log entry 1).
DEDUCED: log entry 70. -/
opaque freeNat : Nat → Nat

/-- The directory set of a line at its home (R226 gives the number of sets and no index function).
DESIGN CHOICE: log entry 56. -/
opaque dirSet : Nat → Nat

/-- The set of a line in a stream cache (R107 gives the number of sets and no index function).
DESIGN CHOICE: log entry 57. -/
opaque cacheSet : Nat → Nat

/-- The device identity key that the security engine derives from the device secret (R522); its derivation is not given.
DESIGN CHOICE: log entry 61. -/
opaque identityKey : List Byte → List Byte

/-- The alias key that the security engine derives at boot from the device secret and the digest of the accepted MC image (R522).
DESIGN CHOICE: log entry 61. -/
opaque aliasKey : List Byte → List Byte → List Byte

/-- The alias certificate: the identity key that signs it, the alias key, the digest and the SVN that it carries (R522); its bytes are not
given. DESIGN CHOICE: log entry 61. -/
opaque aliasCert : List Byte → List Byte → List Byte → Nat → List Byte

/-- Whether the AES-256-GCM tag of a secured frame verifies: session slot, the number of its keys, header SEQ, the header with the body
after it, and tag (R489). The keys come from the SPDM key schedule, which no rule of the manual spells out.
PRESUMED: log entry 16. -/
opaque tagOk : Nat → Nat → Nat → List Byte → List Byte → Bool

/-- What AES-256-GCM makes of a body that the package secures, its tag at the end: the number of the session's keys, SEQ, the header
that is its additional data, and the body (R489). PRESUMED: log entry 16. -/
opaque gcmSeal : Nat → Nat → List Byte → List Byte → List Byte

/-- A part of an answer to an SPDM message that DSP0274 defines and leaves to the package: the number of a value drawn, the request code
and the number of the part (R488, R523). PRESUMED: log entry 16. -/
opaque spdmAnswer : Nat → Nat → List Byte → List Byte

/-- The flattened devicetree that the MC writes at handoff (R519); the number is that of a value drawn.
DESIGN CHOICE: log entry 61. -/
opaque devicetree : Nat → List Byte

/-- The ECDSA P-384 signature that a coordinator task makes over a message with the private key of a public key (R343, R374,
R375); the private key and the nonce are not the package's to give. The number is that of a value drawn.
PRESUMED: log entry 16. DESIGN CHOICE: log entry 61. -/
opaque sign : List Byte → Nat → List Byte → List Byte

/-- The 32 check bits of the 64 bytes of a line: four symbols of a Reed–Solomon code whose field and generator are not given
(R210). DESIGN CHOICE: log entry 133. -/
opaque checkBits : List Byte → BitVec 32

/-- The reserved bit and bytes of an ECC block, by its device byte offset: 0 to 2 (R209). DESIGN CHOICE: log entry 133. -/
opaque eccSpare : Nat → Nat → Byte

end Sys2Proof.Config
end

