-- ==== Sys2Proof/Machine/State.lean ====
section
/-!
DEFINITION. Machine/State.lean: the state of the package as plain data, the stop reasons and the state at reset. Every
dictionary object lives in `obj` under its own Index.Sub; every other piece of state has one home in the structures
below. Fields marked MODEL'S OWN are not the spec's.
-/

namespace Sys2Proof.Machine

/-- The value of a dictionary object: a number (BOOL, U8 to U64, F32 as its code) or bytes (STR, OCT, DOM) (R476). -/
inductive Val where
  | num (n : Nat)
  | bytes (l : List Byte)
  deriving DecidableEq, Repr

/-- Where a tensor operation stands: taken and waiting, started, its work done, or completed (R137 to R139). -/
inductive OpPhase where
  | waiting | started | done
  deriving DecidableEq, Repr

/-- A tensor operation in flight on a die (R128, R138): its descriptor as 32 little-endian words, and what it has
gathered for its completion record (R149). -/
structure Op where
  isn : Nat
  queue : Nat
  words : List Nat
  phase : OpPhase
  status : Nat
  detail : Nat
  errorAddr : Nat
  sat : Bool
  nonfinite : Bool
  longRed : Bool
  ieee : Nat
  /-- The operation waited on the tile scoreboard (R157). -/
  sbWaited : Bool
  /-- A part of a split operation on a non-root die: the root die and its ISN there (R143). -/
  partOf : Option (Nat × Nat)
  /-- Last host address written on each link (R441). -/
  hostWrote : List (Nat × Nat)
  /-- Flushing reads made (R441). -/
  flushed : Bool
  /-- How many of the ranges that it reads from other packages and the host have been asked for (R139, R285, R440). -/
  asked : Nat
  deriving DecidableEq, Repr

/-- The indices of a descriptor queue (R133 to R137). STATE is the object TNS_DQ_STATUS. `order` lists the operations
taken and not yet retired, oldest first, with whether each has completed. -/
structure DQ where
  prod : Nat
  cons : Nat
  taken : Nat
  retired : Nat
  completions : Nat
  order : List (Nat × Bool)
  resetting : Bool
  /-- The host reads of the next take have been sent (R440). -/
  asked : Bool
  deriving DecidableEq, Repr

/-- A stash entry allocated in a pool (R181). -/
structure PoolRun where
  job : Nat
  addr : Nat
  bytes : Nat
  deriving DecidableEq, Repr

/-- A tensor die: issue sequence number, round of the queues, operations in flight, tiles (key engine * 32 + tile, then
row * 64 + column, of QA40 codes), notices of split operations, pools, self-test. -/
structure Die where
  nextIsn : Nat
  round : List Nat
  ops : List Op
  tiles : Tab (Tab Nat)
  /-- Contents of the operand staging buffers, and of the vector register files and local buffers (R101, R106): 0 while
  nothing has used them since power-up, then the number of the free values that they hold. DESIGN CHOICE: log entry 117. -/
  stageBase : Nat
  vecBase : Nat
  /-- Device errors of the local SRAM not yet found, by block * 2^48 + unit (R116). -/
  sramErr : Tab ErrKind
  notices : List (Nat × Nat)
  pool : List PoolRun
  /-- Active stash chains: job, slot and address (R174, R192). -/
  chains : List (Nat × Nat × Nat)
  testing : Bool
  deriving DecidableEq, Repr

/-- The stable states of a cached line, and the transient ones (R225, R231). -/
inductive CacheSt where
  | d | c | s | isW | iuW | sdW | diW | ciW
  deriving DecidableEq, Repr

/-- A line held by a caching agent. -/
structure CLine where
  st : CacheSt
  data : List Byte
  poisoned : Bool
  deriving DecidableEq, Repr

/-- A directory entry (R226): SOLE or SHARED, the holder vector over HD0, HD1, TD0 to TD7, and the watch vector. -/
structure DirEntry where
  sole : Bool
  holders : BitVec 10
  watch : BitVec 8
  deriving DecidableEq, Repr

/-- The requests of R230. -/
inductive ReqKind where
  | rdShare | rdUnique | promote | rdPeek | rdPeekWatch
  | wrFull | wrHint (targetOk : Bool) | wrMasked (mask : Nat)
  | atomic (hart addr width : Nat) (op : AtomicOp) (operand : Nat)
  | backInval
  deriving DecidableEq, Repr

/-- The snoops of R230. -/
inductive SnpKind where
  | share | unique | kill | peek
  deriving DecidableEq, Repr

/-- A request waiting at a home, or admitted (R229). -/
structure Req where
  kind : ReqKind
  agent : Agent
  data : List Byte
  deriving DecidableEq, Repr

/-- A transaction on a line (R229, R232): the admitted request, what the directory said when it was admitted, snoops not
yet answered (caching agent, kind), the data that a holder returned or forwarded, whether the requester has been served, and
the agent whose EvDirty is awaited. -/
structure Txn where
  req : Req
  /-- No agent held the line when the request was admitted: a RdShare is granted C (R230). -/
  alone : Bool
  /-- The directory listed a holder other than the requester when the request was admitted (R244). -/
  others : Bool
  /-- The requester waits for the line, as a caching agent (R231), even where the home serves it as a RdPeek (R251). -/
  asks : Bool
  /-- The target of the hint window that the write fell in when it was admitted (R237, R260). -/
  target : Option Nat
  /-- The transaction may make a directory entry for its line, and has its way of the set (R226). -/
  entry : Bool
  snoops : List (Nat × SnpKind)
  got : Option (List Byte × Bool)
  served : Bool
  /-- A holder has forwarded the line with a state, so that the requester will hold it. -/
  granted : Bool
  wbWait : Option Nat
  /-- The home has sent what ends its own part; only the requester's AckGrant is awaited. -/
  done : Bool
  /-- The requester's AckGrant has arrived. -/
  acked : Bool
  deriving DecidableEq, Repr

/-- Messages of the mesh that have been sent and not yet taken (R228). Agents of RSP and WB are caching agents. -/
inductive Msg where
  | rsp (kind : Nat) (agent line : Nat) (dirty : Option (List Byte × Bool))
  /-- `asked`: it answers a request by which a caching agent waits for the line (R231). -/
  | dat (agent : Agent) (line : Nat) (grant : Option CacheSt) (data : Option (List Byte × Bool)) (asked : Bool)
      (needAck : Bool)
  | ev (dirty : Bool) (agent line : Nat) (data : List Byte) (poisoned : Bool)
  | ackGrant (agent : Agent) (line : Nat)
  | ackEv (agent line : Nat)
  | ackWr (agent : Agent) (line : Nat)
  | watch (die line : Nat)
  /-- The old value of a far atomic, on its way to a hart, with the CONTENDED bit (R244), and whether its line was
  poisoned, in which case the atomic has had no effect (R215). -/
  | old (agent : Agent) (line hart addr value : Nat) (contended poisoned : Bool)
  deriving DecidableEq, Repr

/-- A core operation that waits for a line (R235, R244): hart, address, width, operation, operand, and whether it is
an LR (which places a reservation) or a plain AMO. -/
structure CoreWait where
  die : Nat
  hart : Nat
  line : Nat
  addr : Nat
  width : Nat
  op : AtomicOp
  operand : Nat
  isLr : Bool
  deriving DecidableEq, Repr

/-- A reservation: its line, and whether it stands at the home or memory controller (`true`) or in the L1D (R247). -/
structure Resv where
  line : Nat
  atHome : Bool
  deriving DecidableEq, Repr

/-- Coherence: directories of all homes (by line), transactions, waiting requests, caches (by caching agent), messages,
the lines that wait monitors watch, reservations, predictors, core operations waiting, the last word that each hart
received, lost agents, the last data each cacheless reader received, cacheless writes performed, and where in a server-core
die its lines lie. -/
structure Coh where
  dir : Tab DirEntry
  txns : Tab Txn
  waiting : Tab (List Req)
  caches : Tab (Tab CLine)
  msgs : List Msg
  resv : Tab Resv
  pred : Tab Nat
  /-- Lines that snoops took from the core of each hart, oldest first, and how many of them each predictor counter of
  the hart had seen at its previous near atomic (R246). -/
  lostLog : Tab (List Nat)
  predSeen : Tab Nat
  waits : List CoreWait
  result : Tab Nat
  lost : List Nat
  delivered : List (Agent × Nat × List Byte × Bool)
  performed : Nat
  watching : List (Nat × Nat)
  /-- Lines in the L1D and in the L2 of each hart's core, oldest first; every other line of its die lies in the L3 (R407). -/
  l1d : Tab (List Nat)
  /-- Lines in the L1I of each hart's core, which its L2 includes (R407). -/
  l1i : Tab (List Nat)
  l2 : Tab (List Nat)
  /-- Requests that were answered with an access error, as agent and address (R195). -/
  denied : List (Agent × Nat)
  deriving DecidableEq, Repr

/-- A hart (R408, R414, R415, R418, R419): its registers, the CSRs by number (PMP, satp, trap and counter registers among
them), its privilege mode (0 U, 1 S, 3 M) and virtualisation mode, the registers that the package itself sets or compares, and its
interrupt files: for each file number the pending and the enabled identities, eidelivery and eithreshold.
DESIGN CHOICE: log entry 114. -/
structure Hart where
  pc : Nat
  /-- Integer registers x1 to x31, floating-point registers, and vector registers of 512 bits, by number. -/
  x : Tab Nat
  f : Tab Nat
  v : Tab Nat
  csr : Tab Nat
  mode : Nat
  virt : Bool
  arg : Nat
  mtimecmp : Nat
  stimecmp : Nat
  vstimecmp : Nat
  timerM : Bool
  timerS : Bool
  timerVs : Bool
  files : Tab (List Nat)
  enabled : Tab (List Nat)
  delivery : Tab Nat
  threshold : Tab Nat
  deriving DecidableEq, Repr

/-- A unit in the replay buffer (R271): its HOP_SEQ, its lane, its frame, and how often it has been sent again. -/
structure HopUnit where
  seq : Nat
  vl : Nat
  frame : Frame
  resends : Nat
  deriving DecidableEq, Repr

/-- A port of the link layer (R267 to R272, R290): numbers of units accepted and sent since training, the discard state
after a NAK, the replay buffer, credits held, receive buffers and send queues per virtual lane, and training. -/
structure Port where
  rxNext : Nat
  rxDiscard : Bool
  txNext : Nat
  unacked : List HopUnit
  credits : List Nat
  rx : List (List Frame)
  tx : List (List Frame)
  ident : Option Frame
  /-- Training from step 3 of R290 may run: the CMIS memory has been read. -/
  cmisOk : Bool
  trained : Bool
  /-- Bytes sent on VL0 and on VL2, by which they take turns (R269). -/
  sent0 : Nat
  sent2 : Nat
  deriving DecidableEq, Repr

/-- Who made a remote request (R285, R387, R567): a tensor operation, the journal mirror of a job, or its coordinator task. -/
inductive RemOwner where
  | op (die isn : Nat)
  | mirror (job : Nat)
  | task (job : Nat)
  deriving DecidableEq, Repr

/-- An outstanding remote request (R285 to R288): its TAG, who made it, job, destination, address, the port of its first
hop, whether it is a read, its length, its TYPE and payload while it waits its turn (R287), and its answer once it has one:
success, data and poison mask. -/
structure Remote where
  tag : Nat
  owner : RemOwner
  job : Nat
  dst : Nat
  addr : Nat
  port : Option Nat
  isRead : Bool
  len : Nat
  unsent : Option (Nat × List Byte)
  answer : Option (Bool × List Byte × Nat)
  deriving DecidableEq, Repr

/-- Fabric: ports, frames that local senders and the landing units have handed over and that await routing, remote
requests, sources whose stale frames were reported, and the lanes (port * 4 + VL, 24 for the package's own frames) whose
first frame has passed its checks and waits for room (R284, R314). -/
structure Fab where
  ports : Tab Port
  localq : List Frame
  remotes : List Remote
  nextTag : Nat
  staleSeen : List (Nat × Nat × Nat)
  taken : List Nat
  deriving DecidableEq, Repr

/-- A protection entry (R371). -/
structure Prot where
  base : Nat
  bytes : Nat
  shared : Bool
  remote : Bool
  write : Bool
  read : Bool
  deriving DecidableEq, Repr

/-- A path record (R299). -/
structure PathRec where
  kind : Nat
  arity : Nat
  lu : Nat
  treeRoot : Nat
  sendCh : Nat
  recvCh : Nat
  upRecvBase : Nat
  downSendBase : Nat
  deriving DecidableEq, Repr

/-- The topology record as read at the start (R298 to R301). -/
structure Topo where
  n : Nat
  ownRank : Nat
  paths : List PathRec
  members : List Nat
  deriving DecidableEq, Repr

/-- A collective taken into its path's list (R304 to R307): its descriptor words, its place in the queue, whether it
has started, whether this package is a member of it, the next frame to make or take, and whether its own work is done. -/
structure Coll where
  index : Nat
  words : List Nat
  started : Bool
  member : Bool
  next : Nat
  poisoned : Nat
  firstPoisoned : Nat
  /-- PRISM: codes received of each move, and codes written into each target record. -/
  got : List Nat
  cover : List Nat
  /-- Channels on which it has sent, each with the SEQ that follows its last frame there. -/
  ends : List (Nat × Nat)
  /-- PRISM: the plan and the target records as read at its start. -/
  plan : List Byte
  places : List Byte
  fin : Bool
  deriving DecidableEq, Repr

/-- A landing operation taken (R346 to R349): `done` when its work has ended, `completed` when it has completed and awaits
the retirement of an earlier one. -/
structure LuOp where
  index : Nat
  words : List Nat
  lu : Nat
  done : Bool
  completed : Bool
  status : Nat
  detail : Nat
  addr : Nat
  deriving DecidableEq, Repr

/-- What a coordinator task keeps for its job (R341 to R345, R360, R379, R390, R391, R398, R401, R558, R559): round-1
records counted (step, device, finite), the highest step whose list was issued and that list, norm reports (step, layer,
device, norm), steps whose clip records went out, fault reports (device, code, cause in the sender, subject), dead devices,
the epoch plan issued and whether it is still the plan of this epoch's end, READYs, checkpoint parts (device, step), Prisms
done, devices that a plan replaced, whether this standby acts as coordinator, steps whose non-finite records have been
reported (R342), a switch that has been asked for and not finished (R389), whether its PRISM_PLAN has been sent, the plans' hashes
by device while the plans are on their way to the members, and the member lists that lie in memory and have yet to be broadcast, as
address and bytes (R343). DESIGN CHOICE: log entry 114. -/
structure Coord where
  stems : List (Nat × Nat × Bool)
  listed : Option Nat
  list : List Byte
  norms : List (Nat × Nat × Nat × Nat)
  clipped : List Nat
  reports : List (Nat × Nat × Bool × Nat)
  dead : List Nat
  plan : List Byte
  planned : Bool
  readies : List Nat
  parts : List (Nat × Nat)
  prisms : List Nat
  replaced : List Nat
  acting : Bool
  stopped : Bool
  nonfinite : List Nat
  switchDue : Bool
  prismSent : Bool
  planHashes : List (Nat × List Byte)
  listsDue : List (Nat × Nat)
  deriving DecidableEq, Repr

/-- The serving front end of a job, and its journal and delivery positions (R19, R28, R395, R396, R449, R452).
DESIGN CHOICE: log entry 114. -/
structure Front where
  closed : Bool
  /-- APPENDED and TRIMMED (R395). -/
  appended : Nat
  trimmed : Nat
  /-- Records in the journal, oldest first: sequence number, free-running position, bytes. -/
  records : List (Nat × Nat × Nat)
  fullLog : Bool
  fullJournal : Bool
  delivering : Bool
  nextDeliver : Nat
  hostOff : Nat
  /-- Ends of the records delivered in this attachment: sequence number and free-running position in the host ring. -/
  hostEnds : List (Nat × Nat)
  /-- A record placed and awaiting its flushing read: sequence number and new written count. -/
  flushing : Option (Nat × Nat)
  /-- Pages reserved per slot, as positions in the pool list (R155). -/
  pages : Tab (List Nat)
  /-- Requests accepted whose results have not come: sequence number, slot and SOURCE (R19, R393). -/
  opened : List (Nat × Nat × Nat)
  /-- Results that wait for log space (R28). -/
  results : List (Nat × List Byte)
  /-- Records in the delivery log: sequence number, free-running position and bytes; and the position of the next (R449). -/
  logged : List (Nat × Nat × Nat)
  logEnd : Nat
  deriving DecidableEq, Repr

/-- The parts of a job descriptor that the package keeps (R370). -/
structure Desc where
  jobId : Nat
  kind : Nat
  device : Nat
  epoch : Nat
  dieMask : Nat
  spareDieMask : Nat
  slotMask : Nat
  journalA : Nat
  journalB : Nat
  journalShadow : Nat
  journalLog2 : Nat
  teacherTable : Nat
  teacherCount : Nat
  retainBase : Nat
  retainBytes : Nat
  stage : Nat
  stages : Nat
  mbInflight : Nat
  deriving DecidableEq, Repr

/-- A job context (R367): its descriptor, protections and topology as read at the last start, channel sequence
numbers, send ring, collective paths, landing queue, watchdog, restart, and what its tasks keep. Its state, epoch and
status are the objects JOB_STATE, JOB_EPOCH and JOB_STATUS. -/
structure Job where
  desc : Desc
  prots : List Prot
  topo : Option Topo
  /-- The ports of the job are closed (R294). -/
  closedPorts : Bool
  /-- The epoch that the link dies check frames against (R281). -/
  linkEpoch : Nat
  txSeq : Tab Nat
  rxSeq : Tab Nat
  /-- Rings, by the address of their counts, that end in a pad, with the written count after it (R284). -/
  padded : Tab Nat
  /-- CTRL payloads whose message code is none that R339 lists, and malformed ones (R9): dropped and counted. -/
  badCtrl : Nat
  /-- Payloads delivered to a landing unit or the inbound heartwood path and not yet taken, by channel (R314, R320). -/
  inbox : Tab (List (List Byte))
  sendProd : Nat
  sendCons : Nat
  sendStopped : Bool
  /-- Frames of taken send descriptors that CONS does not count yet, oldest first, each with whether the first hop has
  accepted it or this package has taken it (R289). -/
  sendWait : List (Frame × Bool)
  colProd : Nat
  colls : List (List Coll)
  colDone : List Nat
  luProd : Nat
  luCons : Nat
  luRetired : Nat
  luOps : List LuOp
  luVoid : List (Nat × Nat)
  watchdog : Bool
  /-- The accepted plan's bytes 0 to 287, its RESTORE_STEP, REPLAY_SEQ and NSUB (R390). -/
  plan : List Byte
  restoreStep : Nat
  replaySeq : Nat
  nsub : Nat
  accepted : List (Nat × Nat)
  replayed : Nat
  /-- A restart has yet to take step 4 of R391, and whether the context took the rank as a spare. -/
  repairDue : Option Bool
  /-- The digest of the parts restored differs from the manifest's (R398). -/
  restoreBad : Bool
  /-- The next layer whose heartwood BROADCAST step 8 of R391 has to post. -/
  rebroadcast : Option Nat
  /-- An operation of the job has used SPLIT_DIE other than 0 (R400). -/
  splitUsed : Bool
  /-- The manifest of the last checkpoint part written (R398). -/
  manifest : List Byte
  /-- Switch in progress: direction and boundary step, and whether PART_DONE 0 has been sent (R387). -/
  switching : Option (Nat × Nat)
  partSent : Bool
  /-- A switch has begun here and not been completed or abandoned, be it that a restart has come between (R389). -/
  switchOpen : Bool
  /-- The context took its rank as a spare and has not run since: the mirror is its only journal (R568). -/
  tookRank : Bool
  /-- The job was started from its last checkpoint because a switch was abandoned (R389). -/
  resumed : Bool
  lastStep : Nat
  heard : List (Nat × Nat)
  readySent : Bool
  coord : Coord
  front : Front
  deriving DecidableEq, Repr

/-- A link to the host (R426, R444): delivery registers, bias pages, posted writes not yet acknowledged (address,
bytes, operation), MSI-X, and configuration of the function: Bus Master and Memory Space Enable, MSI-X enable and function
mask, masked and pending table entries, base address registers by number, the size code of BAR2 (R429), AER, D3hot, Device
Control, and the lines of its device-bias pages that agents of the package have accessed since the page was flushed (`ours`), and that
the host has written since its last read (`theirs`, R436). -/
structure HLink where
  busMaster : Bool
  msixOn : Bool
  msixMask : List Nat
  pending : List Nat
  bias : Tab Bool
  posted : List (Nat × List Byte × Option (Nat × Nat))
  inErrPages : List Nat
  barUp : Bool
  msixFn : Bool
  bars : Tab Nat
  barCode : Nat
  aer : Nat
  hot : Bool
  devCtl : Nat
  ours : List Nat
  theirs : List Nat
  deriving DecidableEq, Repr

/-- Who waits for an outbound host read (R440). -/
inductive RdOwner where
  | op (die isn : Nat)
  | flush (die isn : Nat)
  | queue (die queue : Nat)
  | front (job : Nat)
  deriving DecidableEq, Repr

/-- An outstanding outbound host read, with the number of posted writes of its link that it follows (R442). -/
structure HRead where
  id : Nat
  link : Nat
  addr : Nat
  length : Nat
  owner : RdOwner
  before : Nat
  deriving DecidableEq, Repr

/-- The host side: links, delivery registers by job (HRING, HWRITTEN), outstanding reads, and the bytes of host memory
that completions have delivered (by host address; log entry 9). -/
structure Hst where
  links : List HLink
  hring : Tab Nat
  hwritten : Tab Nat
  reads : List HRead
  nextRead : Nat
  mem : Tab Byte
  deriving DecidableEq, Repr

/-- What a tally ring keeps beside its objects (R466): LOST since it was enabled, the first SEQ lost and the number
lost since the last EVT_RING_LOST, LAST_SEQ. -/
structure Ring where
  lost : Nat
  firstLost : Option Nat
  lostSince : Nat
  lastSeq : Nat
  deriving DecidableEq, Repr

/-- Messages that leave the package, newest last. MODEL'S OWN: the record by which an output can be observed. -/
inductive Out where
  | linkUnit (port word vl : Nat) (frame : Option Frame) (crc : Nat)
  | imsic (hart file identity : Nat)
  | msix (link entry : Nat)
  /-- An Ethernet frame of a Camip port, without its FCS; `notice` tells a NOTIFY from a response. -/
  | camip (port : Nat) (notice : Bool) (frame : List Byte)
  | pcieRead (link addr : Nat)
  | pcieWrite (link addr : Nat) (data : List Byte) (relaxed : Bool)
  | pcieCpl (link status : Nat) (data : List Byte)
  | lowPowerOff (port : Nat)
  deriving DecidableEq, Repr

/-- A Camip session (R488 to R491); its use is CAMIP_SESSION_STATE. `id` is its SPDM session ID, and `key` the number of the free value
that stands for its keys (log entry 1): a new one at each KEY_EXCHANGE and KEY_UPDATE. `cache` holds the responses to the last 16
requests, newest first: TRANS_ID, SERVICE, STATUS and body; `roots` the requester roots at its KEY_EXCHANGE (R525). -/
structure Sess where
  id : Nat
  rxSeq : Option Nat
  txSeq : Nat
  cache : List (Nat × Nat × Nat × List Byte)
  key : Nat
  roots : List (List Byte)
  failPosted : Bool
  deriving DecidableEq, Repr

/-- A mailbox or core channel (R494). -/
structure Chan where
  state : Nat
  status : Nat
  trans : Nat
  len : Nat
  irq : Nat
  body : Tab Byte
  deriving DecidableEq, Repr

/-- An SPDM answer above DataTransferSize that CHUNK_GET fetches (R488): the path it was asked on, its handle, the number of the next
chunk, its size, and the bytes still to fetch. -/
structure LargeMsg where
  port : Nat
  handle : Nat
  seq : Nat
  size : Nat
  rest : List Byte
  deriving DecidableEq, Repr

/-- The dictionary server: sessions, channels (HC0 to HC3, then CC0 to CC3), PLCA status of the ports, their transmit queues
(R492), sessions to close once the response in hand is sent, with the cause (empty between steps), objects written during the hold, the last answer
given (status and body), the SPDM answers being fetched in chunks, and the path, handle and next number of the messages being sent so. -/
structure Dict where
  sess : List Sess
  chans : List Chan
  plca : List Bool
  txq : List (Nat × Out)
  closing : List (Nat × Nat)
  holdWrites : Nat
  memInit : Bool
  lastStatus : Nat
  lastBody : List Byte
  large : List LargeMsg
  chunks : List (Nat × Nat × Nat)
  deriving DecidableEq, Repr

/-- Fuses (R520). They survive power-off. The SVN minima are thermometers, and the device secret is read by the security engine alone. -/
structure Fuses where
  keyHash : List (List Byte)
  revoked : Nat
  svnMc : BitVec 64
  svnCore : BitVec 64
  secret : List Byte
  rootCert : List Byte
  deviceCert : List Byte
  serial : List Byte
  macs : List (List Byte)
  deriving DecidableEq, Repr

/-- Power, pins and boot (R506, R535 to R548, R576 to R579): the EN pin and the input in mV, whether the package is on,
whether the rest interval is over or runs, the latched fault with its source and whether a power fault was the last way off,
the BSTAT pins (`true` is driven low), the board, the SRAM of the MC as far as its image fills it (R516), the keys that the security engine
holds (R522), the entry point of a core image that waits for its hart (R506), and what else boot has settled. -/
structure Pwr where
  en : Bool
  vinMv : Nat
  on : Bool
  restDone : Bool
  resting : Bool
  latched : Nat
  latchedSource : Nat
  faulted : Bool
  bstat1 : Bool
  bstat0 : Bool
  board : Board
  mcSram : List Byte
  opened : Bool
  aliasMade : Bool
  identityKey : List Byte
  aliasKey : List Byte
  handoff : Option Nat
  mcSlot : Nat
  mcSvn : Nat
  coreSlot : Nat
  coreSvn : Nat
  capped : List Nat
  thermal : List Nat
  samples : List Nat
  lowRun : Nat
  floorPosted : Bool
  throttling : List Bool
  memHot : List Bool
  selftestOk : List Unit3
  /-- Tensor dies whose handshake rate has been measured since power-up (R123). -/
  hsSeen : List Nat
  deriving DecidableEq, Repr

/-- The time counter and its references (R415, R416, R576). -/
structure Tim where
  now : Nat
  started : Bool
  timeref : Bool
  refclk : Bool
  deriving DecidableEq, Repr

/-- Memory errors and the effective global share (R201, R209, R213): poisoned lines and Canopy words by address, device
errors not yet found, correctable errors of each channel in this scrub interval, and storms already reported. -/
structure MemErr where
  effG : Nat
  gSet : Bool
  poison : List Nat
  latent : Tab ErrKind
  /-- The symbols of an LPDDR5X line in which errors stand that no read has found (R210). -/
  spots : Tab (List Nat)
  chanCe : Tab Nat
  storms : List Nat
  zeroed : List Nat
  /-- Seconds that the scrub pass in progress of each group spans (R216). -/
  scrubSpan : Tab Nat
  deriving DecidableEq, Repr

/-- An event that has been posted and not yet offered to the rings (R458, R464): code, source, severity, job and the
payload from byte 13. -/
structure Ev where
  code : Nat
  source : Nat
  sev : Nat
  job : Nat
  payload : List Byte
  /-- The ring that this event may not be written to (R465, R472), or `none`. -/
  except : Option Nat
  deriving DecidableEq, Repr

/-- The state of the block. -/
structure State where
  /-- Commands waiting, first in, first out. -/
  pending : List Instr
  /-- Every dictionary object, by index * 256 + subindex; an unlisted one holds its default (R478). -/
  obj : Tab Val
  /-- Device memory by physical address; an unlisted byte reads 0 (R113, R212). The global window is stored under its
  own addresses, since each of its bytes is reached in no other way (R198). -/
  mem : List Host.Cell
  merr : MemErr
  pwr : Pwr
  tim : Tim
  fuses : Fuses
  dict : Dict
  rings : Tab Ring
  dies : List Die
  queues : Tab DQ
  coh : Coh
  harts : Tab Hart
  fab : Fab
  /-- Staging SRAM of LU0 and LU1, by offset (R305, R357). -/
  staging : List (Tab Byte)
  /-- Results of REDUCEs that staging SRAM holds: landing unit, job, offset and bytes (R357). -/
  stageResults : List (Nat × Nat × Nat × Nat)
  jobs : Tab Job
  hst : Hst
  /-- Plain words stored by the control window's and BAR0's registers that no command gives an effect. -/
  ctl : Tab Nat
  /-- MODEL'S OWN: the count of free values drawn so far (R13). -/
  free : Nat
  out : List Out
  /-- Events posted inside the step and not yet offered to the rings; empty between steps (R464). -/
  evq : List Ev
  deriving DecidableEq, Repr

/-- Why a step stops. -/
inductive Fault where
  /-- A command names a unit that the package does not have (die 9, ring 64). Raised by the meaning of every command
  with a unit number, through `forUnit`. Safe: no such command exists on the hardware. -/
  | noSuchUnit
  deriving DecidableEq, Repr

/-- Why a command has no meaning. -/
inductive Refusal where
  /-- The command has no meaning yet; raised by its arm of `exec`. Safe: the model stops where the hardware goes on. -/
  | notModelled (mnemonic : String)
  deriving DecidableEq, Repr

/-- A disabled, empty descriptor queue. -/
def DQ.init : DQ :=
  { prod := 0, cons := 0, taken := 0, retired := 0, completions := 0, order := [], resetting := false,
    asked := false }

/-- A tensor die whose uncore has just powered up: ISN starts at 1 (R137). -/
def Die.init : Die :=
  { nextIsn := 1, round := [], ops := [], tiles := [], stageBase := 0, vecBase := 0, sramErr := [], notices := [], pool := [], chains := [], testing := false }

/-- No line cached, no entry, no message. -/
def Coh.init : Coh :=
  { dir := [], txns := [], waiting := [], caches := [], msgs := [], resv := [], pred := [], lostLog := [], predSeen := [], waits := [],
    result := [], lost := [], delivered := [], performed := 0, watching := [], l1d := [], l1i := [], l2 := [], denied := [] }

/-- A hart that has not run: M-mode, as RISC-V resets it, with every register 0. DESIGN CHOICE: log entry 7. -/
def Hart.init : Hart :=
  { pc := 0, x := [], f := [], v := [], csr := [], mode := 3, virt := false, arg := 0, mtimecmp := 0, stimecmp := 0, vstimecmp := 0, timerM := false,
    timerS := false, timerVs := false, files := [], enabled := [], delivery := [], threshold := [] }

/-- A port before its first training: HOP_SEQ 0 (R290) and the credits of empty buffers at the other end (R268). -/
def Port.init : Port :=
  { rxNext := 0, rxDiscard := false, txNext := 0, unacked := [], credits := [1024, 1024, 4096, 256],
    rx := [[], [], [], []], tx := [[], [], [], []], ident := none, cmisOk := false, trained := false, sent0 := 0,
    sent2 := 0 }

/-- No port trained, no request outstanding. -/
def Fab.init : Fab :=
  { ports := [], localq := [], remotes := [], nextTag := 0, staleSeen := [], taken := [] }

/-- No descriptor read. -/
def Desc.init : Desc :=
  { jobId := 0, kind := 0, device := 0, epoch := 0, dieMask := 0, spareDieMask := 0, slotMask := 0, journalA := 0,
    journalB := 0, journalShadow := 0, journalLog2 := 0, teacherTable := 0, teacherCount := 0, retainBase := 0,
    retainBytes := 0, stage := 0, stages := 0, mbInflight := 0 }

/-- A coordinator task with nothing gathered. -/
def Coord.init : Coord :=
  { stems := [], listed := none, list := [], norms := [], clipped := [], reports := [], dead := [], plan := [],
    planned := false, readies := [], parts := [], prisms := [], replaced := [], acting := false, stopped := false,
    nonfinite := [], switchDue := false, prismSent := false, planHashes := [], listsDue := [] }

/-- A front end with nothing accepted. -/
def Front.init : Front :=
  { closed := false, appended := 0, trimmed := 0, records := [], fullLog := false, fullJournal := false,
    delivering := false, nextDeliver := 1, hostOff := 0, hostEnds := [], flushing := none, pages := [], opened := [],
    results := [], logged := [], logEnd := 0 }

/-- A context with no job. -/
def Job.init : Job :=
  { desc := Desc.init, prots := [], topo := none, closedPorts := false, linkEpoch := 0, txSeq := [], rxSeq := [], padded := [],
    badCtrl := 0, inbox := [], sendProd := 0, sendCons := 0, sendStopped := true, sendWait := [], colProd := 0, colls := List.replicate 16 [], colDone := List.replicate 16 0,
    luProd := 0, luCons := 0, luRetired := 0, luOps := [], luVoid := [], watchdog := false, plan := [],
    restoreStep := 0, replaySeq := 0, nsub := 0, accepted := [], replayed := 0, repairDue := none, restoreBad := false,
    rebroadcast := none, splitUsed := false, manifest := [], switching := none, partSent := false, switchOpen := false, tookRank := false, resumed := false,
    lastStep := 0, heard := [], readySent := false, coord := Coord.init, front := Front.init }

/-- A link that is down, every page in shared bias (R434), BAR2 of 64 GiB (R429). PRESUMED: the other registers of the
configuration space as PCI Express resets them (log entry 48). -/
def HLink.init : HLink :=
  { busMaster := false, msixOn := false, msixMask := [], pending := [], bias := [], posted := [], inErrPages := [],
    barUp := false, msixFn := false, bars := [], barCode := 16, aer := 0, hot := false, devCtl := 0x2000,
    ours := [], theirs := [] }

/-- No host access outstanding. DESIGN CHOICE: log entry 5. -/
def Hst.init : Hst :=
  { links := [HLink.init, HLink.init], hring := [], hwritten := [], reads := [], nextRead := 0, mem := [] }

/-- A ring that has lost nothing. -/
def Ring.init : Ring := { lost := 0, firstLost := none, lostSince := 0, lastSeq := 0 }

/-- A closed session. -/
def Sess.init : Sess := { id := 0, rxSeq := none, txSeq := 0, cache := [], key := 0, roots := [], failPosted := false }

/-- An idle channel. DESIGN CHOICE: log entry 5. -/
def Chan.init : Chan := { state := 0, status := 0, trans := 0, len := 0, irq := 0, body := [] }

/-- The dictionary server before the dictionary opens. -/
def Dict.init : Dict :=
  { sess := List.replicate 16 Sess.init, chans := List.replicate 8 Chan.init, plca := [false, false], txq := [],
    closing := [], holdWrites := 0,
    memInit := false, lastStatus := 0, lastBody := [], large := [], chunks := [] }

/-- No board attached: nothing present, the memory absent. DESIGN CHOICE: log entry 4. -/
def Board.none : Board :=
  { vinMv := 0, split := false, timeref := false, refclk := false, iodOk := true, flash := { bytes := [], bad := [] },
    coreFlash := { bytes := [], bad := [] }, boardMem := Option.none }

/-- The package off, with the rest interval over (R579). Capped and thermal values start at 0.80 V (R539).
DESIGN CHOICE: log entry 4. -/
def Pwr.init : Pwr :=
  { en := false, vinMv := 0, on := false, restDone := true, resting := false, latched := 0, latchedSource := 0,
    faulted := false, bstat1 := false, bstat0 := false, board := Board.none, mcSram := [], opened := false, aliasMade := false, identityKey := [], aliasKey := [],
    handoff := none, mcSlot := 4, mcSvn := 0, coreSlot := 4,
    coreSvn := 0, capped := List.replicate 8 800, thermal := List.replicate 8 800, samples := [], lowRun := 0,
    floorPosted := false, throttling := List.replicate 13 false, memHot := List.replicate 8 false, selftestOk := [],
    hsSeen := [] }

/-- The counter at 0, not started (R415, R576). DESIGN CHOICE: log entry 4. -/
def Tim.init : Tim := { now := 0, started := false, timeref := false, refclk := false }

/-- No error, G not yet effective. -/
def MemErr.init : MemErr :=
  { effG := 0, gSet := false, poison := [], latent := [], spots := [], chanCe := [], storms := [], zeroed := [], scrubSpan := [] }

/-- Fuses of a part whose key slots are empty. DESIGN CHOICE: the spec gives no fuse contents (log entry 2). -/
def Fuses.init : Fuses :=
  { keyHash := List.replicate 4 (List.replicate 48 0), revoked := 0, svnMc := 0, svnCore := 0, secret := List.replicate 48 0, rootCert := [],
    deviceCert := [], serial := List.replicate 16 0, macs := List.replicate 2 (List.replicate 6 0) }

/-- The machine before its first power-up: off, every object at its default, nothing in memory, no command waiting
(R478, R506, R512). DESIGN CHOICE: log entries 4, 5 and 8. -/
def State.reset : State :=
  { pending := [], obj := [], mem := [], merr := MemErr.init, pwr := Pwr.init, tim := Tim.init, fuses := Fuses.init,
    dict := Dict.init, rings := [], dies := List.replicate 8 Die.init, queues := [], coh := Coh.init, harts := [],
    fab := Fab.init, staging := [[], []], stageResults := [], jobs := [], hst := Hst.init, ctl := [], free := 0, out := [], evq := [] }

end Sys2Proof.Machine
end

