-- ==== Sys2Proof/Machine/Bits.lean ====
section
/-!
DEFINITION. Machine/Bits.lean: bit fields (R8), little-endian byte lists (R8), sparse tables in canonical form, and
list helpers. Everything here is structural and evaluates.
-/

namespace Sys2Proof.Machine

/-- Bits [hi:lo] of a word (R8). -/
def bits (w hi lo : Nat) : Nat := (w >>> lo) % 2 ^ (hi + 1 - lo)

/-- Bit [i] of a word (R8). -/
def bit (w i : Nat) : Bool := w.testBit i

/-- A Bool as the BOOL code (R476). -/
def b2n (b : Bool) : Nat := if b then 1 else 0

/-- `w` with bit i given the value b. -/
def setBit (w i : Nat) (b : Bool) : Nat :=
  if bit w i == b then w else if b then w + 2 ^ i else w - 2 ^ i

/-- The number a little-endian byte list holds (R8). -/
def leNat : List Byte → Nat
  | [] => 0
  | b :: r => b.toNat + 256 * leNat r

/-- The n low bytes of a number, little-endian (R8). -/
def leBytes : Nat → Nat → List Byte
  | 0, _ => []
  | n + 1, v => BitVec.ofNat 8 v :: leBytes n (v / 256)

/-- The number a big-endian byte list holds (R343, R515). -/
def beNat (l : List Byte) : Nat := l.foldl (fun a b => a * 256 + b.toNat) 0

/-- n bytes of a byte list from an offset; bytes beyond its end read 0. -/
def sliceOf (l : List Byte) (off n : Nat) : List Byte :=
  let t := (l.drop off).take n
  t ++ List.replicate (n - t.length) 0

/-- The n-byte little-endian field at an offset of a byte list. -/
def fieldOf (l : List Byte) (off n : Nat) : Nat := leNat ((l.drop off).take n)

/-- All bytes of a range of a byte list are 0 (reserved fields, R8 and R9). -/
def zeroRange (l : List Byte) (off n : Nat) : Bool := ((l.drop off).take n).all (· == 0)

/-- A byte list padded with zeros to a length. -/
def padTo (l : List Byte) (n : Nat) : List Byte := l ++ List.replicate (n - l.length) 0

/-- Round up to a multiple. -/
def roundUp (n m : Nat) : Nat := (n + m - 1) / m * m

/-- Round up the quotient. -/
def ceilDiv (n m : Nat) : Nat := (n + m - 1) / m

/-- What key k holds in a sparse table whose unlisted keys read d. -/
def tget {α : Type} (d : α) (k : Nat) : Tab α → α
  | [] => d
  | (k', v) :: r => if k = k' then v else if k < k' then d else tget d k r

/-- A sparse table with key k holding v, in canonical form. -/
def tset {α : Type} [DecidableEq α] (d : α) (k : Nat) (v : α) : Tab α → Tab α
  | [] => if v = d then [] else [(k, v)]
  | (k', v') :: r =>
    if k < k' then (if v = d then (k', v') :: r else (k, v) :: (k', v') :: r)
    else if k = k' then (if v = d then r else (k, v) :: r)
    else (k', v') :: tset d k v r

/-- What key k holds in a sparse table, if it is listed. -/
def tfind {α : Type} (k : Nat) : Tab α → Option α
  | [] => none
  | (k', v) :: r => if k = k' then some v else if k < k' then none else tfind k r

/-- A sparse table with key k listed as v, whatever v is. -/
def tput {α : Type} (k : Nat) (v : α) : Tab α → Tab α
  | [] => [(k, v)]
  | (k', v') :: r =>
    if k < k' then (k, v) :: (k', v') :: r else if k = k' then (k, v) :: r else (k', v') :: tput k v r

/-- A sparse table without key k. -/
def tdel {α : Type} (k : Nat) (t : Tab α) : Tab α := t.filter (fun e => !(e.1 == k))

/-- Canonical form from a lower bound on: keys at or above it, strictly rising, no entry equal to the default. -/
def twfFrom {α : Type} [DecidableEq α] (d : α) (lo : Nat) : Tab α → Bool
  | [] => true
  | (k, v) :: r => decide (lo ≤ k) && decide (v ≠ d) && twfFrom d (k + 1) r

/-- Canonical form of a sparse table. -/
def twf {α : Type} [DecidableEq α] (d : α) (t : Tab α) : Bool := twfFrom d 0 t

/-- Keys strictly rising, from a lower bound on. -/
def tsortedFrom {α : Type} (lo : Nat) : Tab α → Bool
  | [] => true
  | (k, _) :: r => decide (lo ≤ k) && tsortedFrom (k + 1) r

/-- Keys strictly rising. -/
def tsorted {α : Type} (t : Tab α) : Bool := tsortedFrom 0 t

/-- A table with every key that fails the test removed. -/
def tkeep {α : Type} (p : Nat → Bool) (t : Tab α) : Tab α := t.filter (fun e => p e.1)

/-- Element i of a list, or d. -/
def lget {α : Type} (d : α) (l : List α) (i : Nat) : α := l.getD i d

/-- A byte list with the bytes of another put in place from an offset on; what falls beyond its end is dropped. -/
def spliceOf (l : List Byte) (off : Nat) (b : List Byte) : List Byte :=
  (l.take off ++ b ++ l.drop (off + b.length)).take l.length

/-- Merge two byte lists under a mask: bit i of the mask takes byte i of the second. -/
def mergeMask (mask : Nat) : List Byte → List Byte → List Byte
  | a :: r, b :: t => (if mask % 2 = 1 then b else a) :: mergeMask (mask / 2) r t
  | l, _ => l

/-- A list with element i replaced. -/
def lset {α : Type} (l : List α) (i : Nat) (v : α) : List α := l.set i v

/-- Insert a number into a strictly rising list. -/
def insNat (n : Nat) : List Nat → List Nat
  | [] => [n]
  | m :: r => if n < m then n :: m :: r else if n = m then m :: r else m :: insNat n r

/-- The numbers lo, lo + 1, up to lo + n - 1. -/
def upTo (lo n : Nat) : List Nat := (List.range n).map (lo + ·)

/-- The difference of two 32-bit counts, modulo 2^32 (R135, R472). -/
def sub32 (a b : Nat) : Nat := (2 ^ 32 + a - b % 2 ^ 32) % 2 ^ 32

/-- The sum of two 32-bit counts, modulo 2^32 (R472). -/
def add32 (a b : Nat) : Nat := (a + b) % 2 ^ 32

/-- How a received sequence number stands to the expected one (R270). -/
inductive SeqCmp where
  | expected | later | earlier
  deriving DecidableEq, Repr

/-- Serial-number comparison of width n; exactly half the space away is earlier (R270). -/
def seqCmp (n received expected : Nat) : SeqCmp :=
  let d := (received + 2 ^ n - expected % 2 ^ n) % 2 ^ n
  if d = 0 then .expected else if d < 2 ^ (n - 1) then .later else .earlier

/-- A 32-bit wait is met: (v - want) mod 2^32 below 2^31 (R138). -/
def waitMet (v want : Nat) : Bool := sub32 v want < 2 ^ 31

/-- The membership epoch that follows e (R392). -/
def nextEpoch (e : Nat) : Nat := if e = 0xFFFF then 1 else e + 1

/-- How many bits of a mask of n bits are 1. -/
def popCount (w : Nat) : Nat → Nat
  | 0 => 0
  | n + 1 => popCount w n + (if bit w n then 1 else 0)

/-- The positions of the 1 bits of a mask of n bits, ascending. -/
def bitList (w n : Nat) : List Nat := (List.range n).filter (bit w ·)

/-- The mask with the bits of a list set. -/
def maskOf (l : List Nat) : Nat := l.foldl (fun m i => setBit m i true) 0

end Sys2Proof.Machine
end

