-- ==== Sys2Proof/Machine/DictTable.lean ====
section
/-!
DEFINITION. Machine/DictTable.lean: the object dictionary as the tables of the manual list it (R10, R15, R123, R156,
R192, R221, R260, R295, R325, R364, R403, R423, R455, R473, R503, R531 to R533, R554, R569 and the counter tables).
-/

namespace Sys2Proof.Machine

/-- One row of an object table: index range, subindex range, name, type code and size in bytes (R476), access (0 RO,
1 RW, 2 WO, 3 RWI), kind of default (0 fixed, 1 determined at boot, 2 none) and the fixed default (R483). -/
structure ObjRow where
  ilo : Nat
  ihi : Nat
  slo : Nat
  shi : Nat
  name : String
  type : Nat
  size : Nat
  access : Nat
  dkind : Nat
  default : Nat
  deriving DecidableEq, Repr

/-- Objects 0x1000 to 0x1002 (R531). -/
def objRows0 : List ObjRow := [
  ⟨0x1000, 0x1000, 1, 1, "ID_ORDERING_CODE", 9, 16, 0, 0, 0⟩,
  ⟨0x1000, 0x1000, 2, 2, "ID_STEPPING", 2, 1, 0, 0, 0xB0⟩,
  ⟨0x1000, 0x1000, 3, 3, "ID_SERIAL", 9, 16, 0, 1, 0⟩,
  ⟨0x1000, 0x1000, 4, 4, "ID_PCI_VENDOR", 3, 2, 0, 0, 0x1F4B⟩,
  ⟨0x1000, 0x1000, 5, 5, "ID_PCI_DEVICE", 3, 2, 0, 0, 0xA08⟩,
  ⟨0x1001, 0x1001, 1, 1, "ID_DEVICE_CERT", 11, 0, 0, 1, 0⟩,
  ⟨0x1001, 0x1001, 2, 2, "ID_DEVICE_CERT_HASH", 10, 48, 0, 1, 0⟩,
  ⟨0x1001, 0x1001, 3, 3, "ID_ROOT_CERT", 11, 0, 0, 1, 0⟩,
  ⟨0x1001, 0x1001, 4, 4, "ID_ALIAS_CERT", 11, 0, 0, 1, 0⟩,
  ⟨0x1002, 0x1002, 1, 1, "ID_MC_FW_VERSION", 4, 4, 0, 1, 0⟩,
  ⟨0x1002, 0x1002, 2, 2, "ID_MC_FW_BANK", 2, 1, 0, 1, 0⟩,
  ⟨0x1002, 0x1002, 3, 3, "ID_MC_FW_DIGEST", 10, 48, 0, 1, 0⟩,
  ⟨0x1002, 0x1002, 4, 4, "ID_CORE_FW_VERSION", 4, 4, 0, 0, 0⟩,
  ⟨0x1002, 0x1002, 5, 5, "ID_CORE_FW_BANK", 2, 1, 0, 0, 0xFF⟩,
  ⟨0x1002, 0x1002, 6, 6, "ID_CORE_FW_DIGEST", 10, 48, 0, 0, 0⟩]

/-- Objects 0x1100 to 0x1123 (R503). -/
def objRows1 : List ObjRow := [
  ⟨0x1100, 0x1100, 1, 1, "DICT_REVISION", 3, 2, 0, 0, 1⟩,
  ⟨0x1101, 0x1101, 1, 1, "DICT_REPLAY_DONE", 1, 1, 1, 0, 0⟩,
  ⟨0x1101, 0x1101, 2, 2, "DICT_HOLD_MS", 4, 4, 1, 0, 0x7D0⟩,
  ⟨0x1101, 0x1101, 3, 3, "DICT_HOLD_STATE", 2, 1, 0, 0, 1⟩,
  ⟨0x1101, 0x1101, 4, 4, "DICT_CONFIG_TAG", 10, 48, 1, 0, 0⟩,
  ⟨0x1102, 0x1102, 1, 1, "DICT_PATH_WRITE", 2, 1, 1, 0, 7⟩,
  ⟨0x1110, 0x1110, 1, 2, "CAMIP_ENABLE", 1, 1, 1, 0, 1⟩,
  ⟨0x1111, 0x1111, 1, 2, "CAMIP_NODE_ID", 2, 1, 3, 1, 0⟩,
  ⟨0x1112, 0x1112, 1, 2, "CAMIP_PLCA_TO", 2, 1, 3, 0, 0x20⟩,
  ⟨0x1113, 0x1113, 1, 2, "CAMIP_PLCA_BURST", 3, 2, 3, 0, 0x80⟩,
  ⟨0x1114, 0x1114, 1, 1, "CAMIP_ETHERTYPE", 3, 2, 3, 0, 0x88B5⟩,
  ⟨0x1115, 0x1115, 1, 2, "CAMIP_MAC", 10, 6, 0, 1, 0⟩,
  ⟨0x1116, 0x1116, 1, 2, "CAMIP_STATE", 2, 1, 0, 0, 0⟩,
  ⟨0x1117, 0x1117, 1, 1, "CAMIP_NOTIFY_REPEAT_MS", 3, 2, 1, 0, 0x64⟩,
  ⟨0x1118, 0x1118, 1, 1, "CAMIP_SESSION_IDLE_S", 3, 2, 1, 0, 0x258⟩,
  ⟨0x1120, 0x1120, 1, 0x10, "CAMIP_SESSION_STATE", 2, 1, 0, 0, 0⟩,
  ⟨0x1121, 0x1121, 1, 0x10, "CAMIP_SESSION_PORT", 2, 1, 0, 0, 0xFF⟩,
  ⟨0x1122, 0x1122, 1, 0x10, "CAMIP_SESSION_PEER", 10, 6, 0, 0, 0⟩,
  ⟨0x1123, 0x1123, 1, 0x10, "CAMIP_SESSION_CLOSE", 1, 1, 2, 2, 0⟩]

/-- Objects 0x2000 to 0x2011 (R554). -/
def objRows2 : List ObjRow := [
  ⟨0x2000, 0x2000, 1, 1, "PWR_INPUT_V", 8, 4, 0, 2, 0⟩,
  ⟨0x2000, 0x2000, 2, 2, "PWR_INPUT_A", 8, 4, 0, 2, 0⟩,
  ⟨0x2000, 0x2000, 3, 3, "PWR_INPUT_W", 8, 4, 0, 2, 0⟩,
  ⟨0x2000, 0x2000, 4, 4, "PWR_INPUT_W_PEAK", 8, 4, 1, 0, 0⟩,
  ⟨0x2001, 0x2001, 1, 1, "PWR_LIMIT_SET", 3, 2, 1, 0, 0x578⟩,
  ⟨0x2001, 0x2001, 2, 2, "PWR_LIMIT_W", 3, 2, 0, 1, 0⟩,
  ⟨0x2001, 0x2001, 3, 3, "PWR_CAP_ACTIVE", 1, 1, 0, 0, 0⟩,
  ⟨0x2001, 0x2001, 4, 4, "PWR_COOLING_CLASS", 2, 1, 0, 1, 0⟩,
  ⟨0x2002, 0x2002, 1, 8, "PWR_RAIL_TARGET_MV", 3, 2, 1, 1, 0⟩,
  ⟨0x2003, 0x2003, 1, 8, "PWR_RAIL_MV", 3, 2, 0, 2, 0⟩,
  ⟨0x2004, 0x2004, 1, 0xD, "PWR_TJ", 8, 4, 0, 2, 0⟩,
  ⟨0x2005, 0x2005, 1, 1, "PWR_TJ_THROTTLE", 2, 1, 1, 1, 0⟩,
  ⟨0x2006, 0x2006, 1, 1, "PWR_MEMGRP_ENABLE", 2, 1, 3, 0, 0xFF⟩,
  ⟨0x2006, 0x2006, 2, 2, "PWR_LD_ENABLE", 2, 1, 3, 0, 3⟩,
  ⟨0x2010, 0x2010, 1, 0x50, "PWR_DOMAIN_STATE", 2, 1, 0, 0, 0⟩,
  ⟨0x2011, 0x2011, 1, 1, "PWR_LAST_FAULT", 4, 4, 0, 1, 0⟩]

/-- Objects 0x2400 to 0x2410 (R221). -/
def objRows3 : List ObjRow := [
  ⟨0x2400, 0x2400, 1, 1, "MEM_GROUP_PRESENT", 2, 1, 0, 1, 0⟩,
  ⟨0x2401, 0x2401, 1, 8, "MEM_STATE", 2, 1, 0, 0, 0⟩,
  ⟨0x2402, 0x2402, 1, 1, "MEM_RATE", 3, 2, 3, 0, 0x2580⟩,
  ⟨0x2403, 0x2403, 1, 1, "MEM_GLOBAL_SHARE", 2, 1, 3, 0, 8⟩,
  ⟨0x2404, 0x2404, 1, 1, "MEM_INIT_START", 1, 1, 2, 2, 0⟩,
  ⟨0x2405, 0x2405, 1, 1, "MEM_SCRUB_S", 4, 4, 1, 0, 0x15180⟩,
  ⟨0x2406, 0x2406, 1, 1, "MEM_CE_STORM_LIMIT", 4, 4, 1, 0, 0x3E8⟩,
  ⟨0x2407, 0x2407, 1, 8, "MEM_MR4_RATE", 2, 1, 0, 0, 0⟩,
  ⟨0x2408, 0x2408, 1, 1, "MEM_LAST_UE", 5, 8, 0, 0, 0⟩,
  ⟨0x2410, 0x2410, 1, 1, "MEM_LOCAL_SIZE", 5, 8, 0, 2, 0⟩,
  ⟨0x2410, 0x2410, 2, 2, "MEM_GLOBAL_BASE", 5, 8, 0, 0, 0x10000000000⟩,
  ⟨0x2410, 0x2410, 3, 3, "MEM_GLOBAL_SIZE", 5, 8, 0, 2, 0⟩,
  ⟨0x2410, 0x2410, 4, 4, "MEM_CANOPY_BASE", 5, 8, 0, 0, 0x20000000000⟩,
  ⟨0x2410, 0x2410, 5, 5, "MEM_CTRL_BASE", 5, 8, 0, 0, 0x30000000000⟩]

/-- Objects 0x2800 to 0x2812 (R260). -/
def objRows4 : List ObjRow := [
  ⟨0x2800, 0x2800, 1, 8, "COH_STATE", 2, 1, 0, 0, 0⟩,
  ⟨0x2801, 0x2801, 1, 1, "COH_HOME_ENABLE", 2, 1, 1, 0, 0⟩,
  ⟨0x2802, 0x2802, 1, 1, "COH_ATOMIC_MODE", 2, 1, 1, 0, 0⟩,
  ⟨0x2802, 0x2802, 2, 2, "COH_ATOMIC_MODE_EFF", 2, 1, 0, 0, 2⟩,
  ⟨0x2803, 0x2803, 1, 1, "COH_PRED_THRESHOLD", 2, 1, 1, 0, 2⟩,
  ⟨0x2804, 0x2804, 1, 1, "COH_DIR_ENTRIES", 4, 4, 0, 0, 0x200000⟩,
  ⟨0x2810, 0x2810, 1, 0x10, "COH_HINT_BASE", 5, 8, 1, 0, 0⟩,
  ⟨0x2811, 0x2811, 1, 0x10, "COH_HINT_SIZE", 5, 8, 1, 0, 0⟩,
  ⟨0x2812, 0x2812, 1, 0x10, "COH_HINT_TARGET", 2, 1, 1, 0, 0xF⟩]

/-- Objects 0x2C00 to 0x2C23 (R455). -/
def objRows5 : List ObjRow := [
  ⟨0x2C00, 0x2C00, 1, 1, "HST_LINK_MODE", 2, 1, 0, 1, 0⟩,
  ⟨0x2C01, 0x2C01, 1, 2, "HST_LINK_STATE", 2, 1, 0, 0, 0⟩,
  ⟨0x2C02, 0x2C02, 1, 2, "HST_LINK_SPEED", 2, 1, 0, 0, 0⟩,
  ⟨0x2C03, 0x2C03, 1, 2, "HST_LINK_WIDTH", 2, 1, 0, 0, 0⟩,
  ⟨0x2C04, 0x2C04, 1, 2, "HST_ATTACH_GEN", 4, 4, 0, 0, 0⟩,
  ⟨0x2C05, 0x2C05, 1, 2, "HST_ATTACH_ID", 4, 4, 0, 0, 0⟩,
  ⟨0x2C06, 0x2C06, 1, 1, "HST_HOST_SPLIT", 5, 8, 3, 0, 0x400000000000⟩,
  ⟨0x2C07, 0x2C07, 1, 2, "HST_BAR2_BASE", 5, 8, 3, 0, 0⟩,
  ⟨0x2C08, 0x2C08, 1, 2, "HST_BAR2_SIZE", 5, 8, 0, 0, 0x1000000000⟩,
  ⟨0x2C09, 0x2C09, 1, 1, "HST_CPL_TIMEOUT_MS", 2, 1, 1, 0, 0x10⟩,
  ⟨0x2C0A, 0x2C0A, 1, 1, "HST_TX_RO", 1, 1, 1, 0, 1⟩,
  ⟨0x2C0B, 0x2C0B, 1, 2, "HST_BIAS_CMD", 5, 8, 2, 2, 0⟩,
  ⟨0x2C0C, 0x2C0C, 1, 2, "HST_BIAS_DONE", 4, 4, 0, 0, 0⟩,
  ⟨0x2C20, 0x2C20, 1, 0x10, "HST_DLOG_CTRL", 5, 8, 3, 0, 0⟩,
  ⟨0x2C21, 0x2C21, 1, 0x10, "HST_DLOG_LINK", 2, 1, 3, 0, 0xFF⟩,
  ⟨0x2C22, 0x2C22, 1, 0x10, "HST_DLOG_RING", 5, 8, 3, 0, 0x1E⟩,
  ⟨0x2C23, 0x2C23, 1, 0x10, "HST_DLOG_ACK", 5, 8, 2, 2, 0⟩]

/-- Objects 0x3000 to 0x3024 (R295). -/
def objRows6 : List ObjRow := [
  ⟨0x3000, 0x3000, 1, 1, "FAB_PORT_ENABLE", 4, 4, 1, 0, 0xFFFFFF⟩,
  ⟨0x3001, 0x3001, 1, 0x18, "FAB_PORT_STATE", 2, 1, 0, 0, 0⟩,
  ⟨0x3002, 0x3002, 1, 0x18, "FAB_PORT_MEDIA", 2, 1, 0, 0, 0⟩,
  ⟨0x3003, 0x3003, 1, 0x18, "FAB_PORT_EXPECT", 5, 8, 1, 0, 0⟩,
  ⟨0x3004, 0x3004, 1, 0x18, "FAB_PORT_EXPECT_PORT", 2, 1, 1, 0, 0xFF⟩,
  ⟨0x3005, 0x3005, 1, 0x18, "FAB_PEER_COORD", 5, 8, 0, 0, 0⟩,
  ⟨0x3006, 0x3006, 1, 0x18, "FAB_PEER_PORT", 2, 1, 0, 0, 0xFF⟩,
  ⟨0x3007, 0x3007, 1, 0x18, "FAB_PEER_SERIAL", 9, 16, 0, 0, 0⟩,
  ⟨0x3008, 0x3008, 1, 0x18, "FAB_PEER_ID_HASH", 10, 48, 0, 0, 0⟩,
  ⟨0x3010, 0x3010, 1, 1, "FAB_OWN_COORD", 5, 8, 0, 1, 0⟩,
  ⟨0x3011, 0x3011, 1, 1, "FAB_RETRY_TIMEOUT_US", 3, 2, 1, 0, 4⟩,
  ⟨0x3012, 0x3012, 1, 1, "FAB_RETRY_LIMIT", 2, 1, 1, 0, 0x10⟩,
  ⟨0x3013, 0x3013, 1, 1, "FAB_REMOTE_TIMEOUT_US", 4, 4, 1, 0, 0x3E8⟩,
  ⟨0x3014, 0x3014, 1, 1, "FAB_STALL_MS", 3, 2, 1, 0, 0x64⟩,
  ⟨0x3015, 0x3015, 1, 1, "FAB_HOP_LIMIT", 2, 1, 1, 0, 0x40⟩,
  ⟨0x3016, 0x3016, 1, 1, "FAB_TRAIN_TIMEOUT_MS", 3, 2, 1, 0, 0x1F4⟩,
  ⟨0x3020, 0x3020, 1, 0x10, "FAB_ROUTE_TABLE", 5, 8, 3, 0, 0⟩,
  ⟨0x3021, 0x3021, 1, 0x10, "FAB_CHAN_TABLE", 5, 8, 3, 0, 0⟩,
  ⟨0x3022, 0x3022, 1, 0x10, "FAB_CHAN_COUNT", 2, 1, 3, 0, 0⟩,
  ⟨0x3023, 0x3023, 1, 0x10, "FAB_SEND_RING", 5, 8, 3, 0, 0⟩,
  ⟨0x3024, 0x3024, 1, 0x10, "FAB_SEND_SHADOW", 5, 8, 3, 0, 0⟩]

/-- Objects 0x3800 to 0x3804 (R325). -/
def objRows7 : List ObjRow := [
  ⟨0x3800, 0x3800, 1, 0x10, "COL_TOPOLOGY", 5, 8, 3, 0, 0⟩,
  ⟨0x3801, 0x3801, 1, 0x10, "COL_QUEUE", 5, 8, 3, 0, 0⟩,
  ⟨0x3802, 0x3802, 1, 0x10, "COL_SHADOW", 5, 8, 3, 0, 0⟩,
  ⟨0x3803, 0x3803, 1, 0x10, "COL_PATH_STATE", 4, 4, 0, 0, 0⟩,
  ⟨0x3804, 0x3804, 1, 0x10, "COL_QUEUE_CONS", 4, 4, 0, 0, 0⟩]

/-- Objects 0x3805 to 0x3813 (R364). -/
def objRows8 : List ObjRow := [
  ⟨0x3805, 0x3805, 1, 0x10, "COL_LAYER_TABLE", 5, 8, 3, 0, 0⟩,
  ⟨0x3806, 0x3806, 1, 0x10, "COL_LAYER_COUNT", 3, 2, 3, 0, 0⟩,
  ⟨0x3807, 0x3807, 1, 0x10, "COL_LU_QUEUE", 5, 8, 3, 0, 0⟩,
  ⟨0x3808, 0x3808, 1, 0x10, "COL_LU_SHADOW", 5, 8, 3, 0, 0⟩,
  ⟨0x3809, 0x3809, 1, 0x10, "COL_CTRL_RING", 5, 8, 3, 0, 0⟩,
  ⟨0x380A, 0x380A, 1, 0x10, "COL_CTRL_COUNT", 5, 8, 3, 0, 0⟩,
  ⟨0x380B, 0x380B, 1, 0x10, "COL_COORD_DEV", 3, 2, 3, 0, 0⟩,
  ⟨0x380C, 0x380C, 1, 0x10, "COL_QUORUM", 3, 2, 3, 0, 1⟩,
  ⟨0x380D, 0x380D, 1, 0x10, "COL_STRAGGLER_US", 4, 4, 1, 0, 0x7D0⟩,
  ⟨0x380E, 0x380E, 1, 0x10, "COL_NONFINITE_POLICY", 2, 1, 3, 0, 0⟩,
  ⟨0x380F, 0x380F, 1, 0x10, "COL_WINDFALL", 2, 1, 3, 0, 0⟩,
  ⟨0x3810, 0x3810, 1, 0x10, "COL_CLIP_MAX", 8, 4, 3, 0, 0⟩,
  ⟨0x3811, 0x3811, 1, 2, "COL_LU_MOMENT_MIB", 2, 1, 3, 0, 0x30⟩,
  ⟨0x3812, 0x3812, 1, 0x10, "COL_LU_QUEUE_STATE", 4, 4, 0, 0, 0⟩,
  ⟨0x3813, 0x3813, 1, 0x10, "COL_CTRL_PATH", 2, 1, 3, 0, 0⟩]

/-- Objects 0x3C00 to 0x3C09 (R123). -/
def objRows9 : List ObjRow := [
  ⟨0x3C00, 0x3C00, 1, 1, "TNS_DIE_PRESENT", 2, 1, 0, 1, 0⟩,
  ⟨0x3C00, 0x3C00, 2, 2, "TNS_DIE_ENABLE", 2, 1, 3, 1, 0⟩,
  ⟨0x3C01, 0x3C01, 1, 8, "TNS_QUAD_ENABLE", 2, 1, 3, 0, 0xF⟩,
  ⟨0x3C02, 0x3C02, 1, 8, "TNS_HS_RATE", 8, 4, 0, 2, 0⟩,
  ⟨0x3C03, 0x3C03, 1, 8, "TNS_HS_RATE_MIN", 8, 4, 0, 2, 0⟩,
  ⟨0x3C04, 0x3C04, 1, 8, "TNS_VEC_MODE_FORCE", 2, 1, 1, 0, 0⟩,
  ⟨0x3C05, 0x3C05, 1, 8, "TNS_FLAG_EVENT", 2, 1, 1, 0, 0⟩,
  ⟨0x3C06, 0x3C06, 1, 8, "TNS_CANOPY_ENABLE", 1, 1, 3, 0, 1⟩,
  ⟨0x3C07, 0x3C07, 1, 8, "TNS_CANOPY_SCRUB_MS", 4, 4, 1, 0, 0xEA60⟩,
  ⟨0x3C08, 0x3C08, 1, 1, "TNS_SELFTEST_START", 2, 1, 2, 2, 0⟩,
  ⟨0x3C09, 0x3C09, 1, 8, "TNS_SELFTEST_RESULT", 4, 4, 0, 0, 0⟩]

/-- Objects 0x3C10 to 0x3C45 (R156). -/
def objRows10 : List ObjRow := [
  ⟨0x3C10, 0x3C17, 1, 0x20, "TNS_DQ_RING", 5, 8, 3, 0, 0⟩,
  ⟨0x3C18, 0x3C1F, 1, 0x20, "TNS_CQ_RING", 5, 8, 3, 0, 0⟩,
  ⟨0x3C20, 0x3C27, 1, 0x20, "TNS_DQ_SHADOW", 5, 8, 3, 0, 0⟩,
  ⟨0x3C28, 0x3C2F, 1, 0x20, "TNS_DQ_CTRL", 4, 4, 1, 0, 0⟩,
  ⟨0x3C30, 0x3C37, 1, 0x20, "TNS_DQ_STATUS", 4, 4, 0, 0, 0⟩,
  ⟨0x3C38, 0x3C38, 1, 1, "TNS_DQ_RESET", 3, 2, 2, 2, 0⟩,
  ⟨0x3C40, 0x3C40, 1, 0x20, "TNS_SLOT_BIND", 2, 1, 1, 0, 0⟩,
  ⟨0x3C41, 0x3C41, 1, 0x20, "TNS_SLOT_DESC", 5, 8, 1, 0, 0⟩,
  ⟨0x3C42, 0x3C42, 1, 0x20, "TNS_SLOT_INFLIGHT", 3, 2, 0, 0, 0⟩,
  ⟨0x3C43, 0x3C43, 1, 0x10, "TNS_KV_POOL", 5, 8, 3, 0, 0⟩,
  ⟨0x3C44, 0x3C44, 1, 0x10, "TNS_KV_POOL_COUNT", 4, 4, 3, 0, 0⟩,
  ⟨0x3C45, 0x3C45, 1, 0x10, "TNS_KV_PAGE_BYTES", 4, 4, 3, 0, 0x10000⟩]

/-- Objects 0x3C50 to 0x3C69 (R192). -/
def objRows11 : List ObjRow := [
  ⟨0x3C50, 0x3C57, 1, 0x10, "TNS_STASH_REGION", 5, 8, 3, 0, 0⟩,
  ⟨0x3C58, 0x3C5F, 1, 0x10, "TNS_STASH_POOL_USED", 5, 8, 0, 0, 0⟩,
  ⟨0x3C60, 0x3C67, 1, 0x10, "TNS_STASH_POOL_PEAK", 5, 8, 1, 0, 0⟩,
  ⟨0x3C68, 0x3C68, 1, 0x10, "TNS_WPLACE_TABLE", 5, 8, 3, 0, 0⟩,
  ⟨0x3C69, 0x3C69, 1, 0x10, "TNS_WPLACE_COUNT", 4, 4, 3, 0, 0⟩]

/-- Objects 0x4000 to 0x4006 (R403). -/
def objRows12 : List ObjRow := [
  ⟨0x4000, 0x4000, 1, 1, "JOB_DESC", 5, 8, 3, 0, 0⟩,
  ⟨0x4000, 0x4000, 2, 2, "JOB_CTRL", 2, 1, 2, 2, 0⟩,
  ⟨0x4001, 0x4001, 1, 1, "JOB_STATE", 2, 1, 0, 0, 0⟩,
  ⟨0x4001, 0x4001, 2, 2, "JOB_STATUS", 4, 4, 0, 0, 0⟩,
  ⟨0x4001, 0x4001, 3, 3, "JOB_EPOCH", 3, 2, 0, 0, 0⟩,
  ⟨0x4002, 0x4002, 1, 1, "JOB_COORD_PUBKEY", 10, 96, 3, 0, 0⟩,
  ⟨0x4002, 0x4002, 2, 2, "JOB_COORD_STANDBY", 3, 2, 3, 0, 0x3FFF⟩,
  ⟨0x4003, 0x4003, 1, 1, "JOB_HEARTBEAT_MS", 3, 2, 1, 0, 0xA⟩,
  ⟨0x4003, 0x4003, 2, 2, "JOB_DEAD_MS", 3, 2, 1, 0, 0xC8⟩,
  ⟨0x4003, 0x4003, 3, 3, "JOB_WATCHDOG_MS", 4, 4, 1, 0, 0⟩,
  ⟨0x4003, 0x4003, 4, 4, "JOB_KICK", 1, 1, 2, 2, 0⟩,
  ⟨0x4003, 0x4003, 5, 5, "JOB_RESTART_MS", 4, 4, 1, 0, 0x1388⟩,
  ⟨0x4004, 0x4004, 1, 1, "JOB_SWITCH", 1, 1, 2, 2, 0⟩,
  ⟨0x4004, 0x4004, 2, 2, "JOB_PARTNER", 3, 2, 3, 0, 0⟩,
  ⟨0x4005, 0x4005, 1, 1, "JOB_DIE_MAP", 4, 4, 0, 0, 0x76543210⟩,
  ⟨0x4006, 0x4006, 1, 1, "JOB_CKPT_STEP", 5, 8, 0, 0, 0⟩,
  ⟨0x4006, 0x4006, 2, 2, "JOB_CKPT_JSEQ", 5, 8, 0, 0, 0⟩,
  ⟨0x4006, 0x4006, 3, 3, "JOB_LAST_SEQ", 5, 8, 0, 0, 0⟩,
  ⟨0x4006, 0x4006, 4, 4, "JOB_ACKED_SEQ", 5, 8, 0, 0, 0⟩]

/-- Objects 0x4008 to 0x4009 (R569). -/
def objRows13 : List ObjRow := [
  ⟨0x4008, 0x4008, 1, 1, "JOB_JMIRROR_DEV", 3, 2, 3, 0, 0x3FFF⟩,
  ⟨0x4008, 0x4008, 2, 2, "JOB_JMIRROR_BASE", 5, 8, 3, 0, 0⟩,
  ⟨0x4008, 0x4008, 3, 3, "JOB_JMIRROR_STATE", 2, 1, 0, 0, 0⟩,
  ⟨0x4009, 0x4009, 1, 1, "JOB_RESTART_MAX", 2, 1, 1, 0, 8⟩,
  ⟨0x4009, 0x4009, 2, 2, "JOB_RESTARTS_SINCE_CKPT", 2, 1, 0, 0, 0⟩]

/-- Objects 0x5000 to 0x500A (R473). -/
def objRows14 : List ObjRow := [
  ⟨0x5000, 0x5000, 1, 1, "EVT_GLOBAL_ENABLE", 1, 1, 1, 0, 0⟩,
  ⟨0x5001, 0x5001, 1, 0x40, "EVT_RING_ENABLE", 1, 1, 1, 0, 0⟩,
  ⟨0x5002, 0x5002, 1, 0x40, "EVT_RING_BASE", 5, 8, 3, 0, 0⟩,
  ⟨0x5003, 0x5003, 1, 0x40, "EVT_RING_SHADOW", 5, 8, 3, 0, 0⟩,
  ⟨0x5004, 0x5004, 1, 0x40, "EVT_RING_FILTER", 5, 8, 1, 0, 0x9FFF0001FFFF⟩,
  ⟨0x5005, 0x5005, 1, 0x40, "EVT_RING_TARGET", 5, 8, 1, 0, 0⟩,
  ⟨0x5006, 0x5006, 1, 0x40, "EVT_RING_CONS", 3, 2, 1, 0, 0⟩,
  ⟨0x5007, 0x5007, 1, 0x40, "EVT_RING_DONE", 1, 1, 2, 2, 0⟩,
  ⟨0x5008, 0x5008, 1, 0x40, "EVT_RING_STATE", 2, 1, 0, 0, 0⟩,
  ⟨0x5009, 0x5009, 1, 0x40, "EVT_RING_PROD", 3, 2, 0, 0, 0⟩,
  ⟨0x500A, 0x500A, 1, 0x40, "EVT_RING_NEXT_SEQ", 5, 8, 0, 0, 1⟩]

/-- Objects 0x5400 to 0x5406 (R532). -/
def objRows15 : List ObjRow := [
  ⟨0x5400, 0x5400, 1, 1, "SEC_BOOT_STAGE", 2, 1, 0, 0, 1⟩,
  ⟨0x5400, 0x5400, 2, 2, "SEC_BOOT_STATUS", 4, 4, 0, 0, 0⟩,
  ⟨0x5401, 0x5401, 1, 1, "SEC_READY", 1, 1, 2, 2, 0⟩,
  ⟨0x5402, 0x5402, 1, 4, "SEC_KEY_HASH", 10, 48, 0, 1, 0⟩,
  ⟨0x5403, 0x5403, 1, 1, "SEC_KEY_REVOKED", 2, 1, 0, 1, 0⟩,
  ⟨0x5403, 0x5403, 2, 2, "SEC_KEY_REVOKE", 2, 1, 2, 2, 0⟩,
  ⟨0x5404, 0x5404, 1, 2, "SEC_SVN_MIN", 2, 1, 0, 1, 0⟩,
  ⟨0x5404, 0x5404, 3, 3, "SEC_SVN_COMMIT", 2, 1, 2, 2, 0⟩,
  ⟨0x5405, 0x5405, 1, 1, "SEC_DEBUG_LOCKED", 1, 1, 0, 0, 1⟩,
  ⟨0x5406, 0x5406, 1, 4, "SEC_REQ_ROOT", 10, 48, 1, 1, 0⟩]

/-- Objects 0x5840 to 0x5843 (R222). -/
def objRows16 : List ObjRow := [
  ⟨0x5840, 0x5840, 1, 0x20, "CNT_MEM_CE", 5, 8, 0, 0, 0⟩,
  ⟨0x5841, 0x5841, 1, 0x20, "CNT_MEM_UE", 5, 8, 0, 0, 0⟩,
  ⟨0x5842, 0x5842, 1, 8, "CNT_MEM_SCRUB_PASSES", 5, 8, 0, 0, 0⟩,
  ⟨0x5843, 0x5843, 1, 8, "CNT_MEM_PARTIAL_WR", 5, 8, 0, 0, 0⟩]

/-- Objects 0x5850 to 0x5855 (R261). -/
def objRows17 : List ObjRow := [
  ⟨0x5850, 0x5850, 1, 8, "CNT_COH_BACKINV", 5, 8, 0, 0, 0⟩,
  ⟨0x5851, 0x5851, 1, 8, "CNT_COH_WB_IN_FLIGHT", 5, 8, 0, 0, 0⟩,
  ⟨0x5852, 0x5852, 1, 8, "CNT_COH_FAR_ATOMIC", 5, 8, 0, 0, 0⟩,
  ⟨0x5853, 0x5853, 1, 8, "CNT_COH_HINT_PLACED", 5, 8, 0, 0, 0⟩,
  ⟨0x5854, 0x5854, 1, 8, "CNT_COH_HINT_DROPPED", 5, 8, 0, 0, 0⟩,
  ⟨0x5855, 0x5855, 1, 8, "CNT_COH_LOST_LINES", 5, 8, 0, 0, 0⟩]

/-- Objects 0x5860 to 0x5869 (R296). -/
def objRows18 : List ObjRow := [
  ⟨0x5860, 0x5860, 1, 0x18, "CNT_FAB_FEC_CORR", 5, 8, 0, 0, 0⟩,
  ⟨0x5861, 0x5861, 1, 0x18, "CNT_FAB_FEC_UNCORR", 5, 8, 0, 0, 0⟩,
  ⟨0x5862, 0x5862, 1, 0x18, "CNT_FAB_REPLAY", 5, 8, 0, 0, 0⟩,
  ⟨0x5863, 0x5863, 1, 0x18, "CNT_FAB_TX_BYTES", 5, 8, 0, 0, 0⟩,
  ⟨0x5864, 0x5864, 1, 0x18, "CNT_FAB_RX_BYTES", 5, 8, 0, 0, 0⟩,
  ⟨0x5865, 0x5865, 1, 0x19, "CNT_FAB_NO_ROUTE", 5, 8, 0, 0, 0⟩,
  ⟨0x5866, 0x5866, 1, 0x19, "CNT_FAB_MALFORMED", 5, 8, 0, 0, 0⟩,
  ⟨0x5867, 0x5867, 1, 0x19, "CNT_FAB_E2E_CRC", 5, 8, 0, 0, 0⟩,
  ⟨0x5868, 0x5868, 1, 0x10, "CNT_FAB_STALE_EPOCH", 5, 8, 0, 0, 0⟩,
  ⟨0x5869, 0x5869, 1, 0x10, "CNT_FAB_DUP_SEQ", 5, 8, 0, 0, 0⟩]

/-- Objects 0x5870 to 0x5874 (R326). -/
def objRows19 : List ObjRow := [
  ⟨0x5870, 0x5870, 1, 0x10, "CNT_COL_DONE", 5, 8, 0, 0, 0⟩,
  ⟨0x5871, 0x5871, 1, 0x10, "CNT_COL_BLOCKS", 5, 8, 0, 0, 0⟩,
  ⟨0x5872, 0x5872, 1, 0x10, "CNT_COL_RESCALED", 5, 8, 0, 0, 0⟩,
  ⟨0x5873, 0x5873, 1, 0x10, "CNT_COL_POISONED", 5, 8, 0, 0, 0⟩,
  ⟨0x5874, 0x5874, 1, 0x10, "CNT_COL_PRISM_BYTES", 5, 8, 0, 0, 0⟩]

/-- Objects 0x5875 to 0x587B (R365). -/
def objRows20 : List ObjRow := [
  ⟨0x5875, 0x5875, 1, 0x10, "CNT_COL_UPDATES", 5, 8, 0, 0, 0⟩,
  ⟨0x5876, 0x5876, 1, 0x10, "CNT_COL_FALLBACK", 5, 8, 0, 0, 0⟩,
  ⟨0x5877, 0x5877, 1, 0x10, "CNT_COL_VOID", 5, 8, 0, 0, 0⟩,
  ⟨0x5878, 0x5878, 1, 0x10, "CNT_COL_DROPPED", 5, 8, 0, 0, 0⟩,
  ⟨0x5879, 0x5879, 1, 0x10, "CNT_COL_RELEASED", 5, 8, 0, 0, 0⟩,
  ⟨0x587A, 0x587A, 1, 0x10, "CNT_COL_LATE_STEMS", 5, 8, 0, 0, 0⟩,
  ⟨0x587B, 0x587B, 1, 0x10, "CNT_COL_WINDFALL", 5, 8, 0, 0, 0⟩]

/-- Objects 0x5880 to 0x5886 (R404). -/
def objRows21 : List ObjRow := [
  ⟨0x5880, 0x5880, 1, 0x10, "CNT_JOB_FAULTS", 5, 8, 0, 0, 0⟩,
  ⟨0x5881, 0x5881, 1, 0x10, "CNT_JOB_RESTARTS", 5, 8, 0, 0, 0⟩,
  ⟨0x5882, 0x5882, 1, 0x10, "CNT_JOB_REPLAYED", 5, 8, 0, 0, 0⟩,
  ⟨0x5883, 0x5883, 1, 0x10, "CNT_JOB_BAD_SIG", 5, 8, 0, 0, 0⟩,
  ⟨0x5884, 0x5884, 1, 0x10, "CNT_JOB_PLAN_CONFLICT", 5, 8, 0, 0, 0⟩,
  ⟨0x5885, 0x5885, 1, 0x10, "CNT_JOB_FELL_SENT", 5, 8, 0, 0, 0⟩,
  ⟨0x5886, 0x5886, 1, 0x10, "CNT_JOB_JOURNAL_FULL", 5, 8, 0, 0, 0⟩]

/-- Objects 0x5887 to 0x5888 (R570). -/
def objRows22 : List ObjRow := [
  ⟨0x5887, 0x5887, 1, 0x10, "CNT_JOB_MIRROR_BYTES", 5, 8, 0, 0, 0⟩,
  ⟨0x5888, 0x5888, 1, 0x10, "CNT_JOB_JOURNAL_REPAIRED", 5, 8, 0, 0, 0⟩]

/-- Objects 0x5890 to 0x5892 (R424). -/
def objRows23 : List ObjRow := [
  ⟨0x5890, 0x5890, 1, 2, "CNT_SRV_CACHE_CE", 5, 8, 0, 0, 0⟩,
  ⟨0x5891, 0x5891, 1, 2, "CNT_SRV_CACHE_UE", 5, 8, 0, 0, 0⟩,
  ⟨0x5892, 0x5892, 1, 1, "CNT_SRV_TIME_SWITCH", 5, 8, 0, 0, 0⟩]

/-- Objects 0x58A0 to 0x58A5 (R456). -/
def objRows24 : List ObjRow := [
  ⟨0x58A0, 0x58A0, 1, 2, "CNT_HST_DETACH", 5, 8, 0, 0, 0⟩,
  ⟨0x58A1, 0x58A1, 1, 2, "CNT_HST_TX_DROPPED", 5, 8, 0, 0, 0⟩,
  ⟨0x58A2, 0x58A2, 1, 2, "CNT_HST_CPL_TIMEOUT", 5, 8, 0, 0, 0⟩,
  ⟨0x58A3, 0x58A3, 1, 2, "CNT_HST_INBOUND_ERR", 5, 8, 0, 0, 0⟩,
  ⟨0x58A4, 0x58A4, 1, 2, "CNT_HST_FLUSH_READS", 5, 8, 0, 0, 0⟩,
  ⟨0x58A5, 0x58A5, 1, 0x10, "CNT_HST_BAD_ACK", 5, 8, 0, 0, 0⟩]

/-- Objects 0x58B0 to 0x58B2 (R474). -/
def objRows25 : List ObjRow := [
  ⟨0x58B0, 0x58B0, 1, 0x40, "CNT_EVT_WRITTEN", 5, 8, 0, 0, 0⟩,
  ⟨0x58B1, 0x58B1, 1, 0x40, "CNT_EVT_LOST", 5, 8, 0, 0, 0⟩,
  ⟨0x58B2, 0x58B2, 1, 1, "CNT_EVT_UNROUTED", 5, 8, 0, 0, 0⟩]

/-- Objects 0x58C0 to 0x58C6 (R504). -/
def objRows26 : List ObjRow := [
  ⟨0x58C0, 0x58C0, 1, 2, "CNT_CAMIP_RX", 5, 8, 0, 0, 0⟩,
  ⟨0x58C1, 0x58C1, 1, 2, "CNT_CAMIP_TX", 5, 8, 0, 0, 0⟩,
  ⟨0x58C2, 0x58C2, 1, 2, "CNT_CAMIP_AUTH_FAIL", 5, 8, 0, 0, 0⟩,
  ⟨0x58C3, 0x58C3, 1, 2, "CNT_CAMIP_DROPPED", 5, 8, 0, 0, 0⟩,
  ⟨0x58C4, 0x58C4, 1, 2, "CNT_CAMIP_REPEAT", 5, 8, 0, 0, 0⟩,
  ⟨0x58C5, 0x58C5, 1, 3, "CNT_DICT_REFUSED", 5, 8, 0, 0, 0⟩,
  ⟨0x58C6, 0x58C6, 1, 2, "CNT_DICT_MB_DISCARD", 5, 8, 0, 0, 0⟩]

/-- Objects 0x58D0 to 0x58D1 (R555). -/
def objRows27 : List ObjRow := [
  ⟨0x58D0, 0x58D0, 1, 1, "CNT_PWR_CAP_STEPS", 5, 8, 0, 0, 0⟩,
  ⟨0x58D1, 0x58D1, 1, 8, "CNT_PWR_THROTTLE_STEPS", 5, 8, 0, 0, 0⟩]

/-- Objects 0x5900 to 0x5903 (R125). -/
def objRows28 : List ObjRow := [
  ⟨0x5900, 0x5900, 1, 8, "CNT_TNS_CANOPY_CE", 5, 8, 0, 0, 0⟩,
  ⟨0x5901, 0x5901, 1, 8, "CNT_TNS_CANOPY_UE", 5, 8, 0, 0, 0⟩,
  ⟨0x5902, 0x5902, 1, 8, "CNT_TNS_SRAM_CE", 5, 8, 0, 0, 0⟩,
  ⟨0x5903, 0x5903, 1, 8, "CNT_TNS_SRAM_UE", 5, 8, 0, 0, 0⟩]

/-- Objects 0x5904 to 0x5907 (R157). -/
def objRows29 : List ObjRow := [
  ⟨0x5904, 0x5904, 1, 8, "CNT_TNS_OPS", 5, 8, 0, 0, 0⟩,
  ⟨0x5905, 0x5905, 1, 8, "CNT_TNS_OPS_ERR", 5, 8, 0, 0, 0⟩,
  ⟨0x5906, 0x5906, 1, 8, "CNT_TNS_SB_WAITS", 5, 8, 0, 0, 0⟩,
  ⟨0x5907, 0x5907, 1, 8, "CNT_TNS_DB_DROP", 5, 8, 0, 0, 0⟩]

/-- Objects 0x5908 to 0x590B (R193). -/
def objRows30 : List ObjRow := [
  ⟨0x5908, 0x5908, 1, 8, "CNT_TNS_STASH_BYTES", 5, 8, 0, 0, 0⟩,
  ⟨0x5909, 0x5909, 1, 8, "CNT_TNS_STASH_MARKED", 5, 8, 0, 0, 0⟩,
  ⟨0x590A, 0x590A, 1, 8, "CNT_TNS_REGROW_BYTES", 5, 8, 0, 0, 0⟩,
  ⟨0x590B, 0x590B, 1, 8, "CNT_TNS_STASH_OVERFLOW", 5, 8, 0, 0, 0⟩]

/-- Objects 0x6000 to 0x6004 (R423). -/
def objRows31 : List ObjRow := [
  ⟨0x6000, 0x6000, 1, 1, "SRV_DIE_PRESENT", 2, 1, 0, 1, 0⟩,
  ⟨0x6001, 0x6001, 1, 2, "SRV_CLUSTER_ENABLE", 2, 1, 3, 0, 0xF⟩,
  ⟨0x6002, 0x6002, 1, 0x48, "SRV_HART_STATE", 2, 1, 0, 0, 1⟩,
  ⟨0x6003, 0x6003, 1, 1, "SRV_TIME", 5, 8, 0, 2, 0⟩,
  ⟨0x6003, 0x6003, 2, 2, "SRV_TIME_SOURCE", 2, 1, 0, 2, 0⟩,
  ⟨0x6003, 0x6003, 3, 3, "SRV_TIME_RESELECT", 1, 1, 2, 2, 0⟩,
  ⟨0x6004, 0x6004, 1, 1, "SRV_HANDOFF_ADDR", 5, 8, 0, 2, 0⟩]

/-- Objects 0x7000 to 0x7101 (R533). -/
def objRows32 : List ObjRow := [
  ⟨0x7000, 0x7000, 1, 1, "IDM_BOARD_STATE", 2, 1, 0, 1, 0⟩,
  ⟨0x7000, 0x7000, 2, 2, "IDM_BOARD_RAW", 10, 256, 0, 1, 0⟩,
  ⟨0x7001, 0x7001, 1, 1, "IDM_POWER_LIMIT_W", 3, 2, 0, 1, 0⟩,
  ⟨0x7001, 0x7001, 2, 2, "IDM_COOLING_CLASS", 2, 1, 0, 1, 0⟩,
  ⟨0x7001, 0x7001, 3, 3, "IDM_SLOT", 2, 1, 0, 1, 0⟩,
  ⟨0x7001, 0x7001, 4, 4, "IDM_BACKPLANE_MASK", 4, 4, 0, 1, 0⟩,
  ⟨0x7001, 0x7001, 5, 5, "IDM_BOARD_SERIAL", 9, 16, 0, 1, 0⟩,
  ⟨0x7100, 0x7100, 1, 0x18, "IDM_MODULE_STATE", 2, 1, 0, 0, 0⟩,
  ⟨0x7101, 0x7101, 1, 0x18, "IDM_MODULE_MAP", 10, 384, 0, 0, 0⟩]

/-- The whole dictionary, but for the overflow flags. DESIGN CHOICE: log entries 3, 111. -/
def objRows : List ObjRow :=
  objRows0 ++ objRows1 ++ objRows2 ++ objRows3 ++ objRows4 ++ objRows5 ++ objRows6 ++ objRows7 ++ objRows8 ++ objRows9 ++ objRows10 ++ objRows11 ++ objRows12 ++ objRows13 ++ objRows14 ++ objRows15 ++ objRows16 ++ objRows17 ++ objRows18 ++ objRows19 ++ objRows20 ++ objRows21 ++ objRows22 ++ objRows23 ++ objRows24 ++ objRows25 ++ objRows26 ++ objRows27 ++ objRows28 ++ objRows29 ++ objRows30 ++ objRows31 ++ objRows32

/-- The index that a table lists: those of job n stand at 0x4000 + 0x100 n (R15). -/
def baseIndex (i : Nat) : Nat := if 0x4000 ≤ i ∧ i < 0x5000 then 0x4000 + i % 0x100 else i

/-- The row of an object, if a table lists it. -/
def listedRow (i j : Nat) : Option ObjRow :=
  objRows.find? fun r => r.ilo ≤ baseIndex i && baseIndex i ≤ r.ihi && r.slo ≤ j && j ≤ r.shi

/-- A counter object: CNT_, type U64 (R471). -/
def isCounter (i : Nat) : Bool := 0x5800 ≤ i && i < 0x5C00

/-- The highest subindex in use at an index that holds an object (R475). DEDUCED: log entry 25. -/
def highestSub (i : Nat) : Nat :=
  let b := if 0x5C00 ≤ i ∧ i < 0x6000 then i - 0x400 else baseIndex i
  objRows.foldl (fun m r => if r.ilo ≤ b && b ≤ r.ihi && m < r.shi then r.shi else m) 0

/-- The row of an object: a listed one, an overflow flag (R471), or subindex 0 (R475). -/
def rowOf (i j : Nat) : Option ObjRow :=
  if j = 0 then
    if highestSub i = 0 then none
    else some { ilo := i, ihi := i, slo := 0, shi := 0, name := "", type := 2, size := 1, access := 0, dkind := 0,
                default := highestSub i }
  else if 0x5C00 ≤ i ∧ i < 0x6000 then
    match listedRow (i - 0x400) j with
    | some r => some { ilo := i, ihi := i, slo := r.slo, shi := r.shi, name := r.name ++ "_OVF", type := 1, size := 1,
                       access := 0, dkind := 0, default := 0 }
    | none => none
  else listedRow i j

/-- "HQV8-1400" as STR(16) (R531). -/
def orderingCode : List Byte := padTo [0x48, 0x51, 0x56, 0x38, 0x2D, 0x31, 0x34, 0x30, 0x30] 16

/-- The key of an object in the store. -/
def okey (i j : Nat) : Nat := i * 256 + j

/-- The value an object holds from power-up until its first write (R478); 0 where boot determines it and has not yet
(log entry 3). DEDUCED: log entry 52. -/
def objDefault (k : Nat) : Val :=
  if k = 0x100001 then .bytes orderingCode
  else match rowOf (k / 256) (k % 256) with
    | some r => if 9 ≤ r.type then .bytes (List.replicate r.size 0) else .num r.default
    | none => .num 0

end Sys2Proof.Machine
end

