-- ==== Sys2Proof/Machine/Ops.lean ====
section
/-!
DEFINITION. Machine/Ops.lean: the operations every family shares: the object store, statistics counters (R471),
posting an event (R458 to R461), free values (R13), the die-state tables, and the physical address map (R194 to R202).
-/

namespace Sys2Proof.Machine

/-! ### Objects -/

/-- The value of an object in the store. -/
def State.val (s : State) (i j : Nat) : Val := tget (objDefault (okey i j)) (okey i j) s.obj

/-- The value of a numeric object. -/
def State.num (s : State) (i j : Nat) : Nat :=
  match s.val i j with
  | .num n => n
  | .bytes l => leNat l

/-- The bytes of an object of type STR, OCT or DOM. -/
def State.oct (s : State) (i j : Nat) : List Byte :=
  match s.val i j with
  | .num _ => []
  | .bytes l => l

/-- The state with an object holding v. -/
def State.setVal (s : State) (i j : Nat) (v : Val) : State :=
  { s with obj := tset (objDefault (okey i j)) (okey i j) v s.obj }

/-- The state with a numeric object holding n. -/
def State.setNum (s : State) (i j n : Nat) : State := s.setVal i j (.num n)

/-- The state with an object holding bytes. -/
def State.setOct (s : State) (i j : Nat) (l : List Byte) : State := s.setVal i j (.bytes l)

/-- Index of job j's objects (R15). -/
def jobIx (j k : Nat) : Nat := 0x4000 + 0x100 * j + k

/-! ### Free values -/

/-- A value that the manual leaves open, and the state in which it has been drawn (R13; log entry 1). -/
def State.draw (s : State) : Nat × State := (Config.freeNat s.free, { s with free := s.free + 1 })

/-! ### Events and counters -/

/-- Severity of an event code: 0 INFO, 1 NOTICE, 2 ERROR, 3 FAULT (R461, R505, R534, R556). -/
def severityOf (code : Nat) : Nat :=
  if code ∈ [0x2C01, 0x2C03, 0x3001, 0x3807, 0x380B, 0x3C06, 0x4008, 0x4009, 0x1001, 0x1002, 0x5403] then 0
  else if code ∈ [0x2402, 0x2C02, 0x2C07, 0x3006, 0x3808, 0x3809, 0x3822, 0x3823, 0x3824, 0x3C01, 0x4003, 0x4004, 0x4007,
    0x5002, 0x6002, 0x400C, 0x1004, 0x1005, 0x5404, 0x7002, 0x2001, 0x2003, 0x2005, 0x2006] then 1
  else if code ∈ [0x2401, 0x2C04, 0x2C05, 0x2C06, 0x3002, 0x3003, 0x3004, 0x300A, 0x3801, 0x3805, 0x3C03, 0x3C04, 0x3C05,
    0x4001, 0x4005, 0x4006, 0x5001, 0x5003, 0x5004, 0x6001, 0x1003, 0x5401, 0x7001, 0x2002] then 2
  else 3

/-- SOURCE of R459: kind and instance. -/
def src (kind inst : Nat) : Nat := kind * 256 + inst

/-- Payload fields packed from byte 13, each little-endian, the rest 0 (R460). -/
def payloadOf (fields : List (Nat × Nat)) : List Byte :=
  padTo ((fields.flatMap fun f => leBytes f.1 f.2).take 19) 19

/-- Post an event: it is offered to the rings before the step ends (R464). JOB 0x1F is no job (R458). -/
def postSev (code source sev job : Nat) (fields : List (Nat × Nat)) (s : State) : State :=
  { s with evq := s.evq ++ [{ code := code, source := source, sev := sev, job := job, payload := payloadOf fields,
                              except := none }] }

/-- Post an event with the severity its chapter gives. DEDUCED: log entry 19. -/
def post (code source job : Nat) (fields : List (Nat × Nat)) (s : State) : State :=
  postSev code source (severityOf code) job fields s

/-- The largest value of a 64-bit counter. -/
def max64 : Nat := 2 ^ 64 - 1

/-- Add to a statistics counter: it sticks at its largest value, sets its flag and, if the flag was clear, posts
EVT_CNT_OVERFLOW (R471). -/
def count (i j n : Nat) (s : State) : State :=
  if s.num i j + n ≤ max64 then s.setNum i j (s.num i j + n)
  else
    let s1 := s.setNum i j max64
    if s1.num (i + 0x400) j = 0 then
      post 0x5002 (src 0 0) 0x1F [(2, i), (1, j)] (s1.setNum (i + 0x400) j 1)
    else s1

/-! ### Tensor dies, jobs and queues -/

/-- Tensor die n. -/
def State.die (s : State) (n : Nat) : Die := lget Die.init s.dies n

/-- The state with die n replaced. -/
def State.setDie (s : State) (n : Nat) (d : Die) : State := { s with dies := lset s.dies n d }

/-- Job context j. -/
def State.job (s : State) (j : Nat) : Job := tget Job.init j s.jobs

/-- The state with job context j replaced. -/
def State.setJob (s : State) (j : Nat) (x : Job) : State := { s with jobs := tset Job.init j x s.jobs }

/-- Descriptor queue q of die n (32 queues for each die, R133). -/
def State.queue (s : State) (n q : Nat) : DQ := tget DQ.init (n * 32 + q) s.queues

/-- The state with a descriptor queue replaced. -/
def State.setQueue (s : State) (n q : Nat) (x : DQ) : State :=
  { s with queues := tset DQ.init (n * 32 + q) x s.queues }

/-- JOB_STATE (R368). -/
def State.jobState (s : State) (j : Nat) : Nat := s.num (jobIx j 1) 1

/-- JOB_EPOCH (R392). -/
def State.jobEpoch (s : State) (j : Nat) : Nat := s.num (jobIx j 1) 3

/-- A port's link-layer state. -/
def State.port (s : State) (p : Nat) : Port := tget Port.init p s.fab.ports

/-- The state with a port's link-layer state replaced. -/
def State.setPort (s : State) (p : Nat) (x : Port) : State :=
  { s with fab := { s.fab with ports := tset Port.init p x s.fab.ports } }

/-- Hart h. -/
def State.hart (s : State) (h : Nat) : Hart := tget Hart.init h s.harts

/-- The state with hart h replaced. -/
def State.setHart (s : State) (h : Nat) (x : Hart) : State := { s with harts := tset Hart.init h x s.harts }

/-- A link to the host. -/
def State.hlink (s : State) (k : Nat) : HLink := lget HLink.init s.hst.links k

/-- The state with a link to the host replaced. -/
def State.setHlink (s : State) (k : Nat) (x : HLink) : State :=
  { s with hst := { s.hst with links := lset s.hst.links k x } }

/-- A message leaves the package. DESIGN CHOICE: log entry 115. -/
def State.emit (s : State) (o : Out) : State := { s with out := s.out ++ [o] }

/-! ### Domains (R540, R541) -/

/-- PWR_DOMAIN_STATE of domain d: 0 OFF, 1 RAMPING, 2 ON, 3 DRAINING, 4 FAILED. -/
def State.domain (s : State) (d : Nat) : Nat := s.num 0x2010 (d + 1)

/-- The state with the state of domain d changed. -/
def State.setDomain (s : State) (d v : Nat) : State := s.setNum 0x2010 (d + 1) v

/-- Domain d is ON. -/
def State.on (s : State) (d : Nat) : Bool := s.domain d == 2

/-- Domains of the IOD: PCIe, and the field network with slow I/O (R540). -/
def domPcie : Nat := 66
def domNet : Nat := 67
/-- Domains of a tensor die (R540). -/
def domQuad (n q : Nat) : Nat := 6 * n + q
def domUncore (n : Nat) : Nat := 6 * n + 4
def domCanopy (n : Nat) : Nat := 6 * n + 5
/-- Domains of a server-core die (R540). -/
def domCluster (d c : Nat) : Nat := 48 + 5 * d + c
def domHdUncore (d : Nat) : Nat := 52 + 5 * d
/-- Domains of a link die (R540). -/
def domPortGroup (u g : Nat) : Nat := 58 + 4 * u + g
def domLanding (u : Nat) : Nat := 61 + 4 * u
/-- Domain of the LPDDR5X group of a tensor die (R540). -/
def domGroup (n : Nat) : Nat := 70 + n

/-- The port-group domain of port p (R266, R540). -/
def domOfPort (p : Nat) : Nat := domPortGroup (p / 12) (p % 12 / 4)

/-! ### The physical address map -/

/-- 2^30. -/
def gib : Nat := 0x40000000

/-- Where an address leads (R194): memory stored on a die's group at a die-local offset, a die's Canopy at an offset,
the control window, the host window, or nothing. -/
inductive Place where
  | dram (n o : Nat)
  | canopy (n o : Nat)
  | ctrl (o : Nat)
  | host (a : Nat)
  | hole
  deriving DecidableEq, Repr

/-- Placement of an offset in the global window (R200). -/
def globalPlace (g x : Nat) : Nat × Nat :=
  let k := x >>> 12
  ((k ^^^ (k >>> 3) ^^^ (k >>> 6)) % 8, (120 - g) * gib + (k >>> 3) * 4096 + x % 4096)

/-- Decode of a physical address (R194, R195, R198, R200). -/
def place (s : State) (a : Nat) : Place :=
  let g := s.merr.effG
  if a < 0xF000000000 then
    if a % 0x1E00000000 < (120 - g) * gib then .dram (a / 0x1E00000000) (a % 0x1E00000000) else .hole
  else if 0x10000000000 ≤ a ∧ a < 0x10000000000 + 8 * g * gib then
    .dram (globalPlace g (a - 0x10000000000)).1 (globalPlace g (a - 0x10000000000)).2
  else if 0x20000000000 ≤ a ∧ a < 0x20400000000 then
    if (a - 0x20000000000) % 0x80000000 < 0x60000000 then
      .canopy ((a - 0x20000000000) / 0x80000000) ((a - 0x20000000000) % 0x80000000)
    else .hole
  else if 0x30000000000 ≤ a ∧ a < 0x40000000000 then .ctrl (a - 0x30000000000)
  else if 0x800000000000 ≤ a ∧ a < 0x1000000000000 then .host (a - 0x800000000000)
  else .hole

/-- Where a stored byte lies once G GiB of each group belong to the global window: its storage does not move (R198, R200).
DEDUCED: log entry 42. -/
def sharedAddr (g a : Nat) : Nat :=
  let o := a % 0x1E00000000
  if a < 0xF000000000 ∧ (120 - g) * gib ≤ o then
    let q := (o - (120 - g) * gib) / 4096
    0x10000000000 + (q * 8 + ((a / 0x1E00000000) ^^^ (q % 8) ^^^ (q / 8 % 8))) * 4096 + o % 4096
  else a

/-- Channel of a die-local offset, 0 to 15 (R199). -/
def channelOf (o : Nat) : Nat :=
  let g := o >>> 12
  (g ^^^ (g >>> 4) ^^^ (g >>> 8)) % 16

/-- Memory package of a die-local offset of die n (R199). -/
def packageOf (n o : Nat) : Nat := 4 * n + channelOf o / 4

/-- MEM_STATE of a group (R221). -/
def State.memState (s : State) (n : Nat) : Nat := s.num 0x2401 (n + 1)

/-- The die whose home orders the accesses to a line, if the address is device memory (R202, R111). -/
def homeOf (s : State) (a : Nat) : Option Nat :=
  match place s a with
  | .dram n _ => some n
  | .canopy n _ => some n
  | _ => none

/-- Device memory that can be accessed now: its group is READY (R206, R212), or its Canopy pair is ON and has been
zeroed (R113). DEDUCED: log entry 107. -/
def placeOk (s : State) : Place → Bool
  | .dram n _ => s.memState n == 2
  | .canopy n _ => s.on (domCanopy n) && s.merr.zeroed.contains n
  | _ => false

/-- The address is device memory that can be accessed now. -/
def memOk (s : State) (a : Nat) : Bool := placeOk s (place s a)

/-- The address lies in device memory, whether or not it can be accessed now (R224). -/
def isDevice (s : State) (a : Nat) : Bool := (homeOf s a).isSome

/-- Every line of a range is device memory that can be accessed now. DEDUCED: log entry 107. -/
def rangeOk (s : State) (a n : Nat) : Bool :=
  (List.range ((a % 64 + n + 63) / 64)).all fun i => memOk s ((a / 64 + i) * 64)

/-- COH_STATE of a home: 0 OFF, 1 ON, 2 DRAINING (R250, R251). -/
def State.homeState (s : State) (n : Nat) : Nat := s.num 0x2800 (n + 1)

/-- The 64-byte line that holds an address. -/
def lineOf (a : Nat) : Nat := a / 64 * 64

end Sys2Proof.Machine
end

