-- ==== Sys2Proof/Machine/Memory.lean ====
section
/-!
DEFINITION. Machine/Memory.lean: device memory and what the homes keep. The bytes themselves, the ECC block of a line, the error
rules of LPDDR5X, Canopy and local SRAM (R113, R114, R116, R209 to R214), the caches, the directories and the hint windows (R225 to
R227, R234, R237).
-/

namespace Sys2Proof.Machine

/-! ### Bytes -/

/-- The byte at a physical address; an unlisted one reads 0 (R113, R212; log entry 11). -/
def getByte (s : State) (a : Nat) : Byte := tget 0 a s.mem

/-- n bytes from an address. -/
def getBytes (s : State) (a : Nat) : Nat → List Byte
  | 0 => []
  | n + 1 => getByte s a :: getBytes s (a + 1) n

/-- Bytes stored from an address on. DESIGN CHOICE: log entry 11. -/
def putMem (m : List Host.Cell) (a : Nat) : List Byte → List Host.Cell
  | [] => m
  | b :: r => putMem (tset 0 a b m) (a + 1) r

/-- The state with bytes stored from an address on. -/
def putBytes (s : State) (a : Nat) (l : List Byte) : State := { s with mem := putMem s.mem a l }

/-- The form of device memory: addresses strictly rising, and no entry that an unlisted address would read as.
DESIGN CHOICE: log entry 11. -/
abbrev Memory.wf (m : List Host.Cell) : Bool := twf (0 : Byte) m

/-! ### Errors and poison -/

/-- Data byte offset, in its channel, of a die-local offset (R199). -/
def channelByte (o : Nat) : Nat := o / 0x10000 * 4096 + o % 4096

/-- ECC group and slot of the data line that holds a byte of a channel (R209). -/
def eccPlace (q : Nat) : Nat × Nat := (q / 64 / 15, q / 64 % 15)

/-- Device byte offset of a line in its channel, and of the ECC block of its group (R209). -/
def deviceByte (q : Nat) : Nat × Nat :=
  ((eccPlace q).1 * 1024 + (eccPlace q).2 * 64, (eccPlace q).1 * 1024 + 15 * 64)

/-- Where the ECC block of a line keeps its poison bit, which `MemErr.poison` holds: memory package, channel in it, device byte
offset of the 16-bit field, and the bit (R209). -/
def poisonBit (n o : Nat) : Nat × Nat × Nat × Nat :=
  (packageOf n o, channelOf o % 4, (deviceByte (channelByte o)).2 + 60, (eccPlace (channelByte o)).2)

/-- Physical address of data line k of channel c of die n: R199 read from right to left.
DESIGN CHOICE: log entry 133. -/
def lineAt (s : State) (n c k : Nat) : Nat :=
  let hi := k * 64 / 4096
  let lo := (c ^^^ hi ^^^ (hi >>> 4)) % 16
  sharedAddr s.merr.effG (n * 0x1E00000000 + (hi * 16 + lo) * 4096 + k * 64 % 4096)

/-- The ECC block of group g of channel c of die n: the check bits of slots 0 to 14 over the bytes their lines hold, least
significant byte first, the poison bits, and what is reserved (R209). DESIGN CHOICE: log entry 133. -/
def eccBlock (s : State) (n c g : Nat) : List Byte :=
  let at_ := fun i => lineAt s n c (15 * g + i)
  let checks := (List.range 15).flatMap fun i => leBytes (Config.checkBits (getBytes s (at_ i) 64)).toNat 4
  let bits := (List.range 15).foldl (fun w i => w + b2n (s.merr.poison.contains (at_ i)) * 2 ^ i) 0
  let spare := fun i => Config.eccSpare ((16 * n + c) * 2 ^ 33 + g * 1024 + 960) i
  checks ++ leBytes (bits + (spare 0).toNat % 2 * 2 ^ 15) 2 ++ [spare 1, spare 2]

/-- The units whose poison an access to a line touches: the line itself for LPDDR5X (R209), its eight 64-bit words for
Canopy (R114). -/
def poisonUnits (s : State) (line : Nat) : List Nat :=
  match place s line with
  | .canopy _ _ => (List.range 8).map (line + 8 * ·)
  | _ => [line]

/-- Device memory under a line is poisoned. -/
def isPoisoned (s : State) (line : Nat) : Bool := (poisonUnits s line).any (s.merr.poison.contains ·)

/-- The state with a poison bit set or cleared. -/
def setPoison (s : State) (u : Nat) (p : Bool) : State :=
  { s with merr := { s.merr with
      poison := if p then insNat u s.merr.poison else s.merr.poison.filter (· != u) } }

/-- The state with no undiscovered device error at a unit. -/
def clearLatent (s : State) (u : Nat) : State :=
  { s with merr := { s.merr with latent := tdel u s.merr.latent, spots := tdel u s.merr.spots } }

/-- A correctable error found at LPDDR5X: counted, and a storm reported once in the interval (R213). -/
def dramCe (n o : Nat) (s : State) : State :=
  let c := 16 * n + channelOf o
  let k := tget 0 c s.merr.chanCe + 1
  let lim := s.num 0x2406 1
  let s := count 0x5840 (packageOf n o + 1) 1 { s with merr := { s.merr with chanCe := tset 0 c k s.merr.chanCe } }
  if lim ≠ 0 ∧ lim < k ∧ ¬ s.merr.storms.contains c then
    post 0x2402 (src 6 (packageOf n o)) 0x1F [(1, packageOf n o), (1, channelOf o % 4), (4, k)]
      { s with merr := { s.merr with storms := insNat c s.merr.storms } }
  else s

/-- A newly found uncorrectable error of an LPDDR5X line (R214). -/
def dramUe (line n o : Nat) (scrub : Bool) (s : State) : State :=
  post 0x2401 (src 6 (packageOf n o)) 0x1F
    [(8, line), (1, packageOf n o), (1, channelOf o % 4), (1, b2n scrub)]
    ((count 0x5841 (packageOf n o + 1) 1 (setPoison s line true)).setNum 0x2408 1 line)

/-- A newly found uncorrectable error of a Canopy word (R114). -/
def canopyUe (u n o : Nat) (s : State) : State :=
  post 0x3C03 (src 1 n) 0x1F [(1, n), (8, o)] (count 0x5901 (n + 1) 1 (setPoison s u true))

/-- What a read finds at one unit: an undiscovered device error is corrected and counted, or poisons the unit and is
reported (R114, R213, R214). A unit already poisoned is not counted again. -/
def readUnit (scrub : Bool) (u : Nat) (s : State) : State :=
  match tfind u s.merr.latent with
  | none => s
  | some k =>
    let s := clearLatent s u
    if s.merr.poison.contains u then s
    else match place s u, k with
      | .dram n o, .ce => dramCe n o s
      | .dram n o, .ue => dramUe u n o scrub s
      | .canopy n _, .ce => count 0x5900 (n + 1) 1 s
      | .canopy n o, .ue => canopyUe u n o s
      | _, _ => s

/-- What a read finds at every unit of a line. -/
def readUnits (scrub : Bool) (l : List Nat) (s : State) : State := l.foldl (fun s u => readUnit scrub u s) s

/-- A read of one line from memory: its bytes and whether they are poisoned (R213, R214). -/
def memReadLine (line : Nat) (s : State) : (List Byte × Bool) × State :=
  let s := readUnits false (poisonUnits s line) s
  ((getBytes s line 64, isPoisoned s line), s)

/-- The part of a 64-bit mask that covers a unit of a line: all of it for LPDDR5X, 8 bits for a Canopy word. -/
def unitMask (s : State) (line mask u : Nat) : Nat :=
  match place s line with
  | .canopy _ _ => (mask >>> (u - line)) % 256
  | _ => mask % 2 ^ 64

/-- The mask that covers a unit whole. -/
def unitFull (s : State) (line : Nat) : Nat :=
  match place s line with
  | .canopy _ _ => 255
  | _ => 2 ^ 64 - 1

/-- What a masked write does to the errors of one unit: a whole write clears poison, a partial one reads first and keeps
poison (R114, R211); either leaves check bits that fit the bytes written (R210). `whole` names the bytes of the mask that the write
gives all eight bits. -/
def writeUnit (line mask whole u : Nat) (s : State) : State :=
  if unitMask s line mask u = 0 ∧ unitFull s line = 255 then s
  else if unitMask s line whole u = unitFull s line then clearLatent (setPoison s u false) u
  else clearLatent (readUnit false u s) u

/-- A masked write of one line to memory, as one access (R114, R211): bit i of the mask writes byte i. A byte of the mask that is not
in `whole` is the result of a merge of bits (R54). -/
def memMergeLine (line mask whole : Nat) (data : List Byte) (s : State) : State :=
  let s := (poisonUnits s line).foldl (fun s u => writeUnit line mask whole u s) s
  let s := match place s line with
    | .dram n _ => if whole % 2 ^ 64 = 2 ^ 64 - 1 then s else count 0x5843 (n + 1) 1 s
    | _ => s
  putBytes s line (mergeMask mask (getBytes s line 64) data)

/-- A masked write of whole bytes of one line to memory. -/
def memWriteLine (line mask : Nat) (data : List Byte) (s : State) : State := memMergeLine line mask mask data s

/-- The mask of n bytes from an offset in a line. -/
def maskFrom (off n : Nat) : Nat := (2 ^ n - 1) <<< off

/-- The mask of a whole line. -/
def fullMask : Nat := 2 ^ 64 - 1

/-- A whole line written back with its poison (R215). -/
def memWriteBack (line : Nat) (data : List Byte) (p : Bool) (s : State) : State :=
  let s := memWriteLine line fullMask data s
  if p then (poisonUnits s line).foldl (fun s u => setPoison s u true) s else s

/-- 64 values of which nothing is said. DESIGN CHOICE: log entries 1 and 139. -/
def freeLine (s : State) : List Byte := (List.range 64).map fun i => BitVec.ofNat 8 (Config.freeNat (s.free + i))

/-- A line of memory whose bytes hold values of which nothing is said (R210, R436). DESIGN CHOICE: log entries 1 and 139. -/
def scramble (u : Nat) (s : State) : State := { putBytes s u (freeLine s) with free := s.free + 64 }

/-! ### Caches and directory -/

/-- Number of a caching agent: HD0, HD1, TD0 to TD7 (R224). -/
def cacheIx : Agent → Option Nat
  | .hd d => some d
  | .td n => some (2 + n)
  | _ => none

/-- The agent with a cache number. -/
def cacheAgent (c : Nat) : Agent := if c < 2 then .hd c else .td (c - 2)

/-- The line as caching agent c holds it. -/
def cacheLine (s : State) (c line : Nat) : Option CLine := tfind line (tget [] c s.coh.caches)

/-- The lines of core caches without a line that has left server-core die c. -/
def coreDrop (c line : Nat) (t : Tab (List Nat)) : Tab (List Nat) :=
  (t.map fun e => if e.1 / 36 = c then (e.1, e.2.filter (· != line)) else e).filter fun e => !e.2.isEmpty

/-- What a cache keeps of a line holds no data: no copy, or one that waits for its data (R231). -/
def noCopy : Option CLine → Bool
  | some x => x.st == .isW || x.st == .iuW
  | none => true

/-- The state with a line put into, or removed from, a cache; a line that leaves a server-core die leaves its cores.
DESIGN CHOICE: log entry 57. -/
def setCacheLine (c line : Nat) (x : Option CLine) (s : State) : State :=
  let t := match x with
    | some v => tput line v (tget [] c s.coh.caches)
    | none => tdel line (tget [] c s.coh.caches)
  { s with coh := { s.coh with
      caches := tset [] c t s.coh.caches,
      l1d := if noCopy x then coreDrop c line s.coh.l1d else s.coh.l1d,
      l1i := if noCopy x then coreDrop c line s.coh.l1i else s.coh.l1i,
      l2 := if noCopy x then coreDrop c line s.coh.l2 else s.coh.l2 } }

/-- No holder and no watcher. -/
def DirEntry.empty : DirEntry := { sole := false, holders := 0, watch := 0 }

/-- The directory entry of a line; an unlisted line is held and watched by none (R226). -/
def dirOf (s : State) (line : Nat) : DirEntry := tget DirEntry.empty line s.coh.dir

/-- The state with a directory entry replaced; an entry with no holder and no watcher is dropped. -/
def setDir (line : Nat) (e : DirEntry) (s : State) : State :=
  let e := if e.holders = 0 ∧ e.watch = 0 then DirEntry.empty else e
  { s with coh := { s.coh with dir := tset DirEntry.empty line e s.coh.dir } }

/-- The holders that a directory entry lists, in the fixed order HD0, HD1, TD0 to TD7 (R230). -/
def holderList (e : DirEntry) : List Nat := bitList e.holders.toNat 10

/-- WatchNotice to every watcher of a line, and the watch vector cleared (R230). -/
def notifyWatchers (line : Nat) (s : State) : State :=
  let e := dirOf s line
  let s := { s with coh := { s.coh with msgs := s.coh.msgs ++ (bitList e.watch.toNat 8).map (Msg.watch · line) } }
  setDir line { e with watch := 0 } s

/-- Every reservation on a line is cleared (R247). DEDUCED: log entry 58. -/
def clearResv (line : Nat) (s : State) : State :=
  { s with coh := { s.coh with resv := s.coh.resv.filter fun e => !(e.2.line == line) } }

/-- The reservations that a caching agent's harts hold in their L1D on a line are lost when it is snooped away
(R247). DEDUCED: log entry 58. -/
def loseResv (c line : Nat) (s : State) : State :=
  { s with coh := { s.coh with resv := s.coh.resv.filter fun e =>
      !(e.2.line == line && !e.2.atHome && e.1 / 36 == c) } }

/-- The predictor counter that an address uses (R246). -/
def predIx (a : Nat) : Nat := bits a 13 6 ^^^ bits a 21 14

/-- The harts of a server-core die whose core holds a line: its L2, which includes its L1D (R407). -/
def coresWith (s : State) (c line : Nat) : List Nat :=
  (s.coh.l2.filter fun e => e.1 / 36 == c && e.2.contains line).map (·.1)

/-- A snoop takes a line from the cores of a server-core die that hold it: their predictors can see it (R246). -/
def noteLost (c line : Nat) (s : State) : State :=
  { s with coh := { s.coh with
      lostLog := (coresWith s c line).foldl (fun t h => tset [] h (tget [] h t ++ [line]) t) s.coh.lostLog } }

/-- Caching agent c loses its data of a line to a snoop: what is left is x, and what depended on the data goes. -/
def loseCopy (c line : Nat) (x : Option CLine) (s : State) : State := setCacheLine c line x (loseResv c line (noteLost c line s))

/-- Caching agent c loses a line to a snoop: its copy goes, with what depended on it. -/
def dropCopy (c line : Nat) (s : State) : State := loseCopy c line none s

/-! ### Local SRAM of the tensor dies (R116) -/

/-- What a read of a unit of local SRAM finds: a correctable error is corrected and counted; an uncorrectable one is
counted and reported, and answers true. `unit` is numbered as FIRST_FAIL of R124 in the event.
DEDUCED: log entries 63, 118. -/
def sramRead (n block key unit : Nat) (s : State) : Bool × State :=
  let k := block * 2 ^ 48 + key
  let d := s.die n
  let s' := s.setDie n { d with sramErr := tdel k d.sramErr }
  match tfind k d.sramErr with
  | none => (false, s)
  | some .ce => (false, count 0x5902 (n + 1) 1 s')
  | some .ue => (true, post 0x3C04 (src 1 n) 0x1F [(1, n), (1, block), (1, unit)] (count 0x5903 (n + 1) 1 s'))

/-- An error of a unit that is written whole before it is read. DEDUCED: log entry 63. -/
def sramClear (n block key : Nat) (s : State) : State :=
  let d := s.die n
  s.setDie n { d with sramErr := tdel (block * 2 ^ 48 + key) d.sramErr }

/-- The lines of a range. -/
def linesOf (a n : Nat) : List Nat := (List.range ((a % 64 + n + 63) / 64)).map fun i => (a / 64 + i) * 64

/-- An error of a stream-cache line that is used: an uncorrectable one in a clean line makes it invalid, and it is reread
from its home (R116). In a dirty line, of which R116 says nothing, the model marks the data poisoned, since no other copy of
it exists. DEDUCED: log entry 118. -/
def streamError (n l : Nat) (s : State) : State :=
  if (s.die n).sramErr = [] then s
  else match sramRead n 4 l 0x7F s with
    | (false, s) => s
    | (true, s) => match cacheLine s (2 + n) l with
      | some x => if x.st = .d ∨ x.st = .diW then setCacheLine (2 + n) l (some { x with poisoned := true }) s
                  else if x.st = .c ∨ x.st = .s then setCacheLine (2 + n) l none s
                  else s
      | none => s

/-- Errors of the stream-cache lines that a read uses. -/
def streamErrors (n a len : Nat) (s : State) : State := (linesOf a len).foldl (fun s l => streamError n l s) s

/-- The error of a line in the cache of an agent, if it is a stream cache. DEDUCED: log entry 118. -/
def agentError (c l : Nat) (s : State) : State := if 2 ≤ c then streamError (c - 2) l s else s

/-! ### The latest value of a line (R234) -/

/-- Dirty data of a line in an EvDirty on its way to the home. -/
def evData (line : Nat) : Msg → Option (List Byte × Bool)
  | .ev true _ l d p => if l = line then some (d, p) else none
  | _ => none

/-- Dirty data of a line on its way to the home in a response, or to the new owner in DAT. -/
def moveData (line : Nat) : Msg → Option (List Byte × Bool)
  | .rsp _ _ l (some d) => if l = line then some d else none
  | .dat _ l (some .d) (some d) _ _ => if l = line then some d else none
  | _ => none

/-- The data of a whole-line write that its home has admitted, whose snoops discard every older value. -/
def Txn.writes (t : Txn) : Option (List Byte × Bool) :=
  match t.req.kind with
  | .wrFull => some (t.req.data, false)
  | .wrHint _ => some (t.req.data, false)
  | _ => none

/-- A line accessed both by the host under device bias and by the package: what it holds, in memory and in every copy, is no value that
the manual gives (R436). DESIGN CHOICE: log entry 139. -/
def scrambleAll (line : Nat) (s : State) : State :=
  (List.range 10).foldl (fun s c => match cacheLine s c line with
    | some x => if x.data = [] then s
                else setCacheLine c line (some { x with data := freeLine s }) { s with free := s.free + 64 }
    | none => s) (scramble line s)

/-- The links in whose BAR2 window a line lies in a page in device bias (R429, R432, R434). -/
def biasLinks (s : State) (line : Nat) : List Nat :=
  (List.range 2).filter fun k =>
    let b := s.num 0x2C07 (k + 1)
    decide (b ≤ line) && decide (line < b + 2 ^ (20 + (s.hlink k).barCode)) && tget false ((line - b) / 0x200000) (s.hlink k).bias

/-- An agent of the package accesses a line: in a device-bias page that is noted, and where the host has written the line since its
last read the line holds free values (R436). DESIGN CHOICE: log entry 139. -/
def touch (line : Nat) (s : State) : State :=
  let l := biasLinks s line
  if l = [] then s
  else
    let s := if l.any fun k => (s.hlink k).theirs.contains line then scrambleAll line s else s
    l.foldl (fun s k => s.setHlink k { s.hlink k with ours := insNat line (s.hlink k).ours, theirs := (s.hlink k).theirs.filter (· != line) }) s

/-- The latest value of a line when memory does not hold it (R234): in a cache in D, in an EvDirty, in a message that moves
it, or gathered or written by the transaction in progress. -/
def latestHeld (s : State) (line : Nat) : Option (List Byte × Bool) :=
  match (List.range 10).findSome? (fun c => match cacheLine s c line with
      | some x => if x.st = .d then some (x.data, x.poisoned) else none
      | none => none) with
  | some d => some d
  | none => match s.coh.msgs.findSome? (evData line) with
    | some d => some d
    | none => match s.coh.msgs.findSome? (moveData line) with
      | some d => some d
      | none => match tfind line s.coh.txns with
        | some t => match t.got with | some d => some d | none => t.writes
        | none => none

/-- An EvDirty or EvClean in flight taken by the home: dirty data goes to memory, and AckEv is sent (R233).
DEDUCED: log entry 120. -/
def takeEvs (line : Nat) (s : State) : State :=
  s.coh.msgs.foldl (fun s m => match m with
    | .ev dirty c l d p =>
      if l = line then
        let s := { s with coh := { s.coh with msgs := s.coh.msgs.filter (· != m) ++ [Msg.ackEv c line] } }
        let e := dirOf s line
        let s := setDir line { e with holders := e.holders &&& ~~~(1#10 <<< c) } s
        if dirty then memWriteBack line d p s else s
      else s
    | _ => s) s

/-- A copy of a line is invalidated: a stable one goes, one that waits for a Promote waits for the line instead, and one that
waits for data or for AckEv stays as it is (R231). -/
def killCopy (c line : Nat) (s : State) : State :=
  match cacheLine s c line with
  | some x => match x.st with
    | .d | .c | .s => dropCopy c line s
    | .sdW => loseCopy c line (some { x with st := .iuW, data := [] }) s
    | _ => s
  | none => s

/-- Every copy of a line is invalidated, a dirty one after its data has been written to memory when `keep` asks for it
(R230). -/
def killCopies (line : Nat) (keep : Bool) (s : State) : State :=
  let s := takeEvs line s
  let s := (holderList (dirOf s line)).foldl (fun s c => agentError c line s) s
  let s := match keep, latestHeld s line with
    | true, some (d, p) => memWriteBack line d p s
    | _, _ => s
  let s := (holderList (dirOf s line)).foldl (fun s c => killCopy c line s) s
  let e := dirOf s line
  setDir line { e with sole := false, holders := 0 } s

/-- A home with a full set back-invalidates a victim, in an order left open (R227). -/
def backInvalidate (line : Nat) (s : State) : State :=
  let s := setDir line DirEntry.empty (notifyWatchers line (killCopies line true s))
  match homeOf s line with
  | some n => count 0x5850 (n + 1) 1 s
  | none => s

/-- The lines of the directory set of a line at its home, other than the line itself, that have an entry or are busy and
may have one. DESIGN CHOICE: log entry 56. -/
def setMates (s : State) (line : Nat) : List Nat :=
  let dir := s.coh.dir.map (·.1)
  (dir ++ ((s.coh.txns.filter (·.2.entry)).map (·.1)).filter fun l => !dir.contains l).filter fun l =>
    l != line && homeOf s l == homeOf s line && Config.dirSet l % 131072 == Config.dirSet line % 131072

/-- The mates that can be back-invalidated: those whose line is idle. -/
def idleMates (s : State) (line : Nat) : List Nat := (setMates s line).filter fun l => (tfind l s.coh.txns).isNone

/-- The home has an entry for a line, or can make one now: a way of its set is free, or a mate is idle (R226, R227).
DESIGN CHOICE: log entry 56. -/
def dirRoom (s : State) (line : Nat) : Bool :=
  dirOf s line != DirEntry.empty || decide (s.coh.dir.length + s.coh.txns.length < 16)
    || decide ((setMates s line).length < 16) || !(idleMates s line).isEmpty

/-- Room in the directory for a line: 16 ways in a set (R226, R227). DESIGN CHOICE: log entry 56. -/
def makeRoom (line : Nat) (s : State) : State :=
  if dirOf s line = DirEntry.empty then
    if s.coh.dir.length + s.coh.txns.length < 16 then s
    else if (setMates s line).length < 16 then s
    else
      let v := s.draw
      let idle := idleMates s line
      match idle[v.1 % idle.length]? with
      | some l => backInvalidate l v.2
      | none => v.2
  else s

/-! ### Hint windows -/

/-- The hint window of a line: the lowest-numbered enabled window that holds it, by its target (R237). -/
def hintTarget (s : State) (line : Nat) : Option Nat :=
  ((List.range 16).find? fun w =>
    let b := s.num 0x2810 (w + 1)
    let z := s.num 0x2811 (w + 1)
    z ≠ 0 && b ≤ line && line < b + z).map fun w => s.num 0x2812 (w + 1)

/-- The caching agent that a hint target names; HD0 and HD1 are 8 and 9 (R260). -/
def targetCache (t : Nat) : Nat := if t < 8 then 2 + t else t - 8

/-- A hint target that is running: its uncore is ON and the agent is not lost (R239). -/
def targetUp (s : State) (t : Nat) : Bool :=
  (if t < 8 then s.on (domUncore t) else s.on (domHdUncore (t - 8))) && !s.coh.lost.contains (targetCache t)

/-! ### Loss of contents -/

/-- Memory of a die's group loses its contents (R206): its bytes, poison and errors go. DEDUCED: log entry 55. -/
def forgetGroup (n : Nat) (s : State) : State :=
  let keep := fun a => match place s a with
    | .dram m _ => m != n
    | _ => true
  { s with mem := tkeep keep s.mem,
           merr := { s.merr with poison := s.merr.poison.filter keep, latent := tkeep keep s.merr.latent,
                                 spots := tkeep keep s.merr.spots } }

/-- A die's Canopy loses its contents (R113). DEDUCED: log entry 55. -/
def forgetCanopy (n : Nat) (s : State) : State :=
  let keep := fun a => match place s a with
    | .canopy m _ => m != n
    | _ => true
  { s with mem := tkeep keep s.mem,
           merr := { s.merr with poison := s.merr.poison.filter keep, latent := tkeep keep s.merr.latent,
                                 zeroed := s.merr.zeroed.filter (· != n) } }

end Sys2Proof.Machine
end

