-- ==== Sys2Proof/Machine/Harts.lean ====
section
/-!
DEFINITION. Machine/Harts.lean: a hart as the package's accesses meet it: its registers and CSRs, its PMP (R408, R412), the trap
that a forbidden or failed access takes (R195, R242, R409, R412), and where in its die a line lies (R407).
-/

namespace Sys2Proof.Machine

/-! ### Registers -/

/-- The cluster of a hart is ON (R406, R469). -/
def hartOn (s : State) (h : Nat) : Bool := s.on (domCluster (h / 36) (h % 36 / 9))

/-- An integer register of a hart; x0 reads 0. -/
def Hart.xreg (x : Hart) (n : Nat) : Nat := if n = 0 then 0 else tget 0 n x.x

/-- The hart with an integer register replaced; x0 keeps 0. -/
def Hart.setX (x : Hart) (n v : Nat) : Hart := if n = 0 then x else { x with x := tset 0 n v x.x }

/-- A CSR of a hart, by number. -/
def Hart.csrAt (x : Hart) (n : Nat) : Nat := tget 0 n x.csr

/-- The hart with a CSR replaced. -/
def Hart.setCsr (x : Hart) (n v : Nat) : Hart := { x with csr := tset 0 n v x.csr }

/-! ### PMP (R408, R412). PRESUMED: the RISC-V privileged architecture with Smepmp, which R408 names (log entry 119). -/

/-- Configuration byte of PMP entry i; pmpcfg0, pmpcfg2 and so on hold eight each. PRESUMED: log entry 119. -/
def Hart.pmpCfg (x : Hart) (i : Nat) : Nat := bits (x.csrAt (0x3A0 + i / 8 * 2)) (i % 8 * 8 + 7) (i % 8 * 8)

/-- pmpaddr of entry i, as the byte address that it names. -/
def Hart.pmpAddr (x : Hart) (i : Nat) : Nat := bits (x.csrAt (0x3B0 + i)) 53 0 * 4

/-- Trailing ones of a number, at most f. -/
def trailingOnes : Nat → Nat → Nat
  | 0, _ => 0
  | f + 1, n => if n % 2 = 1 then trailingOnes f (n / 2) + 1 else 0

/-- The range of PMP entry i, as first byte and length; none when the entry is off. PRESUMED: log entry 119. -/
def Hart.pmpRange (x : Hart) (i : Nat) : Option (Nat × Nat) :=
  match bits (x.pmpCfg i) 4 3 with
  | 0 => none
  | 1 => let lo := if i = 0 then 0 else x.pmpAddr (i - 1)
         some (lo, x.pmpAddr i - lo)
  | 2 => some (x.pmpAddr i, 4)
  | _ => let n := 2 ^ (trailingOnes 54 (x.pmpAddr i / 4) + 3)
         some (x.pmpAddr i / n * n, n)

/-- What a PMP entry allows a data access: write or read, in M-mode or below. `mml` is mseccfg.MML.
PRESUMED: log entry 119. -/
def pmpAllows (cfg : Nat) (mml machine write : Bool) : Bool :=
  let r := bit cfg 0
  let w := bit cfg 1
  let x := bit cfg 2
  let l := bit cfg 7
  if !mml then (machine && !l) || (if write then w else r)
  else if !l then
    if !r && w then (if machine then true else x || !write) else !machine && (if write then w else r)
  else if !r && w then machine && x && !write
  else if r && w && x then !write
  else machine && (if write then w else r)

/-- The PMP of a hart lets it make an access of n bytes. PRESUMED: log entry 119. -/
def Hart.pmpOk (x : Hart) (a n : Nat) (write : Bool) : Bool :=
  let machine := x.mode == 3
  let sec := x.csrAt 0x747
  let hits := (List.range 64).filterMap fun i => match x.pmpRange i with
    | some (b, k) => if b < a + n ∧ a < b + k then some (i, decide (b ≤ a ∧ a + n ≤ b + k)) else none
    | none => none
  match hits with
  | (i, whole) :: _ => whole && pmpAllows (x.pmpCfg i) (bit sec 0) machine write
  | [] => machine && !bit sec 1

/-! ### Traps. PRESUMED: the RISC-V privileged architecture, which R408 names (log entry 119). -/

/-- The part of a status register that a trap into S-mode changes: SPIE takes SIE, SIE 0, SPP the mode. -/
def trapStatus (v mode : Nat) : Nat := setBit (setBit (setBit v 5 (bit v 1)) 1 false) 8 (mode == 1)

/-- A hart takes an exception: cause and trap value. It goes to M-mode unless medeleg, and for a virtualised hart hedeleg,
hands it down; the pc and the status are saved, and the pc goes to the base of the trap vector.
PRESUMED: log entry 119. -/
def Hart.trap (cause tval : Nat) (x : Hart) : Hart :=
  if x.mode ≤ 1 ∧ bit (x.csrAt 0x302) cause then
    if x.virt ∧ bit (x.csrAt 0x602) cause then
      let y := (((x.setCsr 0x241 x.pc).setCsr 0x242 cause).setCsr 0x243 tval).setCsr 0x200 (trapStatus (x.csrAt 0x200) x.mode)
      { y with mode := 1, pc := x.csrAt 0x205 / 4 * 4 }
    else
      let h := setBit (x.csrAt 0x600) 7 x.virt
      let h := if x.virt then setBit h 8 (x.mode == 1) else h
      let y := (((x.setCsr 0x141 x.pc).setCsr 0x142 cause).setCsr 0x143 tval).setCsr 0x300 (trapStatus (x.csrAt 0x300) x.mode)
      { (y.setCsr 0x600 h) with mode := 1, virt := false, pc := x.csrAt 0x105 / 4 * 4 }
  else
    let m := x.csrAt 0x300
    let m := setBit (setBit m 7 (bit m 3)) 3 false
    let m := setBit (setBit (setBit m 11 (bit x.mode 0)) 12 (bit x.mode 1)) 39 x.virt
    let y := (((x.setCsr 0x341 x.pc).setCsr 0x342 cause).setCsr 0x343 tval).setCsr 0x300 m
    { y with mode := 3, virt := false, pc := x.csrAt 0x305 / 4 * 4 }

/-- Exception causes: load address misaligned, load access fault, store/AMO address misaligned, store/AMO access fault. -/
def causeLoadMis : Nat := 4
def causeLoad : Nat := 5
def causeStoreMis : Nat := 6
def causeStore : Nat := 7

/-- Hart h takes an exception at an address: a bus error (R195, R215) or a fault of its own (R242, R409, R412).
PRESUMED: log entry 119. -/
def trapHart (h cause a : Nat) (s : State) : State := s.setHart h ((s.hart h).trap cause a)

/-! ### Where a line lies in its die (R407) -/

/-- Lines that an L1I, an L1D, an L2 and an L3 hold: 64 KiB each, 2 MiB and 48 MiB of 64 bytes. DESIGN CHOICE: log entry 57. -/
def l1iLines : Nat := 1024
def l1dLines : Nat := 1024
def l2Lines : Nat := 32768
def l3Lines : Nat := 786432

/-- A list of lines with one put in as the newest; when it is full, one that the manual does not choose leaves.
DESIGN CHOICE: log entry 57. -/
def cacheIn (limit line : Nat) (l : List Nat) (v : Nat) : List Nat :=
  let l := l.filter (· != line)
  (if l.length < limit then l else l.eraseIdx (v % l.length)) ++ [line]

/-- The core of hart h takes a line into its L1D and its L2, which includes it; a line that leaves the L2 leaves the L1D and
stays in the L3. `own` takes it from the die's other cores, as a write does. DESIGN CHOICE: log entry 57. -/
def coreTake (own : Bool) (h line : Nat) (s : State) : State :=
  let v := s.free
  let others : Tab (List Nat) → Tab (List Nat) := fun t => if own then coreDrop (h / 36) line t else t
  let two := cacheIn l2Lines line (tget [] h (others s.coh.l2)) (Config.freeNat v)
  let one := (cacheIn l1dLines line (tget [] h (others s.coh.l1d)) (Config.freeNat (v + 1))).filter (two.contains ·)
  let code := (tget [] h (others s.coh.l1i)).filter (two.contains ·)
  { s with coh := { s.coh with l2 := tset [] h two (others s.coh.l2), l1d := tset [] h one (others s.coh.l1d),
                               l1i := tset [] h code (others s.coh.l1i) }, free := v + 2 }

/-- The core of hart h takes a line that it fetches instructions from into its L1I too (R407). DESIGN CHOICE: log entry 57. -/
def coreFetch (h line : Nat) (s : State) : State :=
  if (tget [] h s.coh.l2).contains line then
    let v := s.draw
    let code := cacheIn l1iLines line (tget [] h v.2.coh.l1i) v.1
    { v.2 with coh := { v.2.coh with l1i := tset [] h code v.2.coh.l1i } }
  else s

/-- The cores of a cluster give up their lines, which stay in the L3 of their die with the latest data (R422).
DEDUCED: log entry 41. -/
def clusterOut (d c : Nat) (s : State) : State :=
  let keep : Nat → Bool := fun h => !(h / 36 == d && h % 36 / 9 == c)
  { s with coh := { s.coh with
      l1d := tkeep keep s.coh.l1d, l1i := tkeep keep s.coh.l1i, l2 := tkeep keep s.coh.l2,
      resv := tkeep (fun h => keep h || (match tfind h s.coh.resv with | some r => r.atHome | none => true)) s.coh.resv } }

end Sys2Proof.Machine
end

