-- ==== Sys2Proof/Machine/Home.lean ====
section
/-!
DEFINITION. Machine/Home.lean: the homes and the caching agents, message by message (R224 to R241, R244, R250 to R253), and on
top of them the accesses that a unit of the package makes as one step: reads, writes and atomics of device memory.
-/

namespace Sys2Proof.Machine

/-- The state with a message sent on the mesh (R228). -/
def sendMsg (m : Msg) (s : State) : State := { s with coh := { s.coh with msgs := s.coh.msgs ++ [m] } }

/-- A response of a kind by caching agent c on a line. -/
def Msg.isRsp (kind c line : Nat) : Msg → Bool
  | .rsp k a l _ => k == kind && a == c && l == line
  | _ => false

/-- A response of any agent on a line. -/
def Msg.rspOn (line : Nat) : Msg → Bool
  | .rsp _ _ l _ => l == line
  | _ => false

/-- An EvDirty or an EvClean of caching agent c on a line. -/
def Msg.isEv (dirty : Bool) (c line : Nat) : Msg → Bool
  | .ev b a l _ _ => b == dirty && a == c && l == line
  | _ => false

/-- An EvDirty or EvClean of caching agent c on a line, either. -/
def Msg.evOf (c line : Nat) (m : Msg) : Bool := m.isEv true c line || m.isEv false c line

/-- DAT to an agent on a line. -/
def Msg.isDat (agent : Agent) (line : Nat) : Msg → Bool
  | .dat a l _ _ _ _ => a == agent && l == line
  | _ => false

/-- The old value of a far atomic to an agent on a line. -/
def Msg.isOld (agent : Agent) (line : Nat) : Msg → Bool
  | .old a l _ _ _ _ _ => a == agent && l == line
  | _ => false

/-- A read that takes no state (R230). -/
def ReqKind.peeks : ReqKind → Bool
  | .rdPeek => true
  | .rdPeekWatch => true
  | _ => false

/-- A request by which a caching agent waits for its line (R231). -/
def ReqKind.asks : ReqKind → Bool
  | .rdShare => true
  | .rdUnique => true
  | .promote => true
  | _ => false

/-- A cacheless write or a far atomic (R230). -/
def ReqKind.writes : ReqKind → Bool
  | .wrFull => true
  | .wrHint _ => true
  | .wrMasked _ => true
  | .atomic _ _ _ _ _ => true
  | _ => false

/-- A message in flight from caching agent c, or DAT to it: lost with the agent (R252). -/
def Msg.lostWith (c : Nat) : Msg → Bool
  | .ev _ a _ _ _ => a == c
  | .dat a _ _ _ _ _ => cacheIx a == some c
  | .old a _ _ _ _ _ _ => cacheIx a == some c
  | _ => false

/-- The first message that satisfies a test, taken off the mesh. -/
def takeMsg (p : Msg → Bool) (s : State) : Option (Msg × State) :=
  match s.coh.msgs.find? p with
  | some m => some (m, { s with coh := { s.coh with msgs := s.coh.msgs.erase m } })
  | none => none

/-- The transaction on a line, if it is busy (R229). -/
def txnOf (s : State) (line : Nat) : Option Txn := tfind line s.coh.txns

/-- The state with the transaction on a line replaced. -/
def setTxn (line : Nat) (t : Txn) (s : State) : State := { s with coh := { s.coh with txns := tput line t s.coh.txns } }

/-- Remove a caching agent from a directory entry. -/
def dropHolder (c line : Nat) (s : State) : State :=
  let e := dirOf s line
  setDir line { e with holders := e.holders &&& ~~~(1#10 <<< c), sole := e.sole && !(e.holders.toNat.testBit c) } s

/-- Add a caching agent to a directory entry as a sharer, or make it the only holder. -/
def grantDir (c line : Nat) (sole : Bool) (s : State) : State :=
  let e := dirOf s line
  setDir line (if sole then { e with sole := true, holders := 1#10 <<< c }
               else { e with sole := false, holders := e.holders ||| (1#10 <<< c) }) s

/-- The home of a line is ON, or DRAINING (R250, R251). -/
def homeOn (s : State) (line : Nat) : Bool := match homeOf s line with | some n => s.homeState n == 1 | none => false
def homeDrains (s : State) (line : Nat) : Bool := match homeOf s line with | some n => s.homeState n == 2 | none => false

/-- The line lies in the own Canopy of the die of a stream cache, which never allocates it (R107).
DEDUCED: log entry 120. -/
def ownCanopy (s : State) (c line : Nat) : Bool :=
  match place s line with
  | .canopy n _ => c == 2 + n
  | _ => false

/-! ### Atomic operations (R242) -/

/-- Two's complement reading of a word of w bytes. -/
def toSigned (w v : Nat) : Int := if v < 2 ^ (8 * w - 1) then v else (v : Int) - 2 ^ (8 * w)

/-- The value an atomic operation leaves, from the old value and the operand, in words of w bytes. -/
def atomicOut (op : AtomicOp) (w old x : Nat) : Nat :=
  let x := x % 2 ^ (8 * w)
  match op with
  | .swap => x
  | .add => (old + x) % 2 ^ (8 * w)
  | .xor => old ^^^ x
  | .and => old &&& x
  | .or => old ||| x
  | .min => if toSigned w old ≤ toSigned w x then old else x
  | .max => if toSigned w x ≤ toSigned w old then old else x
  | .minu => Nat.min old x
  | .maxu => Nat.max old x
  | .cas c => if old = c % 2 ^ (8 * w) then x else old

/-- An atomic on a line's 64 bytes: the old word and the new bytes. -/
def atomicLine (op : AtomicOp) (addr w x : Nat) (d : List Byte) : Nat × List Byte :=
  let old := fieldOf d (addr % 64) w
  (old, spliceOf d (addr % 64) (leBytes w (atomicOut op w old x)))

/-! ### Room in a cache (R101, R107, R407) -/

/-- An agent gives up a line: EvDirty from D, EvClean from C, nothing from S (R225). An error of the line is found as it is
read out (R116). DESIGN CHOICE: log entry 57. -/
def evict (c line : Nat) (s : State) : State :=
  let s := agentError c line s
  match cacheLine s c line with
  | some x =>
    if x.st = .d then
      sendMsg (.ev true c line x.data x.poisoned) (loseResv c line (setCacheLine c line (some { x with st := .diW }) s))
    else if x.st = .c then
      sendMsg (.ev false c line x.data x.poisoned) (loseResv c line (setCacheLine c line (some { x with st := .ciW }) s))
    else if x.st = .s then loseResv c line (setCacheLine c line none s)
    else s
  | none => s

/-- The lines with which a line competes for room in the cache of agent c: in a stream cache those of its set, in a
server-core die those of its L3, which holds what no L2 does. A line on its way in counts, and one that has left does not.
DESIGN CHOICE: log entry 57. -/
def roomMates (s : State) (c line : Nat) : List (Nat × CLine) :=
  let inL2 := s.coh.l2.flatMap fun e => if e.1 / 36 = c then e.2 else []
  (tget [] c s.coh.caches).filter fun e =>
    let fits := if c < 2 then !inL2.contains e.1 else Config.cacheSet e.1 % 8192 == Config.cacheSet line % 8192
    e.1 ≠ line && fits && e.2.st != .diW && e.2.st != .ciW

/-- The mates that can leave: those in a stable state. -/
def victims (s : State) (c line : Nat) : List Nat :=
  ((roomMates s c line).filter fun e => e.2.st == .d || e.2.st == .c || e.2.st == .s).map (·.1)

/-- Lines that compete for room at most: 16 ways of a set of a stream cache (R107), or the lines of an L3 (R407).
DESIGN CHOICE: log entry 57. -/
def roomLimit (c : Nat) : Nat := if c < 2 then l3Lines else 16

/-- The cache of agent c has a way for a line, or can make one: a way of its set is free, or one of its lines can leave.
DESIGN CHOICE: log entry 57. -/
def cacheRoom (s : State) (c line : Nat) : Bool :=
  decide ((tget [] c s.coh.caches).length < roomLimit c) || (cacheLine s c line).isSome
    || decide ((roomMates s c line).length < roomLimit c) || !(victims s c line).isEmpty

/-- Room for a line in the cache of agent c: a line that the manual does not choose leaves under the protocol (R107, R225).
DESIGN CHOICE: log entry 57. -/
def makeWay (c line : Nat) (s : State) : State :=
  if (tget [] c s.coh.caches).length < roomLimit c ∨ (cacheLine s c line).isSome then s
  else if (roomMates s c line).length < roomLimit c then s
  else
    let v := s.draw
    match (victims s c line)[v.1 % (victims s c line).length]? with
    | some l => evict c l v.2
    | none => v.2

/-- An L3 that has taken in a line that left an L2 gives one up when it is over-full (R407).
DESIGN CHOICE: log entry 57. -/
def trimL3 (d : Nat) (s : State) : State :=
  if (tget [] d s.coh.caches).length ≤ l3Lines then s
  else if (roomMates s d 1).length ≤ l3Lines then s
  else
    let v := s.draw
    match (victims s d 1)[v.1 % (victims s d 1).length]? with
    | some l => evict d l v.2
    | none => v.2

/-- The core of hart h takes a line into its L1D and L2, and its die's L3 makes room for what they give up.
DESIGN CHOICE: log entry 57. -/
def coreGets (own : Bool) (h line : Nat) (s : State) : State := trimL3 (h / 36) (coreTake own h line s)

/-- A line that a server-core die has asked for comes into the L2 of one of its cores that run, and into its L1D, or its L1I too where it
asked to fetch instructions: which core asked and for what, the row does not say (R407). DESIGN CHOICE: log entry 57. -/
def landLine (c line : Nat) (s : State) : State :=
  if c < 2 then
    let cores := (upTo (36 * c) 36).filter (hartOn s)
    let v := s.draw
    match cores[v.1 % cores.length]? with
    | some h =>
      let w := (coreGets false h line v.2).draw
      if w.1 % 2 = 1 then coreFetch h line w.2 else w.2
    | none => s
  else s

/-! ### Near operations of the cores (R244, R247) -/

/-- The word a hart receives. -/
def giveHart (h v : Nat) (s : State) : State := { s with coh := { s.coh with result := tset 0 h v s.coh.result } }

/-- A near atomic, or a near LR, on a line that the die holds in D or C (R244, R247): the core takes the line. A poisoned line
gives a bus error and no effect (R215). -/
def nearNow (w : CoreWait) (x : CLine) (s : State) : State :=
  if x.poisoned then trapHart w.hart (if w.isLr then causeLoad else causeStore) w.addr s
  else if w.isLr then
    let s := coreGets true w.hart w.line (setCacheLine w.die w.line (some { x with st := .d }) s)
    giveHart w.hart (fieldOf x.data (w.addr % 64) w.width)
      { s with coh := { s.coh with resv := tput w.hart { line := w.line, atHome := false } s.coh.resv } }
  else
    let a := atomicLine w.op w.addr w.width w.operand x.data
    let s := setCacheLine w.die w.line (some { x with st := .d, data := a.2 }) (clearResv w.line s)
    giveHart w.hart a.1 (notifyWatchers w.line (coreGets true w.hart w.line s))

/-- The core operations of die c that wait for a line. -/
def waitsOf (s : State) (c line : Nat) : List CoreWait := s.coh.waits.filter fun w => w.die == c && w.line == line

/-- The state without them. -/
def dropWaits (c line : Nat) (s : State) : State :=
  { s with coh := { s.coh with waits := s.coh.waits.filter fun w => !(w.die == c && w.line == line) } }

/-- The core operations that waited for a line run, in their order, once their die holds it (R235, R244).
DEDUCED: log entry 120. -/
def runWaits (c line : Nat) (s : State) : State :=
  (waitsOf s c line).foldl (fun s w => match cacheLine s c line with
    | some x => nearNow w x s
    | none => s) (dropWaits c line s)

/-- A target takes a line that a hint places: the home has the line's writebacks first, the target has nothing left to await of a
line that it gave up, and what it had asked for the line is answered with it. DEDUCED: log entry 120. -/
def openTarget (c line : Nat) (s : State) : State :=
  let s := takeEvs line s
  let q := (tget [] line s.coh.waiting).filter fun r => !(cacheIx r.agent == some c && r.kind.asks)
  { s with coh := { s.coh with
      waiting := tset [] line q s.coh.waiting, msgs := s.coh.msgs.filter fun m => !(m == .ackEv c line) } }

/-- A whole line whose copies are gone is written to memory, or placed by its hint (R238, R239). `up` is whether the
target takes it. DEDUCED: log entry 120. -/
def placeLine (line : Nat) (data : List Byte) (target : Option Nat) (up : Bool) (s : State) : State :=
  match target, homeOf s line with
  | some t, some n =>
    let c := targetCache t
    if t = 0xF ∨ ownCanopy s c line ∨ s.homeState n ≠ 1 then memWriteLine line fullMask data s
    else if !up then count 0x5854 (n + 1) 1 (memWriteLine line fullMask data s)
    else
      let s := openTarget c line (makeWay c line (makeRoom line s))
      let s := setCacheLine c line (some { st := .d, data := data, poisoned := false }) s
      runWaits c line (count 0x5853 (n + 1) 1 (setDir line { dirOf s line with sole := true, holders := 1#10 <<< c } s))
  | _, _ => memWriteLine line fullMask data s

/-! ### The home -/

/-- Every snoop of a transaction has been answered and its answers taken. -/
def settled (s : State) (line : Nat) (t : Txn) : Bool :=
  t.snoops.isEmpty && t.wbWait.isNone &&
    !(s.coh.msgs.any (Msg.rspOn line))

/-- The state with the transaction on a line ended. A DRAINING home gives up the entry, and is OFF once it has none left
(R229, R251). -/
def endTxn (line : Nat) (s : State) : State :=
  let s := { s with coh := { s.coh with txns := tdel line s.coh.txns } }
  match homeOf s line with
  | some n =>
    if s.homeState n = 2 then
      let s := if dirOf s line = DirEntry.empty then s else backInvalidate line s
      if s.coh.dir.any (fun e => homeOf s e.1 == some n) ||
          s.coh.txns.any (fun e => homeOf s e.1 == some n) then s
      else s.setNum 0x2800 (n + 1) 0
    else s
  | none => s

/-- The data of a transaction that the home has in hand, else memory's. -/
def txnData (line : Nat) (t : Txn) (s : State) : (List Byte × Bool) × State :=
  match t.got with
  | some d => (d, s)
  | none => memReadLine line s

/-- Data that a holder returned is written to memory (R230, R234). -/
def keepGot (line : Nat) (t : Txn) (s : State) : State :=
  match t.got with
  | some (d, p) => memWriteBack line d p s
  | none => s

/-- The requester of a transaction is lost (R252). -/
def requesterLost (s : State) (t : Txn) : Bool :=
  match cacheIx t.req.agent with
  | some c => s.coh.lost.contains c
  | none => false

/-- The home serves a request for a line: DAT with the state granted, unless a holder has forwarded the line; the directory then
lists the requester, and the line stays busy until AckGrant (R229, R230). A DRAINING home grants no state (R251). -/
def grantLine (line c : Nat) (g : CacheSt) (sole : Bool) (t : Txn) (s : State) : State :=
  let on := homeOn s line
  let s :=
    if t.served then (if t.granted then s else keepGot line t s)
    else
      let r := txnData line t s
      sendMsg (.dat t.req.agent line (if on then some g else none) (some r.1) t.asks true) r.2
  let gives := if t.served then t.granted else on
  setTxn line { t with done := true } (if gives then grantDir c line sole s else s)

/-- A far atomic has been executed at the home of its line (R261). -/
def countFar (line : Nat) (s : State) : State :=
  match homeOf s line with
  | some n => if s.homeState n = 0 then s else count 0x5852 (n + 1) 1 s
  | none => s

/-- What the home does once nothing is outstanding on an admitted request (R230). A lost requester is sent nothing; its write, whose
snoops have discarded every other value of the line, is performed whole (R252). -/
def finish (line : Nat) (t : Txn) (s : State) : State :=
  let a := t.req.agent
  let wait := setTxn line { t with done := true }
  let answer : Msg → State → State := fun m s => if requesterLost s t then s else sendMsg m s
  if requesterLost s t && !t.req.kind.writes then endTxn line (keepGot line t s)
  else match t.req.kind with
  | .rdShare =>
    match cacheIx a with
    | some c => grantLine line c (if t.alone then .c else .s) t.alone t s
    | none => endTxn line s
  | .rdUnique =>
    match cacheIx a with
    | some c => grantLine line c .d true t s
    | none => endTxn line s
  | .promote =>
    match cacheIx a with
    | some c =>
      if homeOn s line then wait (grantDir c line true (sendMsg (.dat a line (some .d) none t.asks true) s))
      else wait (dropHolder c line (sendMsg (.dat a line none none t.asks true) s))
    | none => endTxn line s
  | .rdPeek | .rdPeekWatch =>
    wait (if t.served then s
      else
        let r := txnData line t s
        sendMsg (.dat a line none (some r.1) t.asks true) r.2)
  | .wrFull | .wrHint _ =>
    let up := t.entry && match t.target with | some k => targetUp s k | none => false
    let s := notifyWatchers line (placeLine line t.req.data t.target up (clearResv line s))
    endTxn line (answer (.ackWr a line) s)
  | .wrMasked mask =>
    let s := clearResv line (keepGot line t s)
    let s := notifyWatchers line (memWriteLine line mask t.req.data s)
    endTxn line (answer (.ackWr a line) s)
  | .atomic hart addr w op x =>
    let cont := t.others || !(tget [] line s.coh.waiting).isEmpty
    let r := memReadLine line (keepGot line t s)
    let v := atomicLine op addr w x r.1.1
    let s := if r.1.2 then r.2
      else countFar line (notifyWatchers line (memWriteLine line (maskFrom (addr % 64) w) v.2 (clearResv line r.2)))
    wait (answer (.old a line hart addr v.1 cont r.1.2) s)
  | .backInval => endTxn line s

/-- The home goes on with a line's transaction if nothing is outstanding, and ends it once the requester's AckGrant is there
(R229, R232). DEDUCED: log entry 60. -/
def progress (line : Nat) (s : State) : State :=
  let s := match txnOf s line with
    | some t => if !t.done && settled s line t then finish line t s else s
    | none => s
  match txnOf s line with
  | some t => if t.done && t.acked then endTxn line s else s
  | none => s

/-- The snoops that an admitted request needs, with what the home learns by itself (R230). A requester that takes no state for
the line has its own die's copy snooped too (R244, R410). -/
def snoopsFor (s : State) (line : Nat) (r : Req) : List (Nat × SnpKind) :=
  let e := dirOf s line
  let all := holderList e
  let others := all.filter fun c => !(cacheIx r.agent == some c)
  match r.kind with
  | .rdShare => match others with | c :: _ => [(c, .share)] | [] => []
  | .rdUnique => match others with | c :: l => l.map (·, .kill) ++ [(c, .unique)] | [] => []
  | .promote => others.map (·, .kill)
  | .rdPeek | .rdPeekWatch => if e.sole then all.map (·, .peek) else []
  | .wrFull | .wrHint _ => all.map (·, .kill)
  | .wrMasked _ | .atomic _ _ _ _ _ =>
    if e.sole then all.map (·, .unique) else all.map (·, .kill)
  | .backInval => []

/-- The kind under which the home handles a request: a Promote of an agent no longer listed, or of a line it does not
share, is a RdUnique (R230); at a home that is DRAINING, reads that would take a state are RdPeek (R251). -/
def handledAs (s : State) (line : Nat) (r : Req) : ReqKind :=
  let e := dirOf s line
  let listed := match cacheIx r.agent with | some c => e.holders.toNat.testBit c && !e.sole | none => false
  let draining := homeDrains s line
  match r.kind with
  | .promote => if draining then .rdPeek else if listed then .promote else .rdUnique
  | .rdShare => if draining then .rdPeek else .rdShare
  | .rdUnique => if draining then .rdPeek else .rdUnique
  | k => k

/-- The hint target of a whole-line write, as the home finds it when it admits the write (R237, R260); a home that is DRAINING
places nothing (R251). -/
def admitTarget (s : State) (line : Nat) (k : ReqKind) : Option Nat :=
  match k with
  | .wrFull | .wrHint _ => if homeOn s line then hintTarget s line else none
  | _ => none

/-- A hint places a line at its target: a cache that is not that of the line's own Canopy, and that runs (R238, R239). -/
def places (s : State) (line : Nat) (t : Option Nat) : Bool :=
  match t with
  | some t => t != 0xF && !ownCanopy s (targetCache t) line && targetUp s t
  | none => false

/-- A request that will need a directory entry for its line (R226, R251). DESIGN CHOICE: log entry 56. -/
def needsEntry (s : State) (line : Nat) (r : Req) : Bool :=
  homeOn s line && match handledAs s line r with
  | .rdShare | .rdUnique | .promote | .rdPeekWatch => true
  | .wrFull => places s line (hintTarget s line)
  | .wrHint ok => ok && places s line (hintTarget s line)
  | _ => false

/-- The home can admit a request: the line is idle, and there is room for its entry (R227, R229).
DESIGN CHOICE: log entry 56. -/
def admits (s : State) (line : Nat) (r : Req) : Bool :=
  (txnOf s line).isNone && (!needsEntry s line r || dirRoom s line)

/-- The home admits a request: the line becomes busy (R229). -/
def admitReq (line : Nat) (r : Req) (s : State) : State :=
  let asks := r.kind.asks
  let r := { r with kind := handledAs s line r }
  let s := if needsEntry s line r then makeRoom line s else s
  let e := dirOf s line
  let s := match r.kind, r.agent with
    | .rdPeekWatch, .wm n => if homeOn s line then setDir line { e with watch := e.watch ||| (1#8 <<< n) } s else s
    | _, _ => s
  let t : Txn := { req := r, alone := e.holders == 0, others := (holderList e).any fun c => !(cacheIx r.agent == some c),
                   asks := asks, target := admitTarget s line r.kind, entry := needsEntry s line r, snoops := snoopsFor s line r, got := none, served := false,
                   granted := false, wbWait := none, done := false, acked := false }
  progress line (setTxn line t s)

/-- A request served without a home, whose line no agent allocates: one access at the memory controller or the Canopy
banks (R250). -/
def directAccess (line : Nat) (r : Req) (s : State) : State :=
  match r.kind with
  | .wrFull | .wrHint _ =>
    sendMsg (.ackWr r.agent line) (notifyWatchers line (memWriteLine line fullMask r.data (clearResv line s)))
  | .wrMasked m => sendMsg (.ackWr r.agent line) (notifyWatchers line (memWriteLine line m r.data (clearResv line s)))
  | .atomic hart addr w op x =>
    let m := memReadLine line s
    let v := atomicLine op addr w x m.1.1
    let s := if m.1.2 then m.2
      else notifyWatchers line (memWriteLine line (maskFrom (addr % 64) w) v.2 (clearResv line m.2))
    sendMsg (.old r.agent line hart addr v.1 false m.1.2) s
  | .backInval => s
  | _ =>
    let x := memReadLine line s
    sendMsg (.dat r.agent line none (some x.1) r.kind.asks false) x.2

/-- A far atomic of a hart that cannot be made is its bus error (R113, R195). -/
def atomicFails (k : ReqKind) (agent : Agent) (s : State) : State :=
  match k, agent with
  | .atomic hart addr _ _ _, .hd _ => trapHart hart causeStore addr s
  | _, _ => s

/-- A request is answered with an access error (R195). -/
def deny (r : Req) (line : Nat) (s : State) : State :=
  atomicFails r.kind r.agent { s with coh := { s.coh with denied := s.coh.denied ++ [(r.agent, line)] } }

/-- The line that a message is about. -/
def Msg.about : Msg → Nat
  | .rsp _ _ l _ => l
  | .dat _ l _ _ _ _ => l
  | .ev _ _ l _ _ => l
  | .ackGrant _ l => l
  | .ackEv _ l => l
  | .ackWr _ l => l
  | .watch _ l => l
  | .old _ l _ _ _ _ _ => l

/-- Device memory loses its contents: no cache, directory or message keeps a line of it, a request for one is answered with an access
error, and a core operation that waits for one, or whose far atomic has not answered, takes a bus error (R113, R195, R206).
DEDUCED: log entry 55. -/
def forgetLines (gone : Nat → Bool) (s : State) : State :=
  let open_ := (s.coh.txns.filter fun e => gone e.1 && !e.2.done).map fun e => (e.2.req, e.1)
  let asked := (s.coh.waiting.filter fun e => gone e.1).flatMap fun e => e.2.map fun r => (r, e.1)
  let lost := s.coh.msgs.filterMap fun m => match m with
    | .old (.hd _) l h a _ _ _ => if gone l then some (h, a) else none
    | _ => none
  let stuck := s.coh.waits.filter fun w => gone w.line
  let kept : Nat → Bool := fun l => !gone l
  let cores : Tab (List Nat) → Tab (List Nat) := fun t => (t.map fun e => (e.1, e.2.filter kept)).filter fun e => !e.2.isEmpty
  let s := { s with coh := { s.coh with
      dir := tkeep kept s.coh.dir, txns := tkeep kept s.coh.txns, waiting := tkeep kept s.coh.waiting,
      caches := (s.coh.caches.map fun e => (e.1, tkeep kept e.2)).filter fun e => !e.2.isEmpty,
      msgs := s.coh.msgs.filter fun m => kept m.about, resv := s.coh.resv.filter fun e => kept e.2.line,
      waits := s.coh.waits.filter fun w => kept w.line, l1d := cores s.coh.l1d, l1i := cores s.coh.l1i, l2 := cores s.coh.l2 } }
  let s := (open_ ++ asked).foldl (fun s e => deny e.1 e.2 s) s
  let s := lost.foldl (fun s e => trapHart e.1 causeStore e.2 s) s
  stuck.foldl (fun s w => trapHart w.hart (if w.isLr then causeLoad else causeStore) w.addr s) s

/-- A line of LPDDR5X of a die's group, or of its Canopy. -/
def inGroup (s : State) (n l : Nat) : Bool := match place s l with | .dram m _ => m == n | _ => false
def inCanopy (s : State) (n l : Nat) : Bool := match place s l with | .canopy m _ => m == n | _ => false

/-- Requests waiting for a line are admitted in their order, until one leaves the line busy (R229). One whose memory can no longer
be accessed is answered with an access error (R113, R206). -/
def admitWaiting : Nat → Nat → State → State
  | 0, _, s => s
  | f + 1, line, s =>
    match tget [] line s.coh.waiting with
    | [] => s
    | r :: q =>
      if !memOk s line then
        admitWaiting f line (deny r line { s with coh := { s.coh with waiting := tset [] line q s.coh.waiting } })
      else if !admits s line r then s
      else
        let s := { s with coh := { s.coh with waiting := tset [] line q s.coh.waiting } }
        admitWaiting f line (if homeOn s line || homeDrains s line then admitReq line r s else directAccess line r s)

/-- The requests that wait anywhere for an idle line, or for a directory entry, are admitted where they can be.
DESIGN CHOICE: log entry 56. -/
def admitAll (s : State) : State :=
  s.coh.waiting.foldl (fun s e => admitWaiting (e.2.length + 1) e.1 s) s

/-- The line's transaction goes on, and what waits is admitted as soon as it can be. -/
def advance (line : Nat) (s : State) : State := admitAll (progress line s)

/-- A request reaches the home of its line: it is admitted, or waits behind the line's transaction. A request for an
address that cannot be accessed is answered with an access error and changes no memory (R195). -/
def request (line : Nat) (r : Req) (s : State) : State :=
  if !memOk s line then deny r line s
  else match homeOf s line with
    | none => s
    | some n =>
      let s := touch line s
      if s.homeState n = 0 then directAccess line r s
      else if admits s line r ∧ (tget [] line s.coh.waiting).isEmpty then advance line (admitReq line r s)
      else { s with coh := { s.coh with
          waiting := tset [] line (tget [] line s.coh.waiting ++ [r]) s.coh.waiting } }

/-- A read request of an agent: a caching agent that misses enters the transient state, a Promote needs a shared copy (R231). A
stream cache is never written through, so it asks for no line to write (R225), and it takes no line of its own die's Canopy
(R107). -/
def readRequest (agent : Agent) (line : Nat) (kind : ReqKind) (st : CacheSt) (s : State) : State :=
  match cacheIx agent with
  | none => s
  | some c =>
    if s.coh.lost.contains c ∨ (2 ≤ c ∧ (kind ≠ .rdShare ∨ ownCanopy s c line)) ∨ !cacheRoom s c line then s
    else if !memOk s line then request line { kind := kind, agent := agent, data := [] } s
    else
      let isOff := match homeOf s line with | some n => s.homeState n == 0 | none => true
      match cacheLine s c line, kind with
      | some x, .promote =>
        if x.st = .s then
          request line { kind := kind, agent := agent, data := [] } (setCacheLine c line (some { x with st := st }) s)
        else s
      | none, .promote => s
      | some _, _ => s
      | none, _ =>
        request line { kind := kind, agent := agent, data := [] }
          (if isOff then s else setCacheLine c line (some { st := st, data := [], poisoned := false }) (makeWay c line s))

/-- A cacheless request. -/
def plainRequest (agent : Agent) (line : Nat) (kind : ReqKind) (data : List Byte) (s : State) : State :=
  request line { kind := kind, agent := agent, data := data } s

/-! ### Snoops (R230, R231) -/

/-- What a caching agent answers to a snoop: the response kind (0 RspNone, 1 RspSentKeep, 2 RspSentGone, 3
WB_IN_FLIGHT), whether it sends the line on, and what it keeps. -/
def snoopAnswer (k : SnpKind) (x : CLine) : Nat × Bool × Option CLine :=
  match k, x.st with
  | .share, .d | .share, .c | .share, .s => (1, true, some { x with st := .s })
  | .unique, .d | .unique, .c | .unique, .s => (2, true, none)
  | .kill, .d | .kill, .c | .kill, .s => (0, false, none)
  | .peek, .d | .peek, .c | .peek, .s | .peek, .sdW => (1, true, some x)
  | .share, .sdW => (1, true, some x)
  | .unique, .sdW => (2, true, some { x with st := .iuW, data := [] })
  | .kill, .sdW => (0, false, some { x with st := .iuW, data := [] })
  | _, .diW => (3, false, some x)
  | _, .ciW | _, .isW | _, .iuW => (0, false, some x)

/-- The state a snoop grants the requester when the holder forwards the line. -/
def snoopGrant : SnpKind → Option CacheSt
  | .share => some .s
  | .unique => some .d
  | .kill => none
  | .peek => none

/-- Whether a snooped holder returns its data to the home rather than to the requester (R230, WrMasked). -/
def returnsHome : ReqKind → Bool
  | .wrMasked _ => true
  | .atomic _ _ _ _ _ => true
  | _ => false

/-- Caching agent c answers a snoop of a line's transaction. At a DRAINING home the holder forwards no state, and its dirty data
goes to the home (R251), as it does where the requester is lost (R252). -/
def answerSnoop (c line : Nat) (k : SnpKind) (t : Txn) (s : State) : State :=
  let s := agentError c line s
  let t := { t with snoops := t.snoops.erase (c, k) }
  match cacheLine s c line with
  | none => sendMsg (.rsp 0 c line none) (setTxn line t s)
  | some x =>
    let a := snoopAnswer k x
    let dirty := x.st = .d
    let home := returnsHome t.req.kind
    let gone := requesterLost s t
    let drains := homeDrains s line || gone
    let grant := if drains then none else snoopGrant k
    let forwards := a.2.1 && !home && !gone
    let s := setTxn line (if forwards ∧ grant.isSome then { t with granted := true } else t) s
    let s := if forwards then sendMsg (.dat t.req.agent line grant (some (x.data, x.poisoned)) t.asks true) s else s
    let carried : Option (List Byte × Bool) :=
      if a.2.1 && (home || (dirty && (k = .share || (k = .unique && drains)))) then some (x.data, x.poisoned) else none
    let s := match k with
      | .peek => setCacheLine c line a.2.2 s
      | .share => setCacheLine c line a.2.2 (loseResv c line s)
      | _ => loseCopy c line a.2.2 s
    sendMsg (.rsp a.1 c line carried) s

/-- The home has sent a snoop of its transaction: SnpUnique leaves it after the SnpKills have been answered, so that no holder is
left beside the owner to whom the line is forwarded (R225). DEDUCED: log entry 12. -/
def snoopSent (t : Txn) (x : Nat × SnpKind) : Bool :=
  t.snoops.contains x && (x.2 != .unique || t.snoops == [x])

/-- A snoop of a kind reaches an agent, if the home of the line has sent it. -/
def takeSnoop (agent : Agent) (line : Nat) (k : SnpKind) (s : State) : State :=
  match cacheIx agent, txnOf s line with
  | some c, some t => if snoopSent t (c, k) then answerSnoop c line k t s else s
  | _, _ => s

/-- The home takes a response to a snoop (R230, R233). -/
def homeResponse (kind : Nat) (agent : Agent) (line : Nat) (s : State) : State :=
  match cacheIx agent with
  | none => s
  | some c =>
    match takeMsg (Msg.isRsp kind c line) s with
    | some (.rsp _ _ _ d, s) =>
      match txnOf s line with
      | none => s
      | some t =>
        let peek := t.req.kind.peeks
        let s := if kind = 0 then (if peek then s else dropHolder c line s)
          else if kind = 1 then
            let e := dirOf s line
            let s := if peek then s else setDir line { e with sole := false } s
            let s := match d with | some (b, p) => memWriteBack line b p s | none => s
            setTxn line { t with served := true } s
          else if kind = 2 then
            setTxn line { t with got := d, served := !returnsHome t.req.kind } (dropHolder c line s)
          else
            let s := match homeOf s line with | some n => count 0x5851 (n + 1) 1 s | none => s
            let flight := s.coh.msgs.any (Msg.evOf c line)
            if flight then setTxn line { t with wbWait := some c } s else s
        advance line s
    | _ => s

/-- The home takes an EvDirty or an EvClean (R225, R229, R233). -/
def homeWriteback (dirty : Bool) (agent : Agent) (line : Nat) (s : State) : State :=
  match cacheIx agent with
  | none => s
  | some c =>
    match takeMsg (Msg.isEv dirty c line) s with
    | some (.ev _ _ _ d p, s) =>
      let s := if dirty then memWriteBack line d p s else s
      let s := sendMsg (.ackEv c line) (dropHolder c line s)
      let s := match txnOf s line with
        | some t => if t.wbWait = some c then setTxn line { t with wbWait := none, got := some (d, p) } s else s
        | none => s
      advance line s
    | _ => s

/-! ### Line data and acknowledgements arrive -/

/-- The key of a hart's predictor counter for an address (R246). -/
def predKey (h a : Nat) : Nat := h * 256 + predIx a

/-- A predictor counter moved by one, between 0 and 3 (R246). -/
def predMove (h a : Nat) (up : Bool) (s : State) : State :=
  let v := tget 0 (predKey h a) s.coh.pred
  { s with coh := { s.coh with
      pred := tset 0 (predKey h a) (if up then min 3 (v + 1) else v - 1) s.coh.pred } }

/-- LR as RdPeek together with a reservation at the home (R247): the hart has its word, or a bus error from a poisoned line
(R215). DEDUCED: log entry 58. -/
def homeLr (h addr w : Nat) (d : List Byte × Bool) (s : State) : State :=
  if d.2 then trapHart h causeLoad addr s
  else giveHart h (fieldOf d.1 (addr % 64) w)
    { s with coh := { s.coh with resv := tput h { line := lineOf addr, atHome := true } s.coh.resv } }

/-- Core operations whose line came without a state, from a home that is OFF or DRAINING: an LR has read it there, and an AMO
goes to the home (R250, R251). DEDUCED: log entry 60. -/
def passWaits (c line : Nat) (d : List Byte × Bool) (s : State) : State :=
  (waitsOf s c line).foldl (fun s w =>
    if w.isLr then homeLr w.hart w.addr w.width d s
    else plainRequest (.hd c) line (.atomic w.hart w.addr w.width w.op w.operand) [] s) (dropWaits c line s)

/-- The state with data that a reader received without a state. -/
def handOver (agent : Agent) (line : Nat) (data : Option (List Byte × Bool)) (s : State) : State :=
  match data with
  | some (d, p) => { s with coh := { s.coh with delivered := s.coh.delivered ++ [(agent, line, d, p)] } }
  | none => s

/-- A far atomic's old value reaches its requester, which acknowledges it to the home; the predictor of a hart learns whether
it was contended, and a poisoned line is a bus error (R215, R244, R246). DEDUCED: log entry 60. -/
def takeOld (agent : Agent) (line h addr v : Nat) (cont poisoned : Bool) (s : State) : State :=
  let s := match txnOf s line with
    | some t => if t.req.agent = agent ∧ t.done then sendMsg (.ackGrant agent line) s else s
    | none => s
  match agent with
  | .hd _ => if poisoned then trapHart h causeStore addr (predMove h addr cont s) else giveHart h v (predMove h addr cont s)
  | _ => if poisoned then s else giveHart h v s

/-- Core operations that wait for a line their die may not write yet: Promote from S, RdUnique from I (R244). -/
def askOwner (c line : Nat) (s : State) : State :=
  if (waitsOf s c line).isEmpty then s
  else match cacheLine s c line with
    | some _ => readRequest (.hd c) line .promote .sdW s
    | none => readRequest (.hd c) line .rdUnique .iuW s

/-- A line that comes into a cache whose set a hint has filled meanwhile: one that the manual does not choose leaves (R107, R238).
DESIGN CHOICE: log entry 57. -/
def fillWay (c line : Nat) (s : State) : State :=
  if (tget [] c s.coh.caches).length ≤ roomLimit c then s
  else if ((roomMates s c line).filter fun e => e.2.st != .isW && e.2.st != .iuW).length < roomLimit c then s
  else
    let v := s.draw
    match (victims s c line)[v.1 % (victims s c line).length]? with
    | some l => evict c l v.2
    | none => v.2

/-- A requester receives DAT (R228, R231): a caching agent takes the granted state and runs what waited; a cacheless
reader, and a caching agent that did not ask for the line, has its data; a far atomic's old value reaches its hart.
DEDUCED: log entry 60. -/
def takeDat (agent : Agent) (line : Nat) (s : State) : State :=
  match takeMsg (Msg.isDat agent line) s with
  | some (.dat _ _ grant data asked needAck, s) =>
    let s := if needAck then sendMsg (.ackGrant agent line) s else s
    match cacheIx agent with
    | none => handOver agent line data s
    | some c =>
      let held := cacheLine s c line
      match grant with
      | some g =>
        let d : List Byte × Bool := match data, held with
          | some d, _ => d
          | none, some x => (x.data, x.poisoned)
          | none, none => ([], false)
        let s := setCacheLine c line (some { st := g, data := d.1, poisoned := d.2 }) (fillWay c line s)
        let s := if (waitsOf s c line).isEmpty then landLine c line s else s
        if g = .s then askOwner c line s else runWaits c line s
      | none =>
        let s := handOver agent line data s
        let d := data.getD (getBytes s line 64, isPoisoned s line)
        if !asked then s
        else match held with
        | some x =>
          if x.st = .isW ∨ x.st = .iuW ∨ x.st = .sdW then passWaits c line d (setCacheLine c line none s) else s
        | none => passWaits c line d s
  | _ =>
    match takeMsg (Msg.isOld agent line) s with
    | some (.old _ _ h addr v cont p, s) => takeOld agent line h addr v cont p s
    | _ => s

/-- The home takes AckGrant; the transaction ends once everything else about it is done (R229, R232). It may overtake the
response of a holder (R228). DEDUCED: log entry 60. -/
def takeAckGrant (agent : Agent) (line : Nat) (s : State) : State :=
  match takeMsg (· == .ackGrant agent line) s with
  | some (_, s) =>
    match txnOf s line with
    | some t => if t.req.agent = agent then advance line (setTxn line { t with acked := true } s) else s
    | none => s
  | none => s

/-! ### Whole accesses of cacheless agents -/

/-- An agent takes AckEv and no longer holds the line (R231). -/
def takeAckEv (agent : Agent) (line : Nat) (s : State) : State :=
  match cacheIx agent with
  | some c =>
    match takeMsg (· == .ackEv c line) s with
    | some (_, s) =>
      match cacheLine s c line with
      | some x => if x.st = .diW ∨ x.st = .ciW then askOwner c line (setCacheLine c line none s) else s
      | none => s
    | none => s
  | none => s

/-- A message by which what is in progress on a line goes on. -/
def Msg.open (line : Nat) : Msg → Bool
  | .rsp _ _ l _ => l == line
  | .ev _ _ l _ _ => l == line
  | .dat _ l _ _ _ needAck => l == line && needAck
  | .old _ l _ _ _ _ _ => l == line
  | .ackGrant _ l => l == line
  | .ackEv _ l => l == line
  | _ => false

/-- Nothing is in progress on a line. -/
def lineCalm (s : State) (line : Nat) : Bool :=
  (txnOf s line).isNone && (tget [] line s.coh.waiting).isEmpty && !s.coh.msgs.any (Msg.open line)

/-- A line is busy, or messages about it are on their way. -/
def lineMoves (s : State) (line : Nat) : Bool := (txnOf s line).isSome || s.coh.msgs.any (Msg.open line)

/-- One more thing happens on a line: the home takes a writeback or a response, an agent takes its data, its snoop or AckEv, the home
takes AckGrant, or it goes on. The order is one that R228 and R229 allow. DEDUCED: log entry 12. -/
def lineStep (line : Nat) (s : State) : State :=
  match s.coh.msgs.find? fun m => match m with | .ev _ _ l _ _ => l == line | _ => false with
  | some (.ev dirty c _ _ _) => homeWriteback dirty (cacheAgent c) line s
  | _ => match s.coh.msgs.find? (Msg.open line) with
    | some (.rsp k c _ _) => homeResponse k (cacheAgent c) line s
    | some (.dat a _ _ _ _ _) => takeDat a line s
    | some (.old a _ _ _ _ _ _) => takeDat a line s
    | some (.ackGrant a _) => takeAckGrant a line s
    | some (.ackEv c _) => takeAckEv (cacheAgent c) line s
    | _ => match txnOf s line with
      | some t => match t.snoops with
        | (c, k) :: _ => answerSnoop c line k t s
        | [] => advance line s
      | none => s

/-- One more thing happens for a line that is not calm, or whose directory set has no room: on the line itself, at the home that
admits what waits for it, or on another line of its set, whose end makes room (R226, R229). DEDUCED: log entry 12. -/
def calmStep (line : Nat) (s : State) : State :=
  let mates := match (setMates s line).find? (lineMoves s) with
    | some l => lineStep l s
    | none => admitAll s
  if lineMoves s line then lineStep line s
  else match tget [] line s.coh.waiting with
    | r :: _ => if !memOk s line || admits s line r then admitAll s else mates
    | [] => mates

/-- A line becomes calm: what is in progress on it, and what waits for it, goes through; with `room`, until its directory set has a
way for it too. DEDUCED: log entry 12. -/
def calmRun : Nat → Bool → Nat → State → State
  | 0, _, _, s => s
  | f + 1, room, line, s =>
    if lineCalm s line && (!room || dirRoom s line) then s else calmRun f room line (calmStep line s)

/-- A bound that `calmRun` never reaches: a request, a waiting core operation or a message makes at most 64 such things happen. -/
def calmBound (s : State) : Nat :=
  64 * (2 + (s.coh.waiting.map (·.2.length)).sum + s.coh.waits.length + s.coh.txns.length + s.coh.msgs.length)

/-- An access that is one step takes its turn behind everything that has reached the home of its line before it (R229, R256):
that goes through first. DEDUCED: log entry 12. -/
def calmLine (line : Nat) (s : State) : State := calmRun (calmBound s) false line s

/-- The same for an access that needs a directory entry for its line (R226). DEDUCED: log entry 12. -/
def calmPlace (line : Nat) (s : State) : State := calmRun (calmBound s) true line s

/-- An error of the copy of a line that its sole holder, or its forwarder, reads out in answer to a snoop (R116). -/
def forwarderError (line : Nat) (s : State) : State :=
  match holderList (dirOf s line) with
  | c :: _ => agentError c line s
  | [] => s

/-- A calm line as a read finds it (R234, R253): a sole holder answers with its copy. -/
def readCalm (line : Nat) (s : State) : (List Byte × Bool) × State :=
  let s := touch line s
  let s := if (dirOf s line).sole then forwarderError line s else s
  match latestHeld s line with
  | some d => (d, s)
  | none => memReadLine line s

/-- The line as a read by any agent finds it, as one access. DEDUCED: log entry 12. -/
def cohReadLine (line : Nat) (s : State) : (List Byte × Bool) × State := readCalm line (calmLine line s)

/-- Every holder of a line now shares it. -/
def shareAll (line : Nat) (s : State) : State :=
  (holderList (dirOf s line)).foldl (fun s a => match cacheLine s a line with
    | some x => if x.st = .d ∨ x.st = .c then setCacheLine a line (some { x with st := .s }) s else s
    | none => s) s

/-- A RdShare by the stream cache of a die on a calm line, as one access (R107, R230): it holds the line in C, or in S beside its
other holders. -/
def shareMiss (n line : Nat) (s : State) : (List Byte × Bool) × State :=
  let c := 2 + n
  let s := forwarderError line (makeWay c line (makeRoom line (touch line s)))
  let e := dirOf s line
  let r : (List Byte × Bool) × State := match latestHeld s line with
    | some (d, p) => ((d, p), memWriteBack line d p s)
    | none => memReadLine line s
  let s := shareAll line r.2
  let s := setCacheLine c line (some { st := if e.holders = 0 then .c else .s, data := r.1.1, poisoned := r.1.2 }) s
  (r.1, setDir line { e with sole := decide (e.holders = 0), holders := e.holders ||| (1#10 <<< c) } s)

/-- A read by the stream cache of a die that asks for allocation, as one access: a hit answers from the cache, a miss is a
RdShare (R107, R230). DEDUCED: log entry 12. -/
def shareReadLine (n line : Nat) (s : State) : (List Byte × Bool) × State :=
  let c := 2 + n
  if !homeOn s line || ownCanopy s c line then cohReadLine line s
  else
    let s := touch line (calmPlace line s)
    match cacheLine s c line with
    | some x => if x.st = .d ∨ x.st = .c ∨ x.st = .s then ((x.data, x.poisoned), s) else cohReadLine line s
    | none => if homeOn s line ∧ dirRoom s line ∧ cacheRoom s c line then shareMiss n line s else cohReadLine line s

/-- A masked write of a calm line by a cacheless agent (R211, R230, R237, R250); a byte of the mask that is not in `whole` is the result
of a merge of bits (R54). -/
def mergeCalm (line mask whole : Nat) (data : List Byte) (s : State) : State :=
  let full := whole % 2 ^ 64 == fullMask
  let s := killCopies line (!full) (clearResv line (touch line s))
  let s := if full then
      let t := hintTarget s line
      placeLine line data t (match t with | some t => targetUp s t | none => false) s
    else memMergeLine line mask whole data s
  notifyWatchers line s

/-- A masked write of whole bytes of a calm line. -/
def writeCalm (line mask : Nat) (data : List Byte) (s : State) : State := mergeCalm line mask mask data s

/-- A masked write of one line by a cacheless agent, as one access: where a hint places the line, once its directory set has room
(R226). DEDUCED: log entry 12. -/
def cohMergeLine (line mask whole : Nat) (data : List Byte) (s : State) : State :=
  mergeCalm line mask whole data
    (if whole % 2 ^ 64 == fullMask && homeOn s line && places s line (hintTarget s line) then calmPlace line s else calmLine line s)

/-- A masked write of whole bytes of one line. -/
def cohWriteLine (line mask : Nat) (data : List Byte) (s : State) : State := cohMergeLine line mask mask data s

/-- An atomic executed as one access at the home, the memory controller or the Canopy banks (R211, R244, R245): the old
value, whether the line is poisoned, in which case nothing is written (R215), and the state.
DEDUCED: log entry 12. -/
def atomicAt (op : AtomicOp) (addr w x : Nat) (s : State) : (Nat × Bool) × State :=
  let line := lineOf addr
  let r := cohReadLine line s
  let a := atomicLine op addr w x r.1.1
  if r.1.2 then ((a.1, true), r.2)
  else
    ((a.1, false), countFar line (writeCalm line (maskFrom (addr % 64) w) a.2 r.2))

/-- A read of n bytes by a cacheless agent: the bytes, whether any line read is poisoned, and the state. Every line must
be accessible (`rangeOk`). -/
def readLines : Nat → Nat → State → (List Byte × Bool) × State
  | 0, _, s => (([], false), s)
  | k + 1, line, s =>
    let r := cohReadLine line s
    let q := readLines k (line + 64) r.2
    ((r.1.1 ++ q.1.1, r.1.2 || q.1.2), q.2)

/-- A read of n bytes from any address of device memory. -/
def readMem (a n : Nat) (s : State) : (List Byte × Bool) × State :=
  if n = 0 then (([], false), s)
  else
    let r := readLines ((a % 64 + n + 63) / 64) (lineOf a) s
    ((((r.1.1).drop (a % 64)).take n, r.1.2), r.2)

/-- Those of the n bytes from a on, in one line, that lie in the range from `lo` to before `hi`, as a mask. -/
def maskWithin (a n lo hi : Nat) : Nat :=
  let b := max a lo
  maskFrom (b % 64) (min (a + n) hi - b)

/-- A write of bytes to any address of device memory, line by line; those from `lo` to before `hi` are whole bytes, the others results
of a merge of bits (R54). -/
def mergeLines (lo hi : Nat) : Nat → Nat → List Byte → State → State
  | 0, _, _, s => s
  | k + 1, a, l, s =>
    if l = [] then s
    else
      let off := a % 64
      let n := min (64 - off) l.length
      let d := List.replicate off 0 ++ l.take n ++ List.replicate (64 - off - n) 0
      mergeLines lo hi k (a + n) (l.drop n) (cohMergeLine (lineOf a) (maskFrom off n) (maskWithin a n lo hi) d s)

/-- A write of bytes by a cacheless agent, of which those from `lo` to before `hi` are whole. DEDUCED: log entries 12, 121. -/
def mergeMem (lo hi a : Nat) (l : List Byte) (s : State) : State := mergeLines lo hi (l.length / 64 + 2) a l s

/-- A write of bytes by a cacheless agent. DEDUCED: log entry 12. -/
def writeMem (a : Nat) (l : List Byte) (s : State) : State := mergeMem a (a + l.length) a l s

/-- Lines read through the stream cache of a die, with allocation. -/
def shareLines (n : Nat) : Nat → Nat → State → (List Byte × Bool) × State
  | 0, _, s => (([], false), s)
  | k + 1, line, s =>
    let r := shareReadLine n line s
    let q := shareLines n k (line + 64) r.2
    ((r.1.1 ++ q.1.1, r.1.2 || q.1.2), q.2)

/-- A read of n bytes by the engines of a die, allocating in its stream cache when the stream asks for it (R107). -/
def readStream (die : Nat) (alloc : Bool) (a n : Nat) (s : State) : (List Byte × Bool) × State :=
  if n = 0 then (([], false), s)
  else if alloc then
    let r := shareLines die ((a % 64 + n + 63) / 64) (lineOf a) s
    ((((r.1.1).drop (a % 64)).take n, r.1.2), r.2)
  else readMem a n s

/-- The bytes as an observer would read them now, with no effect: the value a read by any agent returns (R234). -/
def peekLine (s : State) (line : Nat) : List Byte :=
  match latestHeld s line with
  | some d => d.1
  | none => getBytes s line 64

/-- n bytes as a read would find them, with no effect. -/
def peekMem (s : State) (a n : Nat) : List Byte :=
  ((((List.range ((a % 64 + n + 63) / 64)).flatMap fun i => peekLine s ((a / 64 + i) * 64)).drop (a % 64)).take n)

/-- A line reads as poisoned. -/
def linePoison (s : State) (l : Nat) : Bool :=
  match latestHeld s l with
  | some d => d.2
  | none => isPoisoned s l

/-- A write that must be performed: whether it met an access error or left its line poisoned (R465, R588).
DEDUCED: log entry 89. -/
def tryWrite (a : Nat) (l : List Byte) (s : State) : Bool × State :=
  if rangeOk s a l.length then
    let s := writeMem a l s
    (!((List.range ((a % 64 + l.length + 63) / 64)).any fun i => linePoison s ((a / 64 + i) * 64)), s)
  else (false, s)

/-- A read that reports: `none` for an access error, else the bytes and their poison. -/
def tryRead (a n : Nat) (s : State) : Option (List Byte × Bool) × State :=
  if rangeOk s a n then
    let r := readMem a n s
    (some r.1, r.2)
  else (none, s)

end Sys2Proof.Machine
end

