-- ==== Sys2Proof/Machine/Events.lean ====
section
/-!
DEFINITION. Machine/Events.lean: tally rings (R463 to R472). Events posted inside a step wait in `evq`; `settle` offers
them to the rings before the step ends, and `forUnit` is the form of every command's meaning.
-/

namespace Sys2Proof.Machine

/-- What ring k keeps beside its objects. -/
def State.ring (s : State) (k : Nat) : Ring := tget Ring.init k s.rings

/-- The state with what ring k keeps replaced. -/
def State.setRing (s : State) (k : Nat) (r : Ring) : State := { s with rings := tset Ring.init k r s.rings }

/-- Slots of ring k, 2^s (R463). -/
def ringSlots (s : State) (k : Nat) : Nat := 2 ^ (s.num 0x5002 (k + 1) % 32)

/-- Base address of ring k. -/
def ringBase (s : State) (k : Nat) : Nat := s.num 0x5002 (k + 1) / 4096 * 4096

/-- Shadow line of ring k. -/
def ringShadow (s : State) (k : Nat) : Nat := s.num 0x5003 (k + 1)

/-- Ring k is enabled. -/
def ringOn (s : State) (k : Nat) : Bool := s.num 0x5001 (k + 1) == 1

/-- PROD and CONS of ring k. -/
def ringProd (s : State) (k : Nat) : Nat := s.num 0x5009 (k + 1)
def ringCons (s : State) (k : Nat) : Nat := s.num 0x5006 (k + 1)

/-- Ring k is full: (PROD + 1) mod 2^s equals CONS (R463). -/
def ringFull (s : State) (k : Nat) : Bool := (ringProd s k + 1) % ringSlots s k == ringCons s k

/-- The position of an area byte in AREA of EVT_RING_FILTER (R473). -/
def areaBit (area : Nat) : Option Nat :=
  if area = 0xF0 then some 15
  else ([0x10, 0x20, 0x24, 0x28, 0x2C, 0x30, 0x38, 0x3C, 0x40, 0x50, 0x54, 0x60, 0x70] : List Nat).findIdx? (· == area)

/-- The filter of ring k matches an event (R464). -/
def filterMatch (s : State) (k : Nat) (e : Ev) : Bool :=
  let f := s.num 0x5004 (k + 1)
  (match areaBit (e.code / 256) with
    | some b => bit f (32 + b)
    | none => false)
  && decide (bits f 49 48 ≤ e.sev) && bit f (if e.job = 0x1F then 16 else e.job)

/-- The 32 bytes of a record (R458). -/
def recordOf (seq : Nat) (e : Ev) : List Byte :=
  leBytes 8 seq ++ leBytes 5 (e.code * 2 ^ 24 + e.source % 4096 * 2 ^ 12 + e.sev % 4 * 2 ^ 10 + e.job % 32 * 2 ^ 5)
    ++ padTo (e.payload.take 19) 19

/-- The ring becomes disabled: INACTIVE, its pending state discarded (R470). -/
def disableRing (k : Nat) (s : State) : State :=
  let s := (s.setNum 0x5001 (k + 1) 0).setNum 0x5008 (k + 1) 0
  s.setRing k { s.ring k with firstLost := none, lostSince := 0 }

/-! ### Delivery -/

/-- The interrupt file that a level and a guest file name: M 0, S 1, guest g is 1 + g (R473, R414). -/
def imsicFile (level guest : Nat) : Nat := if level = 2 then 1 + guest else level

/-- A write of an identity to an interrupt file of a hart (R414). -/
def sendImsic (h file id : Nat) (s : State) : State :=
  let x := s.hart h
  (s.setHart h { x with files := tset [] file (insNat id (tget [] file x.files)) x.files }).emit (.imsic h file id)

/-- MSI-X entry k of a link's function: sent, or left pending while its mask or the function's is set (R469).
DEDUCED: log entry 36. -/
def sendMsix (link entry : Nat) (s : State) : State :=
  let l := s.hlink link
  if l.msixFn || l.msixMask.contains entry then s.setHlink link { l with pending := insNat entry l.pending }
  else s.emit (.msix link entry)

/-- The package may send requests on a link (R444): it is ATTACHED, and its function is in D0 with Bus Master Enable set.
PRESUMED: log entry 48. -/
def linkAttached (s : State) (k : Nat) : Bool := s.num 0x2C01 (k + 1) == 2 && (s.hlink k).busMaster && !(s.hlink k).hot

/-- A link whose host can take an MSI-X message: ATTACHED, with MSI-X enabled (R469). DEDUCED: log entries 34, 36. -/
def msixReady (s : State) (link : Nat) : Bool := linkAttached s link && (s.hlink link).msixOn

/-- The entries left pending that nothing masks any more are sent, once the link takes messages (R444, R469).
DEDUCED: log entries 36, 103. -/
def flushMsix (link : Nat) (s : State) : State :=
  let l := s.hlink link
  if msixReady s link && !l.msixFn then
    let go := l.pending.filter fun e => !l.msixMask.contains e
    go.foldl (fun s e => s.emit (.msix link e)) (s.setHlink link { l with pending := l.pending.filter l.msixMask.contains })
  else s

/-- A Camip session is OPEN. -/
def sessOpen (s : State) (slot : Nat) : Bool := s.num 0x1120 (slot + 1) == 2

/-- CAMIP_STATE of a port: 0 OFF, 1 NO_BEACON, 2 ACTIVE (R485, R503). -/
def refreshCamip (p : Nat) (s : State) : State :=
  s.setNum 0x1116 (p + 1)
    (if s.num 0x1110 (p + 1) = 0 ∨ s.num 0x1111 (p + 1) = 0 then 0 else if lget false s.dict.plca p then 2 else 1)

/-- PLCA status of a port becomes FALSE (R485). -/
def plcaLost (p : Nat) (s : State) : State :=
  if lget false s.dict.plca p then
    let s := refreshCamip p { s with dict := { s.dict with plca := lset s.dict.plca p false } }
    if s.num 0x1111 (p + 1) = 0 then s else post 0x1004 (src 0 0) 0x1F [(1, p)] s
  else s

/-- A frame placed in the transmit queue of a Camip port: sent, or kept while PLCA status is FALSE (R485, R492).
DEDUCED: log entry 31. -/
def camipSend (p : Nat) (o : Out) (s : State) : State :=
  if lget false s.dict.plca p then count 0x58C1 (p + 1) 1 (s.emit o)
  else { s with dict := { s.dict with txq := s.dict.txq ++ [(p, o)] } }

/-- The 24 bytes of a Camip header: VER, SERVICE, FLAGS, the reserved bytes (3 first), SESSION_ID, SEQ, TRANS_ID, LEN and STATUS (R486). -/
def camipHeader (ver svc flags reserved session seq trans len status : Nat) : List Byte :=
  leBytes 1 ver ++ leBytes 1 svc ++ leBytes 1 flags ++ leBytes 1 reserved ++ leBytes 4 session ++ leBytes 8 seq ++ leBytes 2 trans
    ++ leBytes 2 len ++ leBytes 1 status ++ leBytes 3 (reserved / 256)

/-- The Ethernet II frame of a payload from a Camip port, padded to 46 bytes (R486). DESIGN CHOICE: log entry 33. -/
def etherFrame (s : State) (p : Nat) (dest payload : List Byte) : List Byte :=
  sliceOf dest 0 6 ++ sliceOf (s.oct 0x1115 (p + 1)) 0 6 ++ (leBytes 2 (s.num 0x1114 1)).reverse ++ sliceOf payload 0 (max 46 payload.length)

/-- Session slot x of the dictionary server. -/
def State.sess (s : State) (slot : Nat) : Sess := lget Sess.init s.dict.sess slot

/-- The state with a session slot replaced. -/
def State.setSess (s : State) (slot : Nat) (x : Sess) : State :=
  { s with dict := { s.dict with sess := lset s.dict.sess slot x } }

/-- A session closes, in its handshake or open: its slot is free, its response cache empty, and it is reported. Cause 0 END_SESSION, 1 idle,
2 close object, 3 port change, 4 sequence exhausted (R490, R505). DEDUCED: log entry 30. -/
def closeSession (slot cause : Nat) (s : State) : State :=
  if s.num 0x1120 (slot + 1) = 0 then s
  else
    let s := post 0x1002 (src 0 0) 0x1F [(1, s.num 0x1121 (slot + 1)), (1, slot), (1, cause)] s
    let s := ((s.setNum 0x1120 (slot + 1) 0).setNum 0x1121 (slot + 1) 0xFF).setOct 0x1122 (slot + 1) (List.replicate 6 0)
    s.setSess slot { Sess.init with key := (s.sess slot).key }

/-- The secured frame of a session that the package sends next: RESP and SECURED, its own SEQ, and the body under AES-256-GCM with the
header as additional data (R486, R489, R493). PRESUMED: log entry 16. -/
def securedFrame (s : State) (slot svc trans status : Nat) (body : List Byte) : List Byte :=
  let x := s.sess slot
  let h := camipHeader 0x10 svc 0xC0 0 x.id x.txSeq trans body.length status
  etherFrame s (s.num 0x1121 (slot + 1)) (s.oct 0x1122 (slot + 1))
    (h ++ sliceOf (Config.gcmSeal x.key x.txSeq h body) 0 (body.length + 16))

/-- A secured frame of a session is sent, with the next SEQ; a session that has used its last SEQ closes instead (R489).
DEDUCED: log entry 31. -/
def sessionSend (slot : Nat) (notice : Bool) (svc trans status : Nat) (body : List Byte) (s : State) : State :=
  let x := s.sess slot
  let p := s.num 0x1121 (slot + 1)
  if max64 < x.txSeq then closeSession slot 4 s
  else camipSend p (.camip p notice (securedFrame s slot svc trans status body)) (s.setSess slot { x with txSeq := x.txSeq + 1 })

/-- A NOTIFY frame of ring k to a session (R493). -/
def sendNotify (slot k : Nat) (s : State) : State :=
  sessionSend slot true 8 0 0 (leBytes 4 k ++ leBytes 4 (ringProd s k) ++ leBytes 8 (s.ring k).lastSeq) s

/-- Delivery of a PENDING ring: its interrupt goes to each enabled target that can take it, and the ring becomes ACTIVE
when at least one was sent (R468, R469). -/
def deliver (k : Nat) (s : State) : State :=
  if s.num 0x5000 1 = 1 ∧ s.num 0x5008 (k + 1) = 1 then
    let t := s.num 0x5005 (k + 1)
    let im := bit t 63 && hartOn s (bits t 60 54)
    let ms := bit t 62 && msixReady s (bits t 40 40)
    let no := bit t 61 && sessOpen s (bits t 39 36) && decide ((s.sess (bits t 39 36)).txSeq ≤ max64)
    let s := if im then sendImsic (bits t 60 54) (imsicFile (bits t 53 52) (bits t 51 49)) (bits t 48 41) s else s
    let s := if ms then sendMsix (bits t 40 40) k s else s
    let s := if no then sendNotify (bits t 39 36) k s else s
    if im || ms || no then s.setNum 0x5008 (k + 1) 2 else s
  else s

/-- Delivery is tried for every ring, in ascending number. -/
def deliverAll (s : State) : State := (List.range 64).foldl (fun s k => deliver k s) s

/-- An edge of ring k: a ring that it brings to PENDING is delivered at once (R467). -/
def edge (k : Nat) (s : State) : State :=
  let c := s.num 0x5008 (k + 1)
  if c = 0 then deliver k (s.setNum 0x5008 (k + 1) 1) else if c = 2 then s.setNum 0x5008 (k + 1) 3 else s

/-! ### Writing records -/

/-- A record that could not be written: the ring is disabled and EVT_RING_FAILED goes to the others (R465). -/
def ringFailed (k seq : Nat) (s : State) : State :=
  let s := disableRing k (count 0x58B1 (k + 1) 1 s)
  { s with evq := s.evq ++ [{ code := 0x5004, source := src 0 0, sev := severityOf 0x5004, job := 0x1F,
                              payload := payloadOf [(1, k), (8, seq)], except := some k }] }

/-- The next sequence number is used up: after the last one the ring is disabled and EVT_RING_EXHAUSTED goes to the
others (R464, R472). -/
def takeSeq (k : Nat) (s : State) : State :=
  let q := s.num 0x500A (k + 1)
  if q < max64 then s.setNum 0x500A (k + 1) (q + 1)
  else
    let s := disableRing k (s.setNum 0x500A (k + 1) 0)
    { s with evq := s.evq ++ [{ code := 0x5003, source := src 0 0, sev := severityOf 0x5003, job := 0x1F,
                                payload := payloadOf [(1, k)], except := some k }] }

/-- Write one record into ring k, which is not full (R465, R467). -/
def writeRecord (k : Nat) (e : Ev) (s : State) : State :=
  let seq := s.num 0x500A (k + 1)
  let prod := ringProd s k
  let wasEmpty := prod == ringCons s k
  let r1 := tryWrite (ringBase s k + 32 * prod) (recordOf seq e) s
  let prod' := (prod + 1) % ringSlots s k
  let r2 := tryWrite (ringShadow s k) (leBytes 8 prod' ++ leBytes 8 seq) r1.2
  if r1.1 then
    if r2.1 then
      let s := count 0x58B0 (k + 1) 1 (r2.2.setNum 0x5009 (k + 1) prod')
      let s := s.setRing k { s.ring k with lastSeq := seq }
      let s := if wasEmpty then edge k s else s
      takeSeq k s
    else ringFailed k seq (takeSeq k r2.2)
  else ringFailed k seq (takeSeq k r1.2)

/-- An event offered to a full ring is lost and remembered (R466). -/
def loseRecord (k : Nat) (s : State) : State :=
  let r := s.ring k
  let seq := s.num 0x500A (k + 1)
  let r := { r with lost := r.lost + 1, lostSince := r.lostSince + 1,
                    firstLost := match r.firstLost with | some x => some x | none => some seq }
  let s := count 0x58B1 (k + 1) 1 (s.setRing k r)
  let s := (tryWrite (ringShadow s k + 16) (leBytes 8 r.lost) s).2
  takeSeq k s

/-- A CONS write that leaves room in a ring that has lost records: the EVT_RING_LOST record is written first into this ring, with a
sequence number of its own (R466), and the event is offered to the other rings (R464). DEDUCED: log entry 35. -/
def lostRecord (k : Nat) (s : State) : State :=
  let r := s.ring k
  if 0 < r.lostSince ∧ ringOn s k ∧ !ringFull s k then
    let e : Ev := { code := 0x5001, source := src 0 0, sev := severityOf 0x5001, job := 0x1F,
                    payload := payloadOf [(1, k), (8, r.firstLost.getD 0), (8, r.lostSince)], except := some k }
    let s := writeRecord k e (s.setRing k { r with firstLost := none, lostSince := 0 })
    { s with evq := s.evq ++ [e] }
  else s

/-- Offer an event to ring k (R464, R466). DEDUCED: log entry 35. -/
def offerTo (k : Nat) (e : Ev) (s : State) : State :=
  if ringFull s k then loseRecord k s else writeRecord k e s

/-- The rings that take an event: enabled, matching, and not the ring the event tells of (R464, R465). -/
def takers (s : State) (e : Ev) : List Nat :=
  (List.range 64).filter fun k => ringOn s k && filterMatch s k e && !(e.except == some k)

/-- The ring that an event tells of holds it already: the filter matched there too (R464, R466). -/
def ownRing (s : State) (e : Ev) : Bool := match e.except with
  | some k => ringOn s k && filterMatch s k e
  | none => false

/-- Offer one event to every ring that takes it; one that none takes is counted and lost (R464). -/
def offer (e : Ev) (s : State) : State :=
  match takers s e with
  | [] => if ownRing s e then s else count 0x58B2 1 1 s
  | l => l.foldl (fun s k => offerTo k e s) s

/-- Offer the events in the order in which they were posted, those that offering posts included. At the bound of
`settle` nothing is left to offer (log entry 24). DEDUCED: log entry 19. -/
def drainEvents : Nat → State → State
  | 0, s => { s with evq := [] }
  | f + 1, s =>
    match s.evq with
    | [] => s
    | e :: r => drainEvents f (offer e { s with evq := r })

/-- The end of a step: every event posted in it has been offered. Each failed ring, stuck counter, storm, exhausted
ring and error found posts at most once, so the bound is never reached (log entry 24). DEDUCED: log entry 19. -/
def settle (s : State) : State := drainEvents (0x100000000 + s.evq.length) s

/-- The meaning of a command whose units exist is the state `f`, with its events offered; a command that names a unit
the package does not have is no command of the package. DEDUCED: log entry 19. DESIGN CHOICE: log entry 112. -/
def forUnit (ok : Bool) (f : State) : Host.Outcome State Fault Refusal :=
  if ok then .next (settle f) else .fault .noSuchUnit

end Sys2Proof.Machine
end

