-- ==== Sys2Proof/Machine/Crypto.lean ====
section
/-!
DEFINITION. Machine/Crypto.lean: CRC-32 (R267, R273, R393, R529), SHA-384 and ECDSA P-384 (R343, R375, R515, R524), which
the manual names by their standards (log entry 16).
-/

namespace Sys2Proof.Machine

/-- Bits of the reflected IEEE 802.3 polynomial division. -/
def crcBits : Nat → Nat → Nat
  | 0, c => c
  | k + 1, c => crcBits k (if c % 2 = 1 then c / 2 ^^^ 0xEDB88320 else c / 2)

/-- CRC-32 of a byte list, with the IEEE 802.3 polynomial. PRESUMED: log entry 16. -/
def crc32 (l : List Byte) : Nat := l.foldl (fun c b => crcBits 8 (c ^^^ b.toNat)) 0xFFFFFFFF ^^^ 0xFFFFFFFF

/-! ### SHA-384 -/

/-- Round constants 0 to 19. -/
def shaK0 : List (BitVec 64) := [
  0x428A2F98D728AE22, 0x7137449123EF65CD, 0xB5C0FBCFEC4D3B2F, 0xE9B5DBA58189DBBC,
  0x3956C25BF348B538, 0x59F111F1B605D019, 0x923F82A4AF194F9B, 0xAB1C5ED5DA6D8118,
  0xD807AA98A3030242, 0x12835B0145706FBE, 0x243185BE4EE4B28C, 0x550C7DC3D5FFB4E2,
  0x72BE5D74F27B896F, 0x80DEB1FE3B1696B1, 0x9BDC06A725C71235, 0xC19BF174CF692694,
  0xE49B69C19EF14AD2, 0xEFBE4786384F25E3, 0x0FC19DC68B8CD5B5, 0x240CA1CC77AC9C65]

/-- Round constants 20 to 39. -/
def shaK1 : List (BitVec 64) := [
  0x2DE92C6F592B0275, 0x4A7484AA6EA6E483, 0x5CB0A9DCBD41FBD4, 0x76F988DA831153B5,
  0x983E5152EE66DFAB, 0xA831C66D2DB43210, 0xB00327C898FB213F, 0xBF597FC7BEEF0EE4,
  0xC6E00BF33DA88FC2, 0xD5A79147930AA725, 0x06CA6351E003826F, 0x142929670A0E6E70,
  0x27B70A8546D22FFC, 0x2E1B21385C26C926, 0x4D2C6DFC5AC42AED, 0x53380D139D95B3DF,
  0x650A73548BAF63DE, 0x766A0ABB3C77B2A8, 0x81C2C92E47EDAEE6, 0x92722C851482353B]

/-- Round constants 40 to 59. -/
def shaK2 : List (BitVec 64) := [
  0xA2BFE8A14CF10364, 0xA81A664BBC423001, 0xC24B8B70D0F89791, 0xC76C51A30654BE30,
  0xD192E819D6EF5218, 0xD69906245565A910, 0xF40E35855771202A, 0x106AA07032BBD1B8,
  0x19A4C116B8D2D0C8, 0x1E376C085141AB53, 0x2748774CDF8EEB99, 0x34B0BCB5E19B48A8,
  0x391C0CB3C5C95A63, 0x4ED8AA4AE3418ACB, 0x5B9CCA4F7763E373, 0x682E6FF3D6B2B8A3,
  0x748F82EE5DEFB2FC, 0x78A5636F43172F60, 0x84C87814A1F0AB72, 0x8CC702081A6439EC]

/-- Round constants 60 to 79. -/
def shaK3 : List (BitVec 64) := [
  0x90BEFFFA23631E28, 0xA4506CEBDE82BDE9, 0xBEF9A3F7B2C67915, 0xC67178F2E372532B,
  0xCA273ECEEA26619C, 0xD186B8C721C0C207, 0xEADA7DD6CDE0EB1E, 0xF57D4F7FEE6ED178,
  0x06F067AA72176FBA, 0x0A637DC5A2C898A6, 0x113F9804BEF90DAE, 0x1B710B35131C471B,
  0x28DB77F523047D84, 0x32CAAB7B40C72493, 0x3C9EBE0A15C9BEBC, 0x431D67C49C100D4C,
  0x4CC5D4BECB3E42B6, 0x597F299CFC657E2A, 0x5FCB6FAB3AD6FAEC, 0x6C44198C4A475817]

/-- The initial value of SHA-384. -/
def shaInit : List (BitVec 64) := [
  0xCBBB9D5DC1059ED8, 0x629A292A367CD507, 0x9159015A3070DD17, 0x152FECD8F70E5939,
  0x67332667FFC00B31, 0x8EB44A8768581511, 0xDB0C2E0D64F98FA7, 0x47B5481DBEFA4FA4]

/-- The next schedule word, from the 16 before it, oldest first. -/
def shaNext (w : List (BitVec 64)) : BitVec 64 :=
  let x := lget 0 w 1
  let y := lget 0 w 14
  (y.rotateRight 19 ^^^ y.rotateRight 61 ^^^ (y >>> 6)) + lget 0 w 9 +
    (x.rotateRight 1 ^^^ x.rotateRight 8 ^^^ (x >>> 7)) + lget 0 w 0

/-- The rounds: round constants, the next 16 schedule words, and the eight working variables. -/
def shaRounds : List (BitVec 64) → List (BitVec 64) → List (BitVec 64) → List (BitVec 64)
  | [], _, v => v
  | k :: ks, w, v =>
    let e := lget 0 v 4
    let a := lget 0 v 0
    let t1 := lget 0 v 7 + (e.rotateRight 14 ^^^ e.rotateRight 18 ^^^ e.rotateRight 41) +
      ((e &&& lget 0 v 5) ^^^ (~~~e &&& lget 0 v 6)) + k + lget 0 w 0
    let t2 := (a.rotateRight 28 ^^^ a.rotateRight 34 ^^^ a.rotateRight 39) +
      ((a &&& lget 0 v 1) ^^^ (a &&& lget 0 v 2) ^^^ (lget 0 v 1 &&& lget 0 v 2))
    shaRounds ks (w.drop 1 ++ [shaNext w]) [t1 + t2, a, lget 0 v 1, lget 0 v 2, lget 0 v 3 + t1, e, lget 0 v 5, lget 0 v 6]

/-- The number that a big-endian byte list holds, as a word. -/
def shaWord (l : List Byte) : BitVec 64 := BitVec.ofNat 64 (beNat l)

/-- One 128-byte block. -/
def shaBlock (h : List (BitVec 64)) (b : List Byte) : List (BitVec 64) :=
  let w := (List.range 16).map fun i => shaWord ((b.drop (8 * i)).take 8)
  List.zipWith (· + ·) h (shaRounds (shaK0 ++ shaK1 ++ shaK2 ++ shaK3) w h)

/-- All blocks. -/
def shaBlocks : Nat → List (BitVec 64) → List Byte → List (BitVec 64)
  | 0, h, _ => h
  | n + 1, h, l => shaBlocks n (shaBlock h (l.take 128)) (l.drop 128)

/-- The n low bytes of a number, big-endian. -/
def beBytes (n v : Nat) : List Byte := (leBytes n v).reverse

/-- SHA-384. PRESUMED: log entry 16. -/
def sha384 (l : List Byte) : List Byte :=
  let n := l.length
  let p := l ++ [0x80] ++ List.replicate ((239 - n % 128) % 128) 0 ++ beBytes 16 (8 * n)
  ((shaBlocks (p.length / 128) shaInit p).flatMap fun (x : BitVec 64) => beBytes 8 x.toNat).take 48

/-! ### ECDSA P-384 -/

/-- The field prime, the order of the base point, the coefficient b and the base point of P-384. -/
def p384 : Nat := 2 ^ 384 - 2 ^ 128 - 2 ^ 96 + 2 ^ 32 - 1
def n384 : Nat :=
  0xFFFFFFFFFFFFFFFFFFFFFFFFFFFFFFFFFFFFFFFFFFFFFFFFC7634D81F4372DDF581A0DB248B0A77AECEC196ACCC52973
def b384 : Nat :=
  0xB3312FA7E23EE7E4988E056BE3F82D19181D9C6EFE8141120314088F5013875AC656398D8A2ED19D2A85C8EDD3EC2AEF
def gx384 : Nat :=
  0xAA87CA22BE8B05378EB1C71EF320AD746E1D3B628BA79B9859F741E082542A385502F25DBF55296C3A545E3872760AB7
def gy384 : Nat :=
  0x3617DE4A96262C6F5D9E98BF9292DC29F8F41DBD289A147CE9DA3113B5F0B8C00A60B1CE1D7E819D7A431D7C90EA0E5F

/-- a ^ e modulo m, over the k low bits of e. -/
def powMod (m a : Nat) : Nat → Nat → Nat
  | 0, _ => 1 % m
  | k + 1, e =>
    let h := powMod m a k (e / 2)
    let s := h * h % m
    if e % 2 = 1 then s * a % m else s

/-- A point in Jacobian coordinates; z = 0 is the point at infinity. -/
structure JPoint where
  x : Nat
  y : Nat
  z : Nat
  deriving DecidableEq, Repr

/-- a - b modulo the field prime. -/
def fsub (a b : Nat) : Nat := (a + (p384 - b % p384)) % p384

/-- Doubling on y^2 = x^3 - 3 x + b. -/
def JPoint.double (q : JPoint) : JPoint :=
  let d := q.z * q.z % p384
  let g := q.y * q.y % p384
  let b := q.x * g % p384
  let a := 3 * fsub q.x d * (q.x + d) % p384
  let x := fsub (a * a) (8 * b)
  { x := x, y := fsub (a * fsub (4 * b) x) (8 * g * g), z := 2 * q.y * q.z % p384 }

/-- Addition. -/
def JPoint.add (q r : JPoint) : JPoint :=
  if q.z = 0 then r
  else if r.z = 0 then q
  else
    let z1 := q.z * q.z % p384
    let z2 := r.z * r.z % p384
    let u1 := q.x * z2 % p384
    let u2 := r.x * z1 % p384
    let s1 := q.y * r.z * z2 % p384
    let s2 := r.y * q.z * z1 % p384
    if u1 = u2 then (if s1 = s2 then q.double else { x := 1, y := 1, z := 0 })
    else
      let h := fsub u2 u1
      let t := fsub s2 s1
      let hh := h * h % p384
      let hhh := h * hh % p384
      let v := u1 * hh % p384
      let x := fsub (t * t) (hhh + 2 * v)
      { x := x, y := fsub (t * fsub v x) (s1 * hhh), z := q.z * r.z * h % p384 }

/-- A multiple of a point, over the k low bits of the factor. -/
def JPoint.mul (q : JPoint) : Nat → Nat → JPoint
  | 0, _ => { x := 1, y := 1, z := 0 }
  | k + 1, e =>
    let h := (JPoint.mul q k (e / 2)).double
    if e % 2 = 1 then h.add q else h

/-- ECDSA P-384 verification over SHA-384 of a message: the public key as x then y, and the signature as r then s, each 48
bytes big-endian (R343, R403). PRESUMED: log entry 16. -/
def ecdsaOk (key msg sig : List Byte) : Bool :=
  let x := beNat (key.take 48)
  let y := beNat ((key.drop 48).take 48)
  let r := beNat (sig.take 48)
  let s := beNat ((sig.drop 48).take 48)
  if key.length ≠ 96 ∨ sig.length ≠ 96 ∨ r = 0 ∨ n384 ≤ r ∨ s = 0 ∨ n384 ≤ s ∨ p384 ≤ x ∨ p384 ≤ y then false
  else if y * y % p384 ≠ (fsub (x * x % p384 * x) (3 * x) + b384) % p384 then false
  else
    let w := powMod n384 s 384 (n384 - 2)
    let e := beNat (sha384 msg)
    let q := (JPoint.mul { x := gx384, y := gy384, z := 1 } 384 (e * w % n384)).add
      (JPoint.mul { x := x, y := y, z := 1 } 384 (r * w % n384))
    if q.z = 0 then false
    else
      let i := powMod p384 q.z 384 (p384 - 2)
      decide (q.x * (i * i % p384) % p384 % n384 = r)

end Sys2Proof.Machine
end

