-- ==== Sys2Proof/Machine/Images.lean ====
section
/-!
DEFINITION. Machine/Images.lean: the boot flash, its directory and the signed images in it (R513 to R519), and the board record
(R528, R529).
-/

namespace Sys2Proof.Machine

/-- n bytes of the boot flash; a byte never programmed reads 0xFF. -/
def flashBytes (b : Flash) (off n : Nat) : List Byte := (List.range n).map fun i => tget (0xFF : Byte) (off + i) b.bytes

/-- A read of n bytes of the boot flash meets a read error (R517, R582). -/
def flashFails (b : Flash) (off n : Nat) : Bool := b.bad.any fun i => decide (off ≤ i) && decide (i < off + n)

/-- A copy of the flash directory is good (R514). DEDUCED: log entry 45. -/
def flashDirOk (l : List Byte) : Bool :=
  fieldOf l 0 4 == 0x52445148 && zeroRange l 4 4 && zeroRange l 40 20 && crc32 (l.take 60) == fieldOf l 60 4

/-- The flash directory at an offset, where it can be read and is good. -/
def flashDirAt (b : Flash) (o : Nat) : Option (List Byte) :=
  if flashDirOk (flashBytes b o 64) && !flashFails b o 64 then some (flashBytes b o 64) else none

/-- The flash directory: the copy at 0x1000 serves when the first is bad (R514). -/
def flashDir (b : Flash) : Option (List Byte) := (flashDirAt b 0).or (flashDirAt b 0x1000)

/-- Flash offset of bank 0 (A) or 1 (B) of an image type, 1 MC or 2 core: `none` after a directory failure (R514). -/
def bankOffset (b : Flash) (type bank : Nat) : Option Nat :=
  match flashDir b with
  | none => none
  | some l =>
    let o := fieldOf l (8 + 16 * (type - 1) + 8 * bank) 8
    if o % 4096 = 0 then some o else none

/-- MAGIC, TYPE, reserved bytes, size limits and the range of SVN are as R515 states them; an MC image carries LOAD_ADDR 0.
DEDUCED: log entry 44. -/
def imageFormOk (type : Nat) (h : List Byte) : Bool :=
  let n := fieldOf h 32 8
  fieldOf h 0 4 == 0x38565148 && fieldOf h 4 1 == type && decide (fieldOf h 6 1 ≤ 64) && zeroRange h 7 1 && zeroRange h 12 4 && zeroRange h 184 72
    && zeroRange h 352 160
    && (if type = 1 then decide (0x100000 ≤ n) && decide (n ≤ 0x200000) && zeroRange h 16 8
        else decide (1 ≤ n) && decide (n ≤ 0x10000000))

/-- A core image lies in the die-local range of TD0, of which `top` is the end (R519). DEDUCED: log entry 44. -/
def imageRangeOk (top : Nat) (h : List Byte) : Bool :=
  let a := fieldOf h 16 8
  a % 4096 == 0 && decide (0x100000 ≤ a) && decide (a + fieldOf h 32 8 ≤ top)

/-- The key slot that an image names holds the hash of its key (R517). DEDUCED: log entry 44. -/
def imageKeyOk (f : Fuses) (h : List Byte) : Bool :=
  let k := lget [] f.keyHash (fieldOf h 5 1)
  k == sha384 (sliceOf h 88 96) && k.any (· != 0)

/-- The bits blown of a thermometer fuse (R520). -/
def blown (t : BitVec 64) : Nat := popCount t.toNat 64

/-- The thermometer with n bits blown. -/
def thermo (n : Nat) : BitVec 64 := BitVec.ofNat 64 (2 ^ n - 1)

/-- The fuse minimum of an image type. -/
def svnMin (f : Fuses) (type : Nat) : Nat := blown (if type = 1 then f.svnMc else f.svnCore)

/-- The first check of R517 that an image fails, in the order of its table, or 0 when it passes all: of the header as it was read, and the
payload as it stands where it was loaded (R516). DEDUCED: log entry 44. -/
def imageCause (f : Fuses) (type top : Nat) (h loaded : List Byte) (unread : Bool) : Nat :=
  if !imageFormOk type h then 1
  else if type = 2 ∧ !imageRangeOk top h then 7
  else if !imageKeyOk f h then 3
  else if bit f.revoked (fieldOf h 5 1) then 4
  else if !ecdsaOk (sliceOf h 88 96) (h.take 256) (sliceOf h 256 96) then 5
  else if sha384 loaded ≠ sliceOf h 40 48 then 2
  else if fieldOf h 6 1 < svnMin f type then 6
  else if unread then 8
  else 0

/-- The header of an image at a flash offset. -/
def imageHead (b : Flash) (off : Nat) : List Byte := flashBytes b off 512

/-- The payload that follows a header. -/
def imagePayload (b : Flash) (off : Nat) : List Byte := flashBytes b (off + 512) (fieldOf (imageHead b off) 32 8)

/-- The header of a bank; nothing after a directory failure. -/
def bankHead (b : Flash) (type bank : Nat) : List Byte := match bankOffset b type bank with
  | none => []
  | some o => imageHead b o

/-- Why a bank of an image type is rejected, whose payload has been loaded, or 0 when it is accepted (R514, R516, R517).
DEDUCED: log entry 44. -/
def bankCause (f : Fuses) (b : Flash) (type top bank : Nat) (loaded : List Byte) : Nat :=
  match bankOffset b type bank with
  | none => 8
  | some o =>
    let h := imageHead b o
    if imageFormOk type h then imageCause f type top h loaded (flashFails b o (512 + fieldOf h 32 8)) else 1

/-! ### The board record -/

/-- Text of STR(n): printable bytes, then zeros (R476). DEDUCED: log entry 45. -/
def strOk : List Byte → Bool
  | [] => true
  | b :: r => if b = 0 then r.all (· == 0) else decide (0x20 ≤ b.toNat) && decide (b.toNat ≤ 0x7E) && strOk r

/-- Every field of a board record lies in its range (R528). -/
def boardRangeOk (l : List Byte) : Bool :=
  decide (300 ≤ fieldOf l 16 2) && decide (fieldOf l 16 2 ≤ 1400) && decide (fieldOf l 18 1 ≤ 3)
    && decide (fieldOf l 20 1 ≤ 31) && decide (fieldOf l 21 1 ≤ 31) && strOk (sliceOf l 28 16)

/-- What is wrong with a board record: 1 MAGIC or VERSION, 2 CRC, 3 range; `none` when it is valid (R529, R534). -/
def recordFault (l : List Byte) : Option Nat :=
  if fieldOf l 0 4 ≠ 0x42525148 ∨ fieldOf l 4 1 ≠ 1 then some 1
  else if crc32 (l.take 252) ≠ fieldOf l 252 4 then some 2
  else if !boardRangeOk l then some 3
  else none

/-- The board record as read: its 256 bytes and what is wrong with it; 0 is no answer (R529). DEDUCED: log entry 45. -/
def readBoard (b : Board) : List Byte × Option Nat :=
  match b.boardMem with
  | none => (List.replicate 256 0, some 0)
  | some l => (sliceOf l 0 256, recordFault (sliceOf l 0 256))

end Sys2Proof.Machine
end

