-- ==== Sys2Proof/Machine/Attest.lean ====
section
/-!
DEFINITION. Attest.lean: what the package answers as an SPDM 1.2 responder: its certificate chain and measurements (R523, R524), the
algorithms it negotiates, and large messages in chunks (R488). The layouts are those of DSP0274 (log entry 16).
-/

namespace Sys2Proof.Machine

/-- What a service answers: status, body and state. -/
abbrev Answer := (Nat × List Byte) × State

/-- An SPDM message that answers another. -/
def spdmReply (l : List Byte) (s : State) : Answer := ((0, l), s)

/-- The first four bytes of an SPDM 1.2 message: version, code and two parameters. PRESUMED: log entry 16. -/
def spdmHead (code a b : Nat) : List Byte := leBytes 1 0x12 ++ leBytes 1 code ++ leBytes 1 a ++ leBytes 1 b

/-- An SPDM ERROR message. PRESUMED: log entry 16. -/
def spdmError (error code : Nat) (s : State) : Answer := spdmReply (spdmHead 0x7F error code) s

/-- Bytes of an answer that DSP0274 leaves to the package, by the number of the value drawn for the answer, the request code and the part.
PRESUMED: log entry 16. -/
def spdmOwn (n code part k : Nat) : List Byte := sliceOf (Config.spdmAnswer n code (leBytes 1 part)) 0 k

/-- A message with its ECDSA P-384 signature under the alias key (R523). PRESUMED: log entry 16. -/
def signedAnswer (s : State) (n : Nat) (l : List Byte) : List Byte := l ++ sliceOf (Config.sign s.pwr.aliasKey n l) 0 96

/-- The certificate chain of slot 0: its length, the SHA-384 of the root certificate, and the root, device and alias certificates (R523).
PRESUMED: log entry 16. -/
def certChain (s : State) : List Byte :=
  let l := s.oct 0x1001 3 ++ s.oct 0x1001 1 ++ s.oct 0x1001 4
  leBytes 2 (52 + l.length) ++ leBytes 2 0 ++ sha384 (s.oct 0x1001 3) ++ l

/-- The largest SPDM message in one piece (R488). -/
def dataTransfer : Nat := 1460

/-- Flags of CAPABILITIES: certificates, CHALLENGE, signed measurements and chunks; on Camip also encrypted and authenticated sessions with
mutual authentication, KEY_EXCHANGE, HEARTBEAT and KEY_UPDATE (R488, R523). PRESUMED: log entry 16. -/
def spdmFlags (p : Nat) : Nat := if p < 2 then 0x263D6 else 0x20016

/-- ALGORITHMS: ECDSA P-384, SHA-384, and for sessions secp384r1, AES-256-GCM, ECDSA P-384 of the requester and the SPDM key schedule (R488).
PRESUMED: log entry 16. -/
def algorithms : List Byte :=
  spdmHead 0x63 4 0 ++ leBytes 2 52 ++ leBytes 1 1 ++ leBytes 1 2 ++ leBytes 4 0x04 ++ leBytes 4 0x80 ++ leBytes 4 0x02 ++ leBytes 12 0
    ++ leBytes 4 0 ++ ([(2, 0x10), (3, 0x02), (4, 0x80), (5, 0x01)] : List (Nat × Nat)).flatMap fun x =>
      leBytes 1 x.1 ++ leBytes 1 0x20 ++ leBytes 2 x.2

/-- CERTIFICATE: the portion asked for of slot 0's chain, and what remains after it (R523). PRESUMED: log entry 16. -/
def certificate (body : List Byte) (s : State) : Answer :=
  let l := certChain s
  let off := leNat (sliceOf body 2 2)
  let k := min (leNat (sliceOf body 4 2)) (l.length - off)
  if leNat (sliceOf body 0 1) % 16 ≠ 0 ∨ l.length ≤ off then spdmError 0x01 0 s
  else spdmReply (spdmHead 0x02 0 0 ++ leBytes 2 k ++ leBytes 2 (l.length - off - k) ++ sliceOf l off k) s

/-- CHALLENGE_AUTH: the chain's digest, a nonce and the summary of measurements asked for, signed (R523). PRESUMED: log entry 16. -/
def challenge (body : List Byte) (s : State) : Answer :=
  let r := s.draw
  let summary := if leNat (sliceOf body 1 1) = 0 then [] else spdmOwn r.1 0x83 1 48
  spdmReply (signedAnswer s r.1
    (spdmHead 0x03 0 1 ++ sha384 (certChain s) ++ spdmOwn r.1 0x83 0 32 ++ summary ++ leBytes 2 0)) r.2

/-- The value of a measurement block, and whether it is raw (R524). -/
def measurementOf (s : State) : Nat → Option (Bool × List Byte)
  | 1 => some (false, s.oct 0x1002 3)
  | 2 => some (false, s.oct 0x1002 6)
  | 3 => some (true,
      leBytes 1 s.fuses.revoked ++ leBytes 1 (blown s.fuses.svnMc) ++ leBytes 1 (blown s.fuses.svnCore) ++ leBytes 1 (s.num 0x5405 1))
  | 4 => some (true,
      leBytes 1 (s.num 0x1000 2) ++ leBytes 1 (s.num 0x3C00 1) ++ leBytes 1 (s.num 0x6000 1) ++ leBytes 1 (s.num 0x2400 1))
  | 5 => some (false, sha384 (s.oct 0x7000 2))
  | 6 => some (true, s.oct 0x1101 4)
  | _ => none

/-- A measurement block: its index, the DMTF form, and the value with its kind (R524). PRESUMED: log entry 16. -/
def measurementBlock (s : State) (n b : Nat) : List Byte :=
  match measurementOf s b with
  | some (raw, v) =>
    leBytes 1 b ++ leBytes 1 1 ++ leBytes 2 (v.length + 3)
      ++ leBytes 1 (leNat (spdmOwn n 0xE0 b 1) % 128 + 128 * b2n raw) ++ leBytes 2 v.length ++ v
  | none => []

/-- MEASUREMENTS: the block asked for, their number for 0, or all for 0xFF, signed (R523, R524). PRESUMED: log entry 16. -/
def measurements (b : Nat) (s : State) : Answer :=
  let asked := if b = 0 then [] else if b = 0xFF then upTo 1 6 else [b]
  if asked.any fun k => (measurementOf s k).isNone then spdmError 0x01 0 s
  else
    let r := s.draw
    let blocks := asked.flatMap (measurementBlock s r.1)
    spdmReply (signedAnswer s r.1 (spdmHead 0x60 (if b = 0 then 6 else 0) 0 ++ leBytes 1 asked.length ++ leBytes 3 blocks.length ++ blocks
      ++ spdmOwn r.1 0xE0 0 32 ++ leBytes 2 0)) r.2

/-- KEY_EXCHANGE_RSP: the package's half of the session ID, its request for mutual authentication, and its exchange data, signed (R488, R523).
PRESUMED: log entry 16. -/
def keyExchangeReply (slot : Nat) (s : State) : Answer :=
  let r := s.draw
  let opaque_ := (Config.spdmAnswer r.1 0xE4 (leBytes 1 3)).take 1024
  spdmReply (signedAnswer s r.1
    (leBytes 1 0x12 ++ leBytes 1 0x64 ++ spdmOwn r.1 0xE4 0 1 ++ leBytes 1 0 ++ leBytes 2 ((s.sess slot).id / 65536) ++ leBytes 1 1
      ++ spdmOwn r.1 0xE4 1 1 ++ spdmOwn r.1 0xE4 2 128 ++ leBytes 2 opaque_.length ++ opaque_) ++ spdmOwn r.1 0xE4 4 48) r.2

/-- FINISH_RSP. PRESUMED: log entry 16. -/
def finishReply (s : State) : Answer :=
  let r := s.draw
  spdmReply (spdmHead 0x65 0 0 ++ Config.spdmAnswer r.1 0xE5 []) r.2

/-- KEY_UPDATE_ACK, which repeats two bytes of the request. PRESUMED: log entry 16. -/
def updateReply (s : State) : Answer :=
  let r := s.draw
  spdmReply (leBytes 1 0x12 ++ leBytes 1 0x69 ++ spdmOwn r.1 0xE9 0 2) r.2

/-- An answer that is longer than the room for it is fetched in chunks (R488). PRESUMED: log entry 16. -/
def fitted (p room : Nat) (a : Answer) : Answer :=
  if a.1.2.length ≤ room then a
  else
    let r := a.2.draw
    let m : LargeMsg := { port := p, handle := r.1 % 256, seq := 0, size := a.1.2.length, rest := a.1.2 }
    spdmReply (spdmHead 0x7F 0x0F 0 ++ leBytes 1 m.handle)
      { r.2 with dict := { r.2.dict with large := m :: r.2.dict.large.filter (·.port != p) } }

/-- CHUNK_GET: the next chunk of the answer held for the path (R488). PRESUMED: log entry 16. -/
def chunkGet (p : Nat) (body : List Byte) (s : State) : Answer :=
  let others := s.dict.large.filter (·.port != p)
  match s.dict.large.find? (·.port == p) with
  | none => spdmError 0x04 0 s
  | some m =>
    if leNat (sliceOf body 1 1) ≠ m.handle ∨ leNat (sliceOf body 2 2) ≠ m.seq then
      spdmError 0x01 0 { s with dict := { s.dict with large := others } }
    else
      let size := if m.seq = 0 then leBytes 4 m.size else []
      let k := min (dataTransfer - 12 - size.length) m.rest.length
      let last := decide (m.rest.length = k)
      spdmReply (spdmHead 0x06 (b2n last) m.handle ++ leBytes 2 m.seq ++ leBytes 2 0 ++ leBytes 4 k ++ size ++ m.rest.take k)
        { s with dict := { s.dict with large :=
            if last then others else { m with seq := m.seq + 1, rest := m.rest.drop k } :: others } }

/-- CHUNK_SEND: acknowledged, and with the last chunk the answer to the whole message (R488). PRESUMED: log entry 16. -/
def chunkSend (p handle seq : Nat) (last : Bool) (run : State → Answer) (s : State) : Answer :=
  let others := s.dict.chunks.filter (·.1 != p)
  let ack := spdmHead 0x05 0 handle ++ leBytes 2 seq
  if seq ≠ 0 ∧ !s.dict.chunks.contains (p, handle, seq) then spdmError 0x01 0 { s with dict := { s.dict with chunks := others } }
  else if last then
    let a := run { s with dict := { s.dict with chunks := others } }
    spdmReply (ack ++ a.1.2) a.2
  else spdmReply ack { s with dict := { s.dict with chunks := (p, handle, seq + 1) :: others } }

/-- The answers of negotiation and attestation; the body is what follows version and code. A message of another code is UnsupportedRequest
(R523). PRESUMED: log entry 16. -/
def attestReply (p code : Nat) (body : List Byte) (s : State) : Answer :=
  let r := s.draw
  match code with
  | 0x84 => spdmReply (leBytes 1 0x10 ++ leBytes 1 0x04 ++ leBytes 3 0 ++ leBytes 1 1 ++ leBytes 2 0x1200) s
  | 0xE1 =>
    spdmReply (spdmHead 0x61 0 0 ++ leBytes 1 0 ++ spdmOwn r.1 0xE1 0 1 ++ leBytes 2 0 ++ leBytes 4 (spdmFlags p) ++ leBytes 4 dataTransfer
      ++ spdmOwn r.1 0xE1 1 4) r.2
  | 0xE3 => spdmReply algorithms s
  | 0x81 => spdmReply (spdmHead 0x01 0 1 ++ sha384 (certChain s)) s
  | 0x82 => certificate body s
  | 0x83 => challenge body s
  | 0xE0 => measurements (leNat (sliceOf body 1 1)) s
  | 0x85 => spdmError 0x01 0 s
  | 0x86 => chunkGet p body s
  | _ => spdmError 0x07 code s

end Sys2Proof.Machine
end

