-- ==== Sys2Proof/WellFormed.lean ====
section
/-!
DEFINITION. WellFormed.lean: which commands name units that the package has (R5, R133, R237, R298, R463, R488, R494) and
carry data of the size their row fixes. Every meaning runs on these commands and no others.
-/

namespace Sys2Proof

/-- A dictionary path that exists: ports A and B, sixteen session slots, four channels of each kind (R488, R494). A Camip frame of the
SPDM service is the row SPDM's. DESIGN CHOICE: log entry 32. -/
def rqOk (rq : Request) : Bool :=
  match rq.src with
  | .camip port _ sec _ =>
    decide (port < 2) && sec.all (fun x => decide (x.1 < 16)) && !rq.raw.any (fun x => x.1 == 0x10)
  | .host chan => decide (chan < 4)
  | .core chan => decide (chan < 4)

/-- A Camip frame that names a session slot names one of the sixteen (R488). -/
def frameSlotOk (f : CamipFrame) : Bool :=
  match f.secured with
  | some (slot, _) => decide (slot < 16)
  | none => true

/-- A die that has a self-test (R5). -/
def unitOk : Unit3 → Bool
  | .td n => decide (n < 8)
  | .hd d => decide (d < 2)
  | .ld u => decide (u < 2)

/-- An agent of coherence (R224). -/
def agentOk : Agent → Bool
  | .hd d => decide (d < 2)
  | .td n => decide (n < 8)
  | .wm n => decide (n < 8)
  | .eng n => decide (n < 8)
  | .lu u => decide (u < 2)
  | .pcie => true
  | .mc => true
  | .remote => true

/-- The address of a line is a multiple of 64; one outside the address map is a hole, which the home or the agent meets (R195).
DESIGN CHOICE: log entry 112. -/
def lineOk (line : Nat) : Bool := decide (line % 64 = 0)

/-- A port of the package, or `none` for frames that the package itself originates. -/
def ingressOk : Option Nat → Bool
  | some p => decide (p < 24)
  | none => true

/-- An SPDM message that names a session slot names one of the sixteen (R488). -/
def spdmOk : SpdmMsg → Bool
  | .finish slot _ _ => decide (slot < 16)
  | .keyUpdate slot => decide (slot < 16)
  | .endSession slot => decide (slot < 16)
  | .attest _ _ => true
  | .measurement _ => true
  | .keyExchange _ => true

/-- A channel named as memory package and channel lies in a group (R203). -/
def channelOk (group : Nat) : Option (Nat × Nat) → Bool
  | some (package, channel) => decide (package / 4 = group) && decide (channel < 4)
  | none => true

/-- Bytes of one store to a register or to a channel's body: 1, 2, 4 or 8 (R135, R431, R494).
DEDUCED: log entry 38. DESIGN CHOICE: log entry 112. -/
def storeWidth (w : Nat) : Bool := decide (w = 1 ∨ w = 2 ∨ w = 4 ∨ w = 8)

/-- A command that exists on the package. DESIGN CHOICE: log entry 112. -/
def Instr.wf : Instr → Bool
  | .powerUp _ => true
  | .restIntervalExpiry _ => true
  | .enDeassert => true
  | .powerFault _ _ => true
  | .timeReferenceStart _ _ => true
  | .settingsHoldExpiry => true
  | .domainRamp _ => true
  | .domainRampTimeout domain => decide (domain < 80)
  | .dieSelftestPowerup unit _ => unitOk unit
  | .memChannelTrainingDone group failed => decide (group < 8) && channelOk group failed
  | .memInitialisationDone group => decide (group < 8)
  | .coreImageLoad => true
  | .secReady rq _ => rqOk rq
  | .configRequest access => decide (access.link < 2)
  | .read rq _ _ => rqOk rq
  | .write rq _ _ _ _ => rqOk rq
  | .readMulti rq _ => rqOk rq
  | .writeMulti rq _ => rqOk rq
  | .describe rq _ _ => rqOk rq
  | .domRead rq _ _ _ _ => rqOk rq
  | .domWrite rq _ _ _ _ => rqOk rq
  | .spdm port msg => decide (port < 4) && spdmOk msg.msg && frameSlotOk msg.frame
  | .ident port frame => decide (port < 2) && frameSlotOk frame
  | .camipSessionIdleTimeout slot => decide (slot < 16)
  | .camipSessionClose rq slot _ => rqOk rq && decide (slot < 16)
  | .camipEnable rq port _ => rqOk rq && decide (port < 2)
  | .camipNodeId rq port _ => rqOk rq && decide (port < 2)
  | .plcaBeaconLost port => decide (port < 2)
  | .notifyRepeat ring => decide (ring < 64)
  | .mailboxCmd _ chan link _ => decide (chan < 4) && decide (link < 2)
  | .dictReplayDone rq _ => rqOk rq
  | .dictHoldMs rq _ => rqOk rq
  | .dictPathWrite rq _ => rqOk rq
  | .memInitStart rq _ => rqOk rq
  | .secKeyRevoke rq _ => rqOk rq
  | .secSvnCommit rq _ => rqOk rq
  | .srvTimeReselect rq _ => rqOk rq
  | .timerefLoss => true
  | .referenceLoss => true
  | .tnsDieEnable rq _ => rqOk rq
  | .tnsQuadEnable rq die _ => rqOk rq && decide (die < 8)
  | .tnsCanopyEnable rq die _ => rqOk rq && decide (die < 8)
  | .srvClusterEnable rq hd _ => rqOk rq && decide (hd < 2)
  | .pwrMemgrpEnable rq _ => rqOk rq
  | .pwrLdEnable rq _ => rqOk rq
  | .domainSwitchOff domain => decide (domain < 80)
  | .domainRegulatorFail domain _ => decide (domain < 80)
  | .cappingSample _ => true
  | .pwrInputWPeak rq _ => rqOk rq
  | .lpddrRefresh group => decide (group < 8)
  | .mr4Read group _ _ => decide (group < 8)
  | .memScrubVisit _ _ _ => true
  | .canopyScrubVisit _ _ => true
  | .memGroupFail group channel => decide (group < 8) && channelOk group channel
  | .hsRateMeasure _ => true
  | .tnsSelftestStart rq _ => rqOk rq
  | .selftestDone die _ => decide (die < 8)
  | .tnsDoorbell die queue _ => decide (die < 8) && decide (queue < 32)
  | .controlRegisterWrite source _ width _ =>
    (match source with
      | .bar0 k => decide (k < 2)
      | .hart h => decide (h < 72)) && storeWidth width
  | .tnsDqCtrlEnable rq die queue _ => rqOk rq && decide (die < 8) && decide (queue < 32)
  | .tnsDqReset rq _ => rqOk rq
  | .dqResetDone die queue => decide (die < 8) && decide (queue < 32)
  | .descriptorTake die => decide (die < 8)
  | .splitNotice root _ die => decide (root < 8) && decide (die < 8)
  | .operationStart die _ => decide (die < 8)
  | .nop die _ => decide (die < 8)
  | .mma die _ => decide (die < 8)
  | .mmaDrain die _ => decide (die < 8)
  | .drain die _ => decide (die < 8)
  | .tileRestore die _ => decide (die < 8)
  | .vecMap die _ => decide (die < 8)
  | .vecReduce die _ => decide (die < 8)
  | .stashBegin die _ => decide (die < 8)
  | .stashPut die _ => decide (die < 8)
  | .regrowPut die _ => decide (die < 8)
  | .stashFree die _ => decide (die < 8)
  | .operationComplete die _ => decide (die < 8)
  | .tnsSlotBindBound rq slot _ => rqOk rq && decide (slot < 32)
  | .tnsSlotBindRelease rq slot _ => rqOk rq && decide (slot < 32)
  | .slotReleaseDone slot => decide (slot < 32)
  | .tnsStashPoolPeak rq die job _ => rqOk rq && decide (die < 8) && decide (job < 16)
  | .rdShare agent line => agentOk agent && lineOk line
  | .rdUnique agent line => agentOk agent && lineOk line
  | .promote agent line => agentOk agent && lineOk line
  | .rdPeek agent line => agentOk agent && lineOk line
  | .rdPeekWatch agent line => agentOk agent && lineOk line
  | .wrFull agent line bytes => agentOk agent && lineOk line && decide (bytes.length = 64)
  | .wrHint agent line bytes _ => agentOk agent && lineOk line && decide (bytes.length = 64)
  | .wrMasked agent line mask bytes => agentOk agent && lineOk line && decide (mask < 2 ^ 64) && decide (bytes.length = 64)
  | .atomicHome agent hart _ width _ _ => agentOk agent && decide (hart < 72) && decide (width = 4 ∨ width = 8)
  | .snpShare agent line => agentOk agent && lineOk line
  | .snpUnique agent line => agentOk agent && lineOk line
  | .snpKill agent line => agentOk agent && lineOk line
  | .snpPeek agent line => agentOk agent && lineOk line
  | .watchNotice die line => decide (die < 8) && lineOk line
  | .rspNone agent line => agentOk agent && lineOk line
  | .rspSentKeep agent line => agentOk agent && lineOk line
  | .rspSentGone agent line => agentOk agent && lineOk line
  | .wbInFlight agent line => agentOk agent && lineOk line
  | .dat agent line => agentOk agent && lineOk line
  | .evDirty agent line => agentOk agent && lineOk line
  | .evClean agent line => agentOk agent && lineOk line
  | .ackGrant agent line => agentOk agent && lineOk line
  | .ackEv agent line => agentOk agent && lineOk line
  | .ackWr agent line => agentOk agent && lineOk line
  | .cacheEviction agent line => agentOk agent && lineOk line
  | .agentLost agent => agentOk agent
  | .cohHomeEnableSet rq _ => rqOk rq
  | .cohHomeEnableClear rq _ => rqOk rq
  | .amo hart _ width _ _ => decide (hart < 72) && decide (width = 4 ∨ width = 8)
  | .lr hart _ width => decide (hart < 72) && decide (width = 4 ∨ width = 8)
  | .sc hart _ width _ => decide (hart < 72) && decide (width = 4 ∨ width = 8)
  | .streamingStore hart _ bytes => decide (hart < 72) && decide (bytes.length = 64)
  | .cboClean hart _ => decide (hart < 72)
  | .cboFlush hart _ => decide (hart < 72)
  | .cboInval hart _ => decide (hart < 72)
  | .hartStartPc hart _ => decide (hart < 72)
  | .coreCacheUe hd error hart _ => decide (hd < 2) && decide (error.level < 4) && decide (hart < 72)
  | .fabPortEnable rq _ => rqOk rq
  | .cmisRead port _ => decide (port < 24)
  | .portLaneTrainingDone port => decide (port < 24)
  | .portTrainTimeout port => decide (port < 24)
  | .portRetryTimer port => decide (port < 24)
  | .fabPortExpect rq port _ _ => rqOk rq && decide (port < 24)
  | .laneFailure port => decide (port < 24)
  | .linkUnitReceive port _ => decide (port < 24)
  | .nak port _ => decide (port < 24)
  | .replayTimeout port => decide (port < 24)
  | .frameRoute port vl => ingressOk port && decide (vl < 4)
  | .data port => ingressOk port
  | .rdReq port => ingressOk port
  | .rdRsp port => ingressOk port
  | .wrReq port => ingressOk port
  | .wrPart port => ingressOk port
  | .wrAck port => ingressOk port
  | .ctrl port => ingressOk port
  | .fellNotice port => ingressOk port
  | .identExchange port => decide (port < 24)
  | .ringRecordWrite port => ingressOk port
  | .remoteTimeout _ => true
  | .vlStall port vl => decide (port < 24) && decide (vl < 4)
  | .sendDoorbell job _ => decide (job < 16)
  | .sendDescriptor job => decide (job < 16)
  | .colDoorbell job _ => decide (job < 16)
  | .colDescriptorTake job => decide (job < 16)
  | .colNop job path => decide (job < 16) && decide (path < 16)
  | .reduce job path => decide (job < 16) && decide (path < 16)
  | .reduceHop job path => decide (job < 16) && decide (path < 16)
  | .broadcast job path => decide (job < 16) && decide (path < 16)
  | .prism job path => decide (job < 16) && decide (path < 16)
  | .collectiveComplete job path => decide (job < 16) && decide (path < 16)
  | .luDoorbell job _ => decide (job < 16)
  | .luNop job => decide (job < 16)
  | .ortho job => decide (job < 16)
  | .norm job => decide (job < 16)
  | .update job => decide (job < 16)
  | .stemRecord job _ => decide (job < 16)
  | .stragglerRelease job _ => decide (job < 16)
  | .memberList job _ _ => decide (job < 16)
  | .normReport job _ => decide (job < 16)
  | .clipRecord job _ _ _ => decide (job < 16)
  | .heartbeat job _ => decide (job < 16)
  | .faultReport job _ => decide (job < 16)
  | .epochPlan job _ => decide (job < 16)
  | .ready job _ => decide (job < 16)
  | .start job _ => decide (job < 16)
  | .prismPlan job _ _ _ _ path => decide (job < 16) && decide (path < 16)
  | .switch job _ => decide (job < 16)
  | .partDone job _ => decide (job < 16)
  | .ckptDone job _ => decide (job < 16)
  | .snagReport job _ => decide (job < 16)
  | .jobCtrlStart rq job => rqOk rq && decide (job < 16)
  | .jobCtrlStop rq job => rqOk rq && decide (job < 16)
  | .jobCtrlSpare rq job => rqOk rq && decide (job < 16)
  | .jobKick rq job _ => rqOk rq && decide (job < 16)
  | .jobSwitch rq job _ => rqOk rq && decide (job < 16)
  | .watchdogExpiry job => decide (job < 16)
  | .heartbeatTimer job => decide (job < 16)
  | .deadTimeout job _ => decide (job < 16)
  | .restartTimeout job => decide (job < 16)
  | .journalReplay turn => decide (turn.job < 16)
  | .requestAccept job _ _ _ _ _ _ => decide (job < 16)
  | .resultDelivery turn => decide (turn.job < 16) && decide (turn.chan < 240)
  | .attach link _ => decide (link < 2)
  | .detach link => decide (link < 2)
  | .pcieLinkUp link _ _ => decide (link < 2)
  | .pcieLinkDown link => decide (link < 2)
  | .pcieReset link _ => decide (link < 2)
  | .busMasterDisable link => decide (link < 2)
  | .inboundRead link _ _ => decide (link < 2)
  | .inboundWrite link _ _ _ => decide (link < 2)
  | .inboundAtomicop link _ width _ _ => decide (link < 2) && decide (width = 4 ∨ width = 8 ∨ width = 16)
  | .setShared link _ => decide (link < 2)
  | .setDevice link _ => decide (link < 2)
  | .flush link _ => decide (link < 2)
  | .ack job _ => decide (job < 16)
  | .outboundReadCompletion _ _ => true
  | .hostCplTimeout _ => true
  | .eventPost hart _ => decide (hart < 72)
  | .evtRingCons ring _ => decide (ring < 64)
  | .evtRingDone ring => decide (ring < 64)
  | .evtRingEnable rq ring _ => rqOk rq && decide (ring < 64)
  | .evtGlobalEnable rq _ => rqOk rq
  | .evtRingTarget rq ring _ => rqOk rq && decide (ring < 64)
  | .timerInterrupt hart _ => decide (hart < 72)
  | .hartStop hart => decide (hart < 72)
  | .timeReferenceReturn _ => true
  | .plcaStatusTrue port => decide (port < 2)
  | .vinCrosses20v _ => true
  | .pwrRailTargetMv rq die _ => rqOk rq && decide (die < 8)
  | .domainRampDone domain => decide (domain < 80)
  | .landingOperationComplete job => decide (job < 16)
end Sys2Proof
end

