-- ==== Sys2Proof/Machine/Coherence.lean ====
section
/-!
DEFINITION. Machine/Coherence.lean: the commands of the coherence protocol (R224 to R241), homes turned on and off, and lost
agents (R250 to R253). A request row is the agent sending the request and the home taking it; the other rows each take one message.
-/

namespace Sys2Proof.Machine

/-! ### Homes turned on and off, and lost agents -/

/-- Home n becomes ON, when its group is READY and its Canopy pair is powered (R250). DEDUCED: log entry 60. -/
def homeOnAllowed (s : State) (n : Nat) : Bool := s.memState n == 2 && s.on (domCanopy n)

/-- Home n becomes DRAINING: every entry whose line is idle is back-invalidated; with none left it is OFF (R251).
DEDUCED: log entry 60. -/
def drainHome (n : Nat) (s : State) : State :=
  let s := s.setNum 0x2800 (n + 1) 2
  let lines := (s.coh.dir.map (·.1)).filter fun l => homeOf s l == some n && (txnOf s l).isNone
  let s := lines.foldl (fun s l => backInvalidate l s) s
  if s.coh.dir.any (fun e => homeOf s e.1 == some n) || s.coh.txns.any (fun e => homeOf s e.1 == some n) then s
  else s.setNum 0x2800 (n + 1) 0

/-- A caching agent drained before its domain goes off: what is in progress on its lines goes through, its D lines are written
back and its C lines given up (R251). -/
def drainAgent (c : Nat) (s : State) : State :=
  let s := (tget [] c s.coh.caches).foldl (fun s e => calmLine e.1 s) s
  (tget [] c s.coh.caches).foldl (fun s e =>
    let s := agentError c e.1 s
    let s := match cacheLine s c e.1 with
      | some x => if x.st = .d then memWriteBack e.1 x.data x.poisoned s else s
      | none => s
    dropHolder c e.1 (loseResv c e.1 (setCacheLine c e.1 none s))) s

/-- Poison every unit of a line. -/
def poisonLine (line : Nat) (s : State) : State := (poisonUnits s line).foldl (fun s u => setPoison s u true) s

/-- The lines that agent c alone holds: the directory records it as SOLE holder, or a holder has forwarded the line to it and
the home has yet to record that (R252). DEDUCED: log entry 59. -/
def soleLines (s : State) (c : Nat) : List Nat :=
  (s.coh.dir.filter fun e => e.2.sole && e.2.holders.toNat.testBit c).map (·.1) ++
    (s.coh.txns.filter fun e => cacheIx e.2.req.agent == some c && e.2.req.kind == .rdUnique && e.2.granted && !e.2.done).map (·.1)

/-- What is left of a transaction when caching agent c is lost: a snoop outstanding to it counts as answered RspNone, its EvDirty
is no longer awaited, and a transaction of its own waits for no AckGrant (R252). DEDUCED: log entry 59. -/
def Txn.without (c : Nat) (t : Txn) : Txn :=
  { t with snoops := t.snoops.filter (fun x => !(x.1 == c)), wbWait := if t.wbWait = some c then none else t.wbWait,
           acked := t.acked || cacheIx t.req.agent == some c }

/-- What the homes do when a caching agent is lost (R252): its sole lines are poisoned and counted, it leaves every
shared entry, and its requests and snoops no longer hold a line. DEDUCED: log entry 59. -/
def agentGone (c : Nat) (s : State) : State :=
  let sole := soleLines s c
  let listed := s.coh.dir.filter fun e => e.2.holders.toNat.testBit c
  let counts := (List.range 8).map fun n => (sole.filter fun l => homeOf s l == some n).length
  let s := sole.foldl (fun s l => poisonLine l s) s
  let s := listed.foldl (fun s e => dropHolder c e.1 s) s
  let s := (List.range 8).foldl (fun s n => if lget 0 counts n = 0 then s else count 0x5855 (n + 1) (lget 0 counts n) s) s
  let s := { s with coh := { s.coh with
      caches := tset [] c [] s.coh.caches, lost := insNat c s.coh.lost,
      waiting := s.coh.waiting.filterMap (fun (e : Nat × List Req) =>
        let l := e.2.filter fun (r : Req) => !(cacheIx r.agent == some c)
        if l.isEmpty then none else some (e.1, l)),
      resv := s.coh.resv.filter (fun e => e.2.atHome || !(e.1 / 36 == c)),
      waits := s.coh.waits.filter (fun w => !(w.die == c)),
      l1d := tkeep (fun h => !(h / 36 == c)) s.coh.l1d, l1i := tkeep (fun h => !(h / 36 == c)) s.coh.l1i, l2 := tkeep (fun h => !(h / 36 == c)) s.coh.l2,
      msgs := s.coh.msgs.filter (fun m => !(m.lostWith c)) } }
  let s := s.coh.txns.foldl (fun (s : State) (e : Nat × Txn) => match txnOf s e.1 with
    | some t => advance e.1 (setTxn e.1 (t.without c) s)
    | none => s) s
  post 0x2801 (src 7 0) 0x1F ((1, c) :: (List.range 8).map fun n => (2, Nat.min (lget 0 counts n) 0xFFFF)) s

/-! ### The commands -/

/-- RDSHARE: a caching agent's read miss reaches the home (R230). -/
def execRdShare (agent : Agent) (line : Nat) (s : State) : Host.Outcome State Fault Refusal :=
  forUnit (Instr.wf (.rdShare agent line)) (readRequest agent line .rdShare .isW s)

/-- RDUNIQUE: a write or near atomic that misses (R230, R235). -/
def execRdUnique (agent : Agent) (line : Nat) (s : State) : Host.Outcome State Fault Refusal :=
  forUnit (Instr.wf (.rdUnique agent line)) (readRequest agent line .rdUnique .iuW s)

/-- PROMOTE: a write by an agent in S (R230, R236). -/
def execPromote (agent : Agent) (line : Nat) (s : State) : Host.Outcome State Fault Refusal :=
  forUnit (Instr.wf (.promote agent line)) (readRequest agent line .promote .sdW s)

/-- RDPEEK: a read that takes no state (R230). -/
def execRdPeek (agent : Agent) (line : Nat) (s : State) : Host.Outcome State Fault Refusal :=
  forUnit (Instr.wf (.rdPeek agent line)) (plainRequest agent line .rdPeek [] s)

/-- RDPEEKWATCH: a wait monitor's read, which sets its bit in the watch vector (R230, R258). -/
def execRdPeekWatch (agent : Agent) (line : Nat) (s : State) : Host.Outcome State Fault Refusal :=
  forUnit (Instr.wf (.rdPeekWatch agent line)) (plainRequest agent line .rdPeekWatch [] s)

/-- WRFULL: a cacheless write of a whole line; in a hint window the home places it (R230, R237). -/
def execWrFull (agent : Agent) (line : Nat) (data : List Byte) (s : State) : Host.Outcome State Fault Refusal :=
  forUnit (Instr.wf (.wrFull agent line data)) (plainRequest agent line .wrFull data s)

/-- WRHINT: a cacheless write of a whole line; in a hint window the home places it, and outside every window it is a WrFull
(R237 to R239). -/
def execWrHint (agent : Agent) (line : Nat) (data : List Byte) (targetOk : Bool) (s : State) :
    Host.Outcome State Fault Refusal :=
  forUnit (Instr.wf (.wrHint agent line data targetOk))
    (plainRequest agent line (.wrHint targetOk) data s)

/-- WRMASKED: a cacheless write of part of a line (R211, R230). -/
def execWrMasked (agent : Agent) (line mask : Nat) (data : List Byte) (s : State) : Host.Outcome State Fault Refusal :=
  forUnit (Instr.wf (.wrMasked agent line mask data)) (plainRequest agent line (.wrMasked mask) data s)

/-- ATOMICHOME: a far atomic reaches the home (R244). -/
def execAtomicHome (agent : Agent) (hart addr width : Nat) (op : AtomicOp) (operand : Nat) (s : State) :
    Host.Outcome State Fault Refusal :=
  forUnit (Instr.wf (.atomicHome agent hart addr width op operand))
    (if addr % width = 0 then plainRequest agent (lineOf addr) (.atomic hart addr width op operand) [] s else s)

/-- SNPSHARE (R230, R231). -/
def execSnpShare (agent : Agent) (line : Nat) (s : State) : Host.Outcome State Fault Refusal :=
  forUnit (Instr.wf (.snpShare agent line)) (takeSnoop agent line .share s)

/-- SNPUNIQUE (R230, R231). -/
def execSnpUnique (agent : Agent) (line : Nat) (s : State) : Host.Outcome State Fault Refusal :=
  forUnit (Instr.wf (.snpUnique agent line)) (takeSnoop agent line .unique s)

/-- SNPKILL (R230, R231). -/
def execSnpKill (agent : Agent) (line : Nat) (s : State) : Host.Outcome State Fault Refusal :=
  forUnit (Instr.wf (.snpKill agent line)) (takeSnoop agent line .kill s)

/-- SNPPEEK (R230, R231). -/
def execSnpPeek (agent : Agent) (line : Nat) (s : State) : Host.Outcome State Fault Refusal :=
  forUnit (Instr.wf (.snpPeek agent line)) (takeSnoop agent line .peek s)

/-- The watcher of a line reads it again by RdPeekWatch while an operation still waits on it (R258). -/
def takeWatch (die line : Nat) (s : State) : State :=
  match takeMsg (· == .watch die line) s with
  | some (_, s) =>
    if s.coh.watching.contains (die, line) then plainRequest (.wm die) line .rdPeekWatch [] s else s
  | none => s

/-- WATCHNOTICE: a wait monitor learns that its line was written (R230, R258). -/
def execWatchNotice (die line : Nat) (s : State) : Host.Outcome State Fault Refusal :=
  forUnit (Instr.wf (.watchNotice die line)) (takeWatch die line s)

/-- RSPNONE taken by the home (R230). -/
def execRspNone (agent : Agent) (line : Nat) (s : State) : Host.Outcome State Fault Refusal :=
  forUnit (Instr.wf (.rspNone agent line)) (homeResponse 0 agent line s)

/-- RSPSENTKEEP taken by the home (R230). -/
def execRspSentKeep (agent : Agent) (line : Nat) (s : State) : Host.Outcome State Fault Refusal :=
  forUnit (Instr.wf (.rspSentKeep agent line)) (homeResponse 1 agent line s)

/-- RSPSENTGONE taken by the home (R230). -/
def execRspSentGone (agent : Agent) (line : Nat) (s : State) : Host.Outcome State Fault Refusal :=
  forUnit (Instr.wf (.rspSentGone agent line)) (homeResponse 2 agent line s)

/-- WB_IN_FLIGHT taken by the home (R233). -/
def execWbInFlight (agent : Agent) (line : Nat) (s : State) : Host.Outcome State Fault Refusal :=
  forUnit (Instr.wf (.wbInFlight agent line)) (homeResponse 3 agent line s)

/-- EVDIRTY taken by the home (R233). -/
def execEvDirty (agent : Agent) (line : Nat) (s : State) : Host.Outcome State Fault Refusal :=
  forUnit (Instr.wf (.evDirty agent line)) (homeWriteback true agent line s)

/-- EVCLEAN taken by the home (R225). -/
def execEvClean (agent : Agent) (line : Nat) (s : State) : Host.Outcome State Fault Refusal :=
  forUnit (Instr.wf (.evClean agent line)) (homeWriteback false agent line s)

/-- ACKGRANT (R229). -/
def execAckGrant (agent : Agent) (line : Nat) (s : State) : Host.Outcome State Fault Refusal :=
  forUnit (Instr.wf (.ackGrant agent line)) (takeAckGrant agent line s)

/-- ACKEV (R231). -/
def execAckEv (agent : Agent) (line : Nat) (s : State) : Host.Outcome State Fault Refusal :=
  forUnit (Instr.wf (.ackEv agent line)) (takeAckEv agent line s)

/-- A cacheless agent takes AckWr: its write has been performed (R253, R256). -/
def takeAckWr (agent : Agent) (line : Nat) (s : State) : State :=
  match takeMsg (· == .ackWr agent line) s with
  | some (_, s) => { s with coh := { s.coh with performed := s.coh.performed + 1 } }
  | none => s

/-- ACKWR (R253). -/
def execAckWr (agent : Agent) (line : Nat) (s : State) : Host.Outcome State Fault Refusal :=
  forUnit (Instr.wf (.ackWr agent line)) (takeAckWr agent line s)

/-- CACHE_EVICTION: a caching agent chooses a line as a victim (R225, R107). DESIGN CHOICE: log entry 57. -/
def execCacheEviction (agent : Agent) (line : Nat) (s : State) : Host.Outcome State Fault Refusal :=
  forUnit (Instr.wf (.cacheEviction agent line)) (match cacheIx agent with | some c => evict c line s | none => s)

end Sys2Proof.Machine
end

