-- ==== Sys2Proof/Machine/Cores.lean ====
section
/-!
DEFINITION. Machine/Cores.lean: what the server cores do to the package's state: atomics, streaming stores and cache
operations (R240, R242 to R249, R409, R411), hart start and stop (R419), and the time base (R415 to R417).
-/

namespace Sys2Proof.Machine

/-! ### Effective mode and predictor -/

/-- A condition of R248 holds: the package is not ready, a home is DRAINING, or a job is RESTARTING. -/
def forceHome (s : State) : Bool :=
  s.num 0x5400 1 != 5 || (List.range 8).any (fun n => s.homeState n == 2) || (List.range 16).any (fun j => s.jobState j == 5)

/-- COH_ATOMIC_MODE_EFF: 0 PREDICT, 1 NEAR, 2 HOME (R248). -/
def modeEff (s : State) : Nat := if forceHome s then 2 else s.num 0x2802 1

/-- Effective mode of a line: 3 is MEMCTRL, for a line whose home is OFF (R245, R248, R249). -/
def lineMode (s : State) (line : Nat) : Nat :=
  match homeOf s line with
  | some n => if s.homeState n = 0 then 3 else modeEff s
  | none => 3

/-- A snoop took the line from the hart's core since its previous near atomic through the same counter (R246). -/
def lostSince (s : State) (h a : Nat) : Bool :=
  ((tget [] h s.coh.lostLog).drop (tget 0 (predKey h a) s.coh.predSeen)).contains (lineOf a)

/-- The hart's near atomic through this counter is now the previous one. -/
def predSaw (h a : Nat) (s : State) : State :=
  { s with coh := { s.coh with
      predSeen := tset 0 (predKey h a) (tget [] h s.coh.lostLog).length s.coh.predSeen } }

/-- The exception that a hart's atomic takes before it has any effect: misaligned; outside device memory, which is the store/AMO
access fault for every atomic (R242); forbidden by PMP, or in memory that cannot be accessed now (R113, R195, R206, R254, R412).
Commands carry physical addresses. PRESUMED: log entry 119. DESIGN CHOICE: log entry 144. -/
def atomicTrap (s : State) (h addr w : Nat) (write : Bool) : Option Nat :=
  let fault := if write then causeStore else causeLoad
  if addr % w ≠ 0 then some (if write then causeStoreMis else causeLoadMis)
  else if !isDevice s addr then some causeStore
  else if !(s.hart h).pmpOk addr w write then some fault
  else if !memOk s addr then some fault
  else none

/-- A core operation that waits for its line. -/
def addWait (w : CoreWait) (s : State) : State := { s with coh := { s.coh with waits := s.coh.waits ++ [w] } }

/-- A near atomic by a hart (R244 to R246). -/
def nearAtomic (w : CoreWait) (s : State) : State :=
  match cacheLine s w.die w.line with
  | some x =>
    if x.st = .d ∨ x.st = .c then
      nearNow w x (predSaw w.hart w.addr (if w.isLr then s else predMove w.hart w.addr false s))
    else
      let s := if lostSince s w.hart w.addr && !w.isLr then predMove w.hart w.addr true s else s
      let s := addWait w (predSaw w.hart w.addr s)
      if x.st = .s then readRequest (.hd w.die) w.line .promote .sdW s else s
  | none =>
    let s := if lostSince s w.hart w.addr && !w.isLr then predMove w.hart w.addr true s else s
    readRequest (.hd w.die) w.line .rdUnique .iuW (addWait w (predSaw w.hart w.addr s))

/-- An AMO by a hart: near, far, or at the memory controller, by the effective mode of its line (R244, R245). One that may not
be made takes its exception (R242). -/
def doAmo (h addr w : Nat) (op : AtomicOp) (x : Nat) (s : State) : State :=
  match atomicTrap s h addr w true with
  | some c => trapHart h c addr s
  | none =>
    let line := lineOf addr
    let m := lineMode s line
    let wait : CoreWait := { die := h / 36, hart := h, line := line, addr := addr, width := w, op := op, operand := x,
                             isLr := false }
    if m = 3 then
      let r := atomicAt op addr w x s
      if r.1.2 then trapHart h causeStore addr r.2 else giveHart h r.1.1 r.2
    else if m = 2 ∨ (m = 0 ∧ s.num 0x2803 1 ≤ tget 0 (predKey h addr) s.coh.pred) then
      plainRequest (.hd (h / 36)) line (.atomic h addr w op x) [] s
    else nearAtomic wait s

/-- LR by a hart (R245, R247). DEDUCED: log entry 58. -/
def doLr (h addr w : Nat) (s : State) : State :=
  match atomicTrap s h addr w false with
  | some c => trapHart h c addr s
  | none =>
    let line := lineOf addr
    let m := lineMode s line
    if m = 2 ∨ m = 3 then
      let r := cohReadLine line s
      homeLr h addr w r.1 r.2
    else
      nearAtomic { die := h / 36, hart := h, line := line, addr := addr, width := w, op := .swap, operand := 0,
                   isLr := true } s

/-- The hart's reservation, after an SC has used it up. DEDUCED: log entry 58. -/
def useResv (h : Nat) (s : State) : State := { s with coh := { s.coh with resv := tdel h s.coh.resv } }

/-- The hart's reservation stands where an SC looks for it: at the home or the memory controller, or in its L1D (R245, R247).
DEDUCED: log entry 58. -/
def resvStands (s : State) (h line : Nat) (atHome : Bool) : Bool := tfind h s.coh.resv == some { line := line, atHome := atHome }

/-- An SC at the home or the memory controller (R247). DEDUCED: log entry 58. -/
def scHome (h addr w v : Nat) (s : State) : State :=
  let line := lineOf addr
  let s := calmLine line s
  if resvStands s h line true then
    giveHart h 0 (writeCalm line (maskFrom (addr % 64) w) (spliceOf (List.replicate 64 0) (addr % 64) (leBytes w v)) (useResv h s))
  else giveHart h 1 (useResv h s)

/-- A near SC, in the L1D of the hart's core (R247); it is a near atomic for the predictor (R246).
DEDUCED: log entry 58. -/
def scNear (h addr w v : Nat) (s : State) : State :=
  let line := lineOf addr
  match resvStands s h line false, cacheLine s (h / 36) line with
  | true, some x =>
    if x.st = .d ∨ x.st = .c then
      let s := setCacheLine (h / 36) line (some { x with st := .d, data := spliceOf x.data (addr % 64) (leBytes w v) })
        (clearResv line (useResv h (predSaw h addr s)))
      giveHart h 0 (notifyWatchers line (coreGets true h line s))
    else giveHart h 1 (useResv h (predSaw h addr s))
  | _, _ => giveHart h 1 (useResv h (predSaw h addr s))

/-- SC by a hart, near or at the home by the effective mode of its line: 0 in its result when the reservation on the line still
stands there and the word is written, 1 otherwise (R245, R247). DEDUCED: log entry 58. -/
def doSc (h addr w v : Nat) (s : State) : State :=
  match atomicTrap s h addr w true with
  | some c => trapHart h c addr s
  | none => if 2 ≤ lineMode s (lineOf addr) then scHome h addr w v s else scNear h addr w v s

/-- DAT (R228, R231, R244). -/
def execDat (agent : Agent) (line : Nat) (s : State) : Host.Outcome State Fault Refusal :=
  forUnit (Instr.wf (.dat agent line)) (takeDat agent line s)

/-- AMO (R242 to R246, R249). -/
def execAmo (hart addr width : Nat) (op : AtomicOp) (operand : Nat) (s : State) : Host.Outcome State Fault Refusal :=
  forUnit (Instr.wf (.amo hart addr width op operand)) (doAmo hart addr width op operand s)

/-- LR (R242, R245, R247). -/
def execLr (hart addr width : Nat) (s : State) : Host.Outcome State Fault Refusal :=
  forUnit (Instr.wf (.lr hart addr width)) (doLr hart addr width s)

/-- SC (R242, R245, R247). -/
def execSc (hart addr width value : Nat) (s : State) : Host.Outcome State Fault Refusal :=
  forUnit (Instr.wf (.sc hart addr width value)) (doSc hart addr width value s)

/-! ### Cache operations (R409, R411) -/

/-- cbo.clean: a dirty line is written back to its home, and a copy is kept. -/
def cboCleanLine (c line : Nat) (s : State) : State :=
  match cacheLine s c line with
  | some x =>
    if x.st = .d then setCacheLine c line (some { x with st := .c }) (memWriteBack line x.data x.poisoned s) else s
  | none => s

/-- cbo.flush and cbo.inval: the line is written back if dirty, and every copy in the die goes. -/
def cboFlushLine (c line : Nat) (s : State) : State :=
  match cacheLine s c line with
  | some x =>
    let s := if x.st = .d then memWriteBack line x.data x.poisoned s else s
    if x.st = .d ∨ x.st = .c ∨ x.st = .s then dropHolder c line (loseResv c line (setCacheLine c line none s)) else s
  | none => s

/-- A cache operation of a hart on the line that holds an address; on the control and host windows, at a hole, in memory that is off
or failed and where PMP forbids both a load and a store, it takes the store/AMO access fault (R113, R195, R206, R409, R412).
PRESUMED: log entry 119. -/
def cboOn (f : Nat → Nat → State → State) (h addr : Nat) (s : State) : State :=
  if memOk s addr && ((s.hart h).pmpOk (lineOf addr) 64 true || (s.hart h).pmpOk (lineOf addr) 64 false) then f (h / 36) (lineOf addr) s
  else trapHart h causeStore addr s

/-- CBO_CLEAN (R409). -/
def execCboClean (hart addr : Nat) (s : State) : Host.Outcome State Fault Refusal :=
  forUnit (Instr.wf (.cboClean hart addr)) (cboOn cboCleanLine hart addr s)

/-- CBO_FLUSH (R409). -/
def execCboFlush (hart addr : Nat) (s : State) : Host.Outcome State Fault Refusal :=
  forUnit (Instr.wf (.cboFlush hart addr)) (cboOn cboFlushLine hart addr s)

/-- CBO_INVAL: on device memory, as cbo.flush, so that no write is lost (R409). -/
def execCboInval (hart addr : Nat) (s : State) : Host.Outcome State Fault Refusal :=
  forUnit (Instr.wf (.cboInval hart addr)) (cboOn cboFlushLine hart addr s)

/-- The cache of a server-core die at a level holds a line: the L1D or the L2 of the core of hart h, or the L3, which holds
what no L2 of the die does (R407). DEDUCED: log entry 59. -/
def levelHolds (s : State) (d level h line : Nat) : Bool :=
  match level with
  | 1 => h / 36 == d && (tget [] h s.coh.l1d).contains line
  | 2 => h / 36 == d && (tget [] h s.coh.l2).contains line
  | 3 => !s.coh.l2.any fun e => e.1 / 36 == d && e.2.contains line
  | _ => false

/-- An uncorrectable error in a cache of a server-core die (R411): level 0 is L1I, which is refetched, 1 L1D, 2 L2, 3 L3. A dirty
line is poisoned, counted and reported; a clean one is read again from its home. DEDUCED: log entry 59.
DESIGN CHOICE: log entry 111. -/
def cacheUe (d level h addr : Nat) (s : State) : State :=
  let line := lineOf addr
  if !levelHolds s d level h line then s
  else match cacheLine s d line with
    | some x =>
      if x.st = .d then
        let s := setCacheLine d line (some { x with poisoned := true }) s
        post 0x6001 (src 3 d) 0x1F [(1, d), (1, level), (1, if level = 3 then 0 else h), (8, line)]
          (count 0x5891 (d + 1) 1 s)
      else s
    | none => s

/-- CORE_CACHE_UE: the errors that the caches of the die have corrected since the last one are counted, and then its own (R411,
R424). DESIGN CHOICE: log entry 111. -/
def execCoreCacheUe (hd : Nat) (error : CacheError) (hart addr : Nat) (s : State) : Host.Outcome State Fault Refusal :=
  forUnit (Instr.wf (.coreCacheUe hd error hart addr))
    (cacheUe hd error.level hart addr (if error.corrected = 0 then s else count 0x5890 (hd + 1) error.corrected s))

/-! ### Harts (R414, R418, R419) -/

/-- SRV_HART_STATE of a hart: 0 STARTED, 1 STOPPED, 0xFF OFF (R423). -/
def State.hartState (s : State) (h : Nat) : Nat := s.num 0x6002 (h + 1)

/-- What a hart reads in a CSR: mhartid is its number (R406), and time the counter of the package (R415).
PRESUMED: log entry 119. -/
def hartCsr (s : State) (h n : Nat) : Nat :=
  if n = 0xF14 then h
  else if n = 0xC01 then s.tim.now
  else if n = 0x14D then (s.hart h).stimecmp
  else if n = 0x24D then (s.hart h).vstimecmp
  else (s.hart h).csrAt n

/-- A hart as it enters M-mode at an address: a0 and a1 as given, translation off, interrupts disabled (R418, R419).
PRESUMED: satp and mstatus.MIE of the RISC-V privileged architecture (log entry 119). -/
def Hart.enter (pc a0 a1 : Nat) (x : Hart) : Hart :=
  let y := ((x.setX 10 a0).setX 11 a1).setCsr 0x180 0
  { (y.setCsr 0x300 (setBit (y.csrAt 0x300) 3 false)) with pc := pc, mode := 3, virt := false }

/-- A hart enters M-mode at an address, with a0 and a1 as given (R418, R419). PRESUMED: log entry 119. -/
def startHart (h pc a1 : Nat) (s : State) : State :=
  (s.setHart h ((s.hart h).enter pc h a1)).setNum 0x6002 (h + 1) 0

/-- HART_START_PC written: it starts a STOPPED hart whose cluster is powered; otherwise the write is ignored (R419). -/
def execHartStartPc (hart pc : Nat) (s : State) : Host.Outcome State Fault Refusal :=
  forUnit (Instr.wf (.hartStartPc hart pc))
    (if s.hartState hart = 1 ∧ hartOn s hart then startHart hart pc (s.hart hart).arg s else s)

/-- HART_STOP: a hart executes the stop sequence of its firmware (R419). -/
def execHartStop (hart : Nat) (s : State) : Host.Outcome State Fault Refusal :=
  forUnit (Instr.wf (.hartStop hart)) (if s.hartState hart = 0 then s.setNum 0x6002 (hart + 1) 1 else s)

/-! ### The time base (R415, R416) -/

/-- SRV_TIME_SOURCE: 0 NONE, 1 TIMEREF, 2 PCIe reference clock. -/
def State.timeSource (s : State) : Nat := s.num 0x6003 2

/-- The time counter runs, and durations of R11 count (R416). DEDUCED: log entry 54. -/
def timeRuns (s : State) : Bool := s.tim.started && s.timeSource != 0

/-- The source that the present references give: TIMEREF when it is present, else the PCIe reference clock (R415). -/
def sourceOf (timeref refclk : Bool) : Nat := if timeref then 1 else if refclk then 2 else 0

/-- The counter changes its reference: the change to another reference is counted, and any change or loss is reported
(R416, R424, R425). DEDUCED: log entry 14. -/
def setSource (v : Nat) (s : State) : State :=
  if s.timeSource = v then s
  else post 0x6002 (src 0 3) 0x1F [(1, s.timeSource), (1, v), (8, s.tim.now)]
    ((if v = 0 then s else count 0x5892 1 1 s).setNum 0x6003 2 v)

/-- One unit of 100 ns passes (R415). DESIGN CHOICE: log entry 10. -/
def tick (s : State) : State := if timeRuns s then { s with tim := { s.tim with now := s.tim.now + 1 } } else s

/-- TIMER_INTERRUPT: a comparison of the hart with the counter holds, and its interrupt is pending (R415). -/
def doTimer (h : Nat) (level : TimerLevel) (s : State) : State :=
  let x := s.hart h
  match level with
  | .m => if x.mtimecmp ≤ s.tim.now then s.setHart h { x with timerM := true } else s
  | .s => if x.stimecmp ≤ s.tim.now then s.setHart h { x with timerS := true } else s
  | .vs => if x.vstimecmp ≤ s.tim.now then s.setHart h { x with timerVs := true } else s

/-- TIMER_INTERRUPT (R415). -/
def execTimerInterrupt (hart : Nat) (level : TimerLevel) (s : State) : Host.Outcome State Fault Refusal :=
  forUnit (Instr.wf (.timerInterrupt hart level)) (if timeRuns s then doTimer hart level s else s)

/-- TIME_REFERENCE_START: the counter starts at 0 on the reference that is present; with none it does not count
(R415, R576). -/
def execTimeReferenceStart (timeref refclk : Bool) (s : State) : Host.Outcome State Fault Refusal :=
  forUnit true
    (if s.pwr.on && !s.tim.started then
      { s with tim := { now := 0, started := sourceOf timeref refclk != 0, timeref := timeref, refclk := refclk } }.setNum
        0x6003 2 (sourceOf timeref refclk)
     else s)

/-- TIMEREF_LOSS: a counter that runs from TIMEREF goes on from its value on the PCIe reference clock, or holds when
there is none (R416). -/
def execTimerefLoss (s : State) : Host.Outcome State Fault Refusal :=
  forUnit true
    (if s.tim.started && s.tim.timeref then
      let s' := { s with tim := { s.tim with timeref := false } }
      if s.timeSource = 1 then setSource (if s.tim.refclk then 2 else 0) s' else s'
     else s)

/-- REFERENCE_LOSS: the reference in use, and the other, are gone: the counter holds its value (R416). -/
def execReferenceLoss (s : State) : Host.Outcome State Fault Refusal :=
  forUnit true
    (if s.tim.started then
      setSource 0 { s with tim := { s.tim with timeref := false, refclk := false } }
     else s)

/-- TIME_REFERENCE_RETURN: a reference appears again. After both were lost the counter goes on, on REFCLK, from the value it holds; to
TIMEREF it returns only by SRV_TIME_RESELECT or at a power-up, and a counter that runs keeps its reference (R416, R576).
DEDUCED: log entry 14. -/
def execTimeReferenceReturn (timeref : Bool) (s : State) : Host.Outcome State Fault Refusal :=
  forUnit true
    (if s.tim.started then
      let s' := { s with tim := { s.tim with timeref := timeref || s.tim.timeref, refclk := !timeref || s.tim.refclk } }
      if s.timeSource = 0 ∧ !timeref then setSource 2 s' else s'
     else s)

end Sys2Proof.Machine
end

