-- ==== Sys2Proof/Machine/Access.lean ====
section
/-!
DEFINITION. Machine/Access.lean: what every unit of a job uses to reach memory, the host and the fabric: protections
(R371, R372), structures in memory (R588), posted writes and reads of the host window (R437 to R441), and frames (R273).
-/

namespace Sys2Proof.Machine

/-! ### Jobs -/

/-- Jn is running: STARTING, RUNNING or SWITCHING (R368). -/
def isRunning (s : State) (j : Nat) : Bool := s.jobState j == 1 || s.jobState j == 2 || s.jobState j == 3

/-- The context that carries a JOB_ID, in any state but IDLE (R367). -/
def jobOfId (s : State) (id : Nat) : Option Nat :=
  (List.range 16).find? fun j => s.jobState j != 0 && (s.job j).desc.jobId == id && id != 0

/-- The context that a frame's JOB_ID names: the one that carries it, or one that a STOP has made IDLE, whose ports stay closed
(R276, R294). DEDUCED: log entry 96. -/
def frameJob (s : State) (id : Nat) : Option Nat :=
  (jobOfId s id).or
    ((List.range 16).find? fun j => s.jobState j == 0 && (s.job j).closedPorts && (s.job j).desc.jobId == id && id != 0)

/-- An entry of the protections covers an address with the right asked for (R371). -/
def Prot.has (p : Prot) (right : Prot → Bool) (a : Nat) : Bool := right p && decide (p.base ≤ a) && decide (a < p.base + p.bytes)

/-- Every page of a range lies in an entry with the right asked for (R372); entries cover whole pages of 4096 bytes. -/
def protOk (l : List Prot) (right : Prot → Bool) (a n : Nat) : Bool :=
  (List.range ((a % 4096 + n + 4095) / 4096)).all fun i => l.any fun p => p.has right ((a / 4096 + i) * 4096)

/-- How an access to a structure in memory ends (R588). -/
inductive Acc where
  | ok
  | access
  | poison
  deriving DecidableEq, Repr

/-- STATUS that an access gives its operation or queue: ACCESS_ERROR 0x02, POISON 0x03 (R151, R588). -/
def Acc.status : Acc → Nat
  | .ok => 0
  | .access => 2
  | .poison => 3

/-- What a read of a structure finds. -/
inductive Got where
  | ok (l : List Byte)
  | access
  | poison
  deriving DecidableEq, Repr

/-- How a read ended. -/
def Got.acc : Got → Acc
  | .ok _ => .ok
  | .access => .access
  | .poison => .poison

/-- The bytes read; none where the read failed. -/
def Got.bytes : Got → List Byte
  | .ok l => l
  | _ => []

/-- A read of device memory that a job makes, under its protections (R372, R588). -/
def jobRead (j a n : Nat) (s : State) : Got × State :=
  if protOk (s.job j).prots (·.read) a n then
    match tryRead a n s with
    | (none, s) => (.access, s)
    | (some (l, p), s) => (if p then .poison else .ok l, s)
  else (.access, s)

/-- A read of device memory that the package makes for itself. -/
def plainRead (a n : Nat) (s : State) : Got × State :=
  match tryRead a n s with
  | (none, s) => (.access, s)
  | (some (l, p), s) => (if p then .poison else .ok l, s)

/-! ### The host window (R437 to R441, R447) -/

/-- The link that a host address is routed to (R437). -/
def hostLink (s : State) (h : Nat) : Nat :=
  if s.num 0x2C00 1 = 0 then 0 else if h < s.num 0x2C06 1 then 0 else 1

/-- The host address of a physical address in the host window. -/
def hostOf (s : State) (a : Nat) : Option Nat :=
  match place s a with
  | .host h => some h
  | _ => none

/-- The parts of a range of host addresses by the link that each goes to: link, address and length (R437). -/
def hostParts (s : State) (h n : Nat) : List (Nat × Nat × Nat) :=
  let b := s.num 0x2C06 1
  if s.num 0x2C00 1 = 0 ∨ h + n ≤ b ∨ b ≤ h then [(hostLink s h, h, n)] else [(0, h, b - h), (1, b, h + n - b)]

/-- The package may send requests for a whole range of host addresses (R444). DEDUCED: log entry 105. -/
def hostUp (s : State) (h n : Nat) : Bool := (hostParts s h n).all fun p => linkAttached s p.1

/-- One part of a posted write is sent, and kept until the data link layer acknowledges it (R439, R446). -/
def postPart (h : Nat) (data : List Byte) (op : Option (Nat × Nat)) (relaxed : Bool) (s : State) (p : Nat × Nat × Nat) : State :=
  let l := s.hlink p.1
  let d := sliceOf data (p.2.1 - h) p.2.2
  (s.setHlink p.1 { l with posted := l.posted ++ [(p.2.1, d, op)] }).emit (.pcieWrite p.1 p.2.1 d relaxed)

/-- A posted write to host memory: sent, or dropped where a link that it needs is not ATTACHED (R437, R439, R446, R447). -/
def postHost (h : Nat) (data : List Byte) (op : Option (Nat × Nat)) (relaxed : Bool) (s : State) : Bool × State :=
  if hostUp s h data.length then (true, (hostParts s h data.length).foldl (postPart h data op relaxed) s) else (false, s)

/-- A store that is not an operation's: each part goes to its link, or is dropped where that is not ATTACHED, and counted when a core
makes it (R437, R439, R447). -/
def postEach (core : Bool) (h : Nat) (data : List Byte) (s : State) : State :=
  (hostParts s h data.length).foldl (fun s p =>
    if linkAttached s p.1 then postPart h data none false s p
    else if core then count 0x58A1 (p.1 + 1) 1 s else s) s

/-- A read request of the package for one part of a range of host memory (R440). -/
def askPart (o : RdOwner) (s : State) (p : Nat × Nat × Nat) : State :=
  let r : HRead := { id := s.hst.nextRead, link := p.1, addr := p.2.1, length := p.2.2, owner := o,
                     before := (s.hlink p.1).posted.length }
  ({ s with hst := { s.hst with reads := s.hst.reads ++ [r], nextRead := s.hst.nextRead + 1 } }).emit (.pcieRead p.1 p.2.1)

/-- The read requests of the package for n bytes of host memory (R437, R440). DEDUCED: log entry 105. -/
def askHost (o : RdOwner) (h n : Nat) (s : State) : State := (hostParts s h n).foldl (askPart o) s

/-- A request is outstanding for an owner. -/
def askedHost (s : State) (o : RdOwner) : Bool := s.hst.reads.any fun r => r.owner == o

/-- Bytes of host memory as completions delivered them. DESIGN CHOICE: log entry 9. -/
def hostBytes (s : State) (h n : Nat) : List Byte := (List.range n).map fun i => tget 0 (h + i) s.hst.mem

/-- A structure of a job can be written where it lies: under the job's protections, in memory that can be accessed or in the
host window (R439, R588). -/
def structOk (s : State) (j a n : Nat) : Bool :=
  protOk (s.job j).prots (·.write) a n && ((hostOf s a).isSome || rangeOk s a n)

/-- A write of a queue's or ring's structure, in device memory or in the host window, under the job's protections
(R439, R588). -/
def putStruct (j a : Nat) (l : List Byte) (s : State) : Acc × State :=
  if structOk s j a l.length then
    match hostOf s a with
    | some h => (.ok, postEach false h l s)
    | none => (.ok, writeMem a l s)
  else (.access, s)

/-! ### Frames (R273, R274) -/

end Sys2Proof.Machine

namespace Sys2Proof

open Sys2Proof.Machine

def Frame.ver (f : Frame) : Nat := bits f.w0 63 60
def Frame.type (f : Frame) : Nat := bits f.w0 59 56
def Frame.jobId (f : Frame) : Nat := bits f.w0 55 44
def Frame.epoch (f : Frame) : Nat := bits f.w0 43 28
def Frame.chan (f : Frame) : Nat := bits f.w0 27 20
def Frame.len (f : Frame) : Nat := bits f.w0 12 0
def Frame.seq (f : Frame) : Nat := bits f.w1 63 32
def Frame.src (f : Frame) : Nat := bits f.w1 31 18
def Frame.dst (f : Frame) : Nat := bits f.w1 17 4
def Frame.tag (f : Frame) : Nat := bits f.w3 63 48
def Frame.status (f : Frame) : Nat := bits f.w3 47 40
def Frame.hops (f : Frame) : Nat := bits f.w3 39 32
def Frame.rlen (f : Frame) : Nat := bits f.w3 31 16

/-- The 32 header bytes of a frame. -/
def Frame.header (f : Frame) : List Byte := leBytes 8 f.w0 ++ leBytes 8 f.w1 ++ leBytes 8 f.w2 ++ leBytes 8 f.w3

/-- Bytes that a frame occupies: header, payload and CRC (R273). -/
def Frame.bytes (f : Frame) : Nat := 36 + f.payload.length

/-- The end-to-end CRC of a frame's header and payload. -/
def Frame.crcOf (f : Frame) : Nat := crc32 (f.header ++ f.payload)

end Sys2Proof

namespace Sys2Proof.Machine

/-- Virtual lane of a TYPE (R268). -/
def vlOf (type : Nat) : Nat :=
  if type = 2 ∨ type = 4 ∨ type = 9 then 0 else if type = 3 ∨ type = 5 then 1 else if type = 1 then 2 else 3

/-- The fields of a frame that differ between types. -/
structure FrameArgs where
  type : Nat
  jobId : Nat
  epoch : Nat
  chan : Nat := 0
  seq : Nat := 0
  src : Nat
  dst : Nat
  addr : Nat := 0
  tag : Nat := 0
  status : Nat := 0
  rlen : Nat := 0
  payload : List Byte := []

/-- A frame made by this package, with HOPS from FAB_HOP_LIMIT (R273, R278). -/
def mkFrame (s : State) (x : FrameArgs) : Frame :=
  let f : Frame := {
    w0 := 2 ^ 60 + x.type * 2 ^ 56 + x.jobId * 2 ^ 44 + x.epoch * 2 ^ 28 + x.chan * 2 ^ 20 + x.payload.length,
    w1 := x.seq * 2 ^ 32 + x.src * 2 ^ 18 + x.dst * 2 ^ 4, w2 := x.addr,
    w3 := x.tag * 2 ^ 48 + x.status * 2 ^ 40 + s.num 0x3015 1 * 2 ^ 32 + x.rlen * 2 ^ 16, payload := x.payload, crc := 0 }
  { f with crc := f.crcOf }

/-! ### Link units (R267, R268) -/

/-- FAB_PORT_STATE: 0 DISABLED, 1 NO_MODULE, 2 TRAINING, 3 IDENT, 4 UP, 5 MISWIRED, 6 DOWN (R295). -/
def portState (s : State) (p : Nat) : Nat := s.num 0x3001 (p + 1)

/-- Credits that a frame takes (R268). -/
def frameUnits (f : Frame) : Nat := ceilDiv f.bytes 64

/-- The prefix of a link unit that port x sends (R267). -/
def prefixOf (x : Port) (seq vl : Nat) (nak : Bool) (crVl crUnits : Nat) (hasFrame : Bool) : Nat :=
  seq % 65536 * 2 ^ 48 + (x.rxNext + 65535) % 65536 * 2 ^ 32 + b2n (x.rxNext != 0) * 2 ^ 31 + b2n nak * 2 ^ 30
    + vl * 2 ^ 28 + crVl * 2 ^ 26 + crUnits * 2 ^ 16 + b2n hasFrame

/-- The bytes over which the CRC of a link unit is computed: the prefix and the frame (R267). -/
def unitBody (word : Nat) (frame : Option Frame) : List Byte :=
  leBytes 8 word ++ match frame with
    | some f => f.header ++ f.payload ++ leBytes 4 f.crc
    | none => []

/-- A link unit leaves a port, with its CRC-32 (R267). -/
def emitLink (p word vl : Nat) (frame : Option Frame) (s : State) : State :=
  s.emit (.linkUnit p word vl frame (crc32 (unitBody word frame)))

/-- A unit with no frame: an acknowledgement or a NAK, and credits (R267, R270). -/
def sendBare (p : Nat) (nak : Bool) (crVl crUnits : Nat) (s : State) : State :=
  emitLink p (prefixOf (s.port p) 0 0 nak crVl crUnits false) 0 none s

/-- The credits of a frame that leaves the receive buffer of a lane go back, while the link layer runs (R268). -/
def returnCredits (p vl : Nat) (f : Frame) (s : State) : State :=
  if portState s p = 3 ∨ portState s p = 4 then sendBare p false vl (frameUnits f) s else s

/-- A frame handed to the link dies by a local sender; a job whose ports are closed sends none (R294). -/
def sendFrame (j : Nat) (f : Frame) (s : State) : State :=
  if (s.job j).closedPorts then s else { s with fab := { s.fab with localq := s.fab.localq ++ [f] } }

/-- A CTRL frame of a job to a device (R289, R376). -/
def sendCtrl (j dst : Nat) (payload : List Byte) (s : State) : State :=
  let d := (s.job j).desc
  sendFrame j (mkFrame s { type := 6, jobId := d.jobId, epoch := s.jobEpoch j, src := d.device, dst := dst,
                           payload := payload }) s

/-- A DATA frame of a job on a channel to a device, with the channel's next sequence number (R279, R282). -/
def sendData (j ch dst : Nat) (payload : List Byte) (s : State) : State :=
  let x := s.job j
  let q := tget 0 ch x.txSeq
  let f := mkFrame s { type := 1, jobId := x.desc.jobId, epoch := s.jobEpoch j, chan := ch, seq := q,
                       src := x.desc.device, dst := dst, payload := payload }
  sendFrame j f (s.setJob j { x with txSeq := tset 0 ch (add32 q 1) x.txSeq })

/-- A job control message: code, epoch, sender and the bytes from 6 on, padded to a length (R376). -/
def ctrlMsg (s : State) (j code len : Nat) (rest : List Byte) : List Byte :=
  padTo ([BitVec.ofNat 8 code, 0] ++ leBytes 2 (s.jobEpoch j) ++ leBytes 2 (s.job j).desc.device ++ rest) len

/-! ### Channels and routes (R275, R276, R283) -/

/-- A channel-table entry (R283). -/
structure Chn where
  peer : Nat
  dir : Nat
  sink : Nat
  ringBase : Nat
  ringLog2 : Nat
  countAddr : Nat
  deriving DecidableEq, Repr

/-- A channel-table entry from its 32 bytes. -/
def chnOf (l : List Byte) : Chn :=
  let w0 := fieldOf l 0 8
  { peer := bits w0 63 50, dir := bits w0 49 48, sink := bits w0 47 44, ringBase := fieldOf l 8 8,
    ringLog2 := fieldOf l 16 8 % 32, countAddr := fieldOf l 24 8 }

/-- Entry c of a job's channel table as memory holds it; an entry beyond the table is unused. -/
def chanOf (s : State) (j c : Nat) : Chn :=
  if c < s.num 0x3022 (j + 1) then chnOf (peekMem s (s.num 0x3021 (j + 1) + 32 * c) 32)
  else { peer := 0, dir := 0, sink := 0, ringBase := 0, ringLog2 := 0, countAddr := 0 }

/-- Where the route table sends a device index: this package, a port, nowhere, or the table cannot be read. -/
inductive Route where
  | here
  | port (p : Nat)
  | none
  | unread (a : Acc)
  deriving DecidableEq, Repr

/-- A route-table byte (R275). -/
def routeByte (b : Nat) : Route := if b = 0xFE then .here else if b < 24 then .port b else .none

/-- The route of a device index in job j (R276). -/
def routeOf (j dst : Nat) (s : State) : Route × State :=
  match plainRead (s.num 0x3020 (j + 1) + dst) 1 s with
  | (.ok l, s) => (routeByte (leNat l), s)
  | (g, s) => (.unread g.acc, s)

/-- The route of a device index, read with no effect. -/
def routePeek (s : State) (j dst : Nat) : Route := routeByte (leNat (peekMem s (s.num 0x3020 (j + 1) + dst) 1))

end Sys2Proof.Machine
end

