-- ==== Sys2Proof/Machine/Faults.lean ====
section
/-!
DEFINITION. Machine/Faults.lean: faults of a job and how far they reach: the units a job requires (R24), the stop of its
queues, paths and rings (R151, R369), the fault itself (R378, R557), and the closing of its ports (R294).
-/

namespace Sys2Proof.Machine

/-! ### Descriptor queues -/

/-- TNS_DQ_CTRL of a queue. -/
def dqCtrl (s : State) (n q : Nat) : Nat := s.num (0x3C28 + n) (q + 1)

/-- The job of a queue (R133). -/
def dqJob (s : State) (n q : Nat) : Nat := dqCtrl s n q % 16

/-- The queue is enabled. -/
def dqOn (s : State) (n q : Nat) : Bool := bit (dqCtrl s n q) 31

/-- STATE of a queue: 0 disabled, 1 running, 2 stopped (R134). -/
def dqState (s : State) (n q : Nat) : Nat := s.num (0x3C30 + n) (q + 1) % 4

/-- Shadow line of a queue. -/
def dqShadow (s : State) (n q : Nat) : Nat := s.num (0x3C20 + n) (q + 1)

/-- STATE written to the object and to the shadow line (R134, R156). -/
def putDqState (n q v : Nat) (s : State) : State :=
  (putStruct (dqJob s n q) (dqShadow s n q + 12) (leBytes 4 v) (s.setNum (0x3C30 + n) (q + 1) v)).2

/-- A running queue stops with a status; `isn` is the operation that stopped it, or 0 (R151, R461). -/
def stopQueue (n q status isn : Nat) (s : State) : State :=
  if dqState s n q = 1 then
    post 0x3C05 (src 1 n) (dqJob s n q) [(1, n), (1, q), (1, status), (8, isn)]
      (putDqState n q (status * 2 ^ 24 + 2) s)
  else s

/-- The job of an operation: that of the queue it was taken from (R133). -/
def opJob (s : State) (n : Nat) (o : Op) : Nat :=
  match o.partOf with
  | some (r, _) => dqJob s r o.queue
  | none => dqJob s n o.queue

/-- The operations that a test names and that have not started complete with ABORTED (R151). -/
def abortOps (n : Nat) (p : Op → Bool) (s : State) : State :=
  let d := s.die n
  let f : Op → Op := fun o =>
    if p o && o.phase == .waiting && o.partOf.isNone then { o with phase := .done, status := 8 } else o
  s.setDie n { d with ops := d.ops.map f }

/-- Every descriptor queue, as die and queue. -/
def allQueues : List (Nat × Nat) := (List.range 8).flatMap fun n => (List.range 32).map (n, ·)

/-- The descriptor queues of a job stop, and their operations that have not started complete with ABORTED. -/
def stopDqs (j : Nat) (s : State) : State :=
  let s := allQueues.foldl (fun s x => if dqOn s x.1 x.2 && dqJob s x.1 x.2 == j then stopQueue x.1 x.2 8 0 s else s) s
  (List.range 8).foldl (fun s n => abortOps n (fun o => opJob s n o == j) s) s

/-! ### Collective paths, landing queue, send ring -/

/-- The bits of a mask are set in STOPPED, in the object and in the collective shadow (R303, R308, R325). -/
def stopPaths (j mask : Nat) (s : State) : State :=
  let v := s.num 0x3803 (j + 1) ||| mask
  let s := s.setNum 0x3803 (j + 1) v
  if s.num 0x3801 (j + 1) = 0 then s else (putStruct j (s.num 0x3802 (j + 1) + 68) (leBytes 4 v) s).2

/-- STATE of the landing queue, in the object and in the landing shadow (R346, R364). -/
def putLuState (j v : Nat) (s : State) : State :=
  (putStruct j (s.num 0x3808 (j + 1) + 8) (leBytes 4 v) (s.setNum 0x3812 (j + 1) v)).2

/-- A running landing queue stops with a status (R346, R349). -/
def stopLanding (j status : Nat) (s : State) : State :=
  if s.num 0x3812 (j + 1) % 4 = 1 then putLuState j (status * 2 ^ 24 + 2) s else s

/-- Landing operations of a job that have not been done complete with ABORTED. -/
def abortLanding (j : Nat) (s : State) : State :=
  let x := s.job j
  s.setJob j { x with luOps := x.luOps.map fun o => if o.done then o else { o with done := true, status := 8 } }

/-- Every queue, path and ring of a job stops, and its operations that have not started complete with ABORTED (R151,
R369). -/
def stopWork (j : Nat) (s : State) : State :=
  let s := stopDqs j s
  let s := if s.num 0x3801 (j + 1) = 0 then s else stopPaths j 0xFFFF s
  let s := abortLanding j (stopLanding j 8 s)
  let rest := s.stageResults.filter fun e => e.2.1 != j
  { s.setJob j { s.job j with sendStopped := true } with stageResults := rest }

/-! ### Slots (R152) -/

/-- TNS_SLOT_BIND of a slot. -/
def slotBind (s : State) (k : Nat) : Nat := s.num 0x3C40 (k + 1)

/-- A slot is bound, and not releasing, to a job. -/
def slotBoundTo (s : State) (k j : Nat) : Bool :=
  bit (slotBind s k) 7 && !bit (slotBind s k) 4 && slotBind s k % 16 == j

/-- A slot is free. DEDUCED: log entry 64. -/
def slotFree (s : State) (k : Nat) : Bool := !bit (slotBind s k) 7 && !bit (slotBind s k) 4

/-- A bound slot becomes releasing: BOUND 0, RELEASING 1, the rest kept. DEDUCED: log entry 64. -/
def releaseSlot (k : Nat) (s : State) : State :=
  if bit (slotBind s k) 7 then s.setNum 0x3C40 (k + 1) (slotBind s k - 128 + 16) else s

/-- The slots bound to a job become releasing (R369). -/
def releaseSlots (j : Nat) (s : State) : State :=
  (List.range 32).foldl (fun s k => if slotBoundTo s k j then releaseSlot k s else s) s

/-! ### The fault of a job -/

/-- JOB_STATE changes. -/
def setJobState (j v : Nat) (s : State) : State := s.setNum (jobIx j 1) 1 v

/-- JOB_STATUS: code and detail (R403). -/
def setJobStatus (j code detail : Nat) (s : State) : State :=
  s.setNum (jobIx j 1) 2 (code * 2 ^ 24 + detail % 2 ^ 24)

/-- The coordinator's device index (R374). -/
def coordDev (s : State) (j : Nat) : Nat := s.num 0x380B (j + 1) % 2 ^ 14

/-- The standby's device index, or 0x3FFF. -/
def standbyDev (s : State) (j : Nat) : Nat := s.num (jobIx j 2) 2 % 2 ^ 14

/-- A message to the coordinator and to the standby (R376). -/
def sendBoth (j : Nat) (payload : List Byte) (s : State) : State :=
  let s := sendCtrl j (coordDev s j) payload s
  if standbyDev s j = 0x3FFF then s else sendCtrl j (standbyDev s j) payload s

/-- No peer: the SUBJECT of a fault that names none (R376). -/
def noSubject : Nat := 0x3FFF

/-- A fault of the job at this package, in a context that runs or restarts (R378, R557). DEDUCED: log entry 100. -/
def jobFaultWith (report : Bool) (j code detail subject : Nat) (s : State) : State :=
  if isRunning s j || s.jobState j == 5 then
    let s := stopWork j s
    let s := setJobStatus j code detail s
    let s := post 0x4002 (src 9 j) j [(1, j), (2, s.jobEpoch j), (1, code), (2, subject)] (count 0x5880 (j + 1) 1 s)
    let s := setJobState j 4 { s with jobs := tset Job.init j { s.job j with watchdog := false } s.jobs }
    if report then
      sendBoth j (ctrlMsg s j 0x21 64 (leBytes 1 code ++ leBytes 1 (b2n (subject == noSubject)) ++ leBytes 2 subject)) s
    else s
  else s

/-- A fault of the job that is reported (R378). -/
def jobFault (j code detail subject : Nat) (s : State) : State := jobFaultWith true j code detail subject s

/-- A fault that an access to a job's structure raises: 0x22, or 0x23 for poisoned data (R557, R588). -/
def accessFault (j : Nat) (a : Acc) (addr : Nat) (s : State) : State :=
  jobFault j (if a = .poison then 0x23 else 0x22) (addr / 64) noSubject s

/-- A step that writes a structure of a job: where it could not be written, the job faults (R588). -/
def orFault (j a n : Nat) (f : State → State) (s : State) : State :=
  if structOk s j a n then f s else accessFault j .access a (f s)

/-- STATE of a queue is written; where the shadow line cannot be, it holds ACCESS_ERROR and the job faults (R588). -/
def putDqOr (n q v : Nat) (s : State) : State :=
  let a := dqShadow s n q + 12
  if structOk s (dqJob s n q) a 4 then putDqState n q v s
  else accessFault (dqJob s n q) .access a (putDqState n q (2 * 2 ^ 24 + v % 4) s)

/-- A running queue stops for a cause that is no fault of its job by itself; the job faults where the shadow line cannot be
written (R588). -/
def stopQueueOr (n q status isn : Nat) (s : State) : State :=
  if dqState s n q = 1 then orFault (dqJob s n q) (dqShadow s n q + 12) 4 (stopQueue n q status isn) s else s

/-! ### What a job requires (R24) -/

/-- A protection entry overlaps a range. -/
def Prot.meets (p : Prot) (base bytes : Nat) : Bool := decide (p.base < base + bytes) && decide (base < p.base + p.bytes)

/-- A job requires the group of die n. -/
def needsGroup (s : State) (j n : Nat) : Bool :=
  let x := s.job j
  let g := s.merr.effG
  bit x.desc.dieMask n || x.prots.any fun p =>
    p.meets (n * 0x1E00000000) ((120 - g) * gib) || (decide (0 < g) && p.meets 0x10000000000 (8 * g * gib))

/-- A job requires the Canopy pair of die n. -/
def needsCanopy (s : State) (j n : Nat) : Bool :=
  let x := s.job j
  bit x.desc.dieMask n || x.prots.any fun p => p.meets (0x20000000000 + n * 0x80000000) 0x60000000

/-- A job requires the uncore of die n. -/
def needsUncore (s : State) (j n : Nat) : Bool := bit (s.job j).desc.dieMask n

/-- No job context, whatever its state, maps memory of the group of die n (R544, R554). -/
def groupIdle (s : State) (n : Nat) : Bool := (List.range 16).all fun j => s.jobState j == 0 || !needsGroup s j n

/-- The failure of a domain is a fault of a job: a domain it requires, or a quadrant of a die of its DIE_MASK. -/
def needsDomain (s : State) (j d : Nat) : Bool :=
  if d < 48 then
    (if d % 6 < 4 then needsUncore s j (d / 6) else if d % 6 = 4 then needsUncore s j (d / 6) else needsCanopy s j (d / 6))
  else if 70 ≤ d ∧ d < 78 then needsGroup s j (d - 70)
  else false

/-- The jobs that run or restart and that a test names, ascending. -/
def runningJobs (s : State) (p : Nat → Bool) : List Nat :=
  (List.range 16).filter fun j => (isRunning s j || s.jobState j == 5) && p j

/-- Every job that a test names faults. -/
def faultJobs (p : State → Nat → Bool) (code detail : Nat) (s : State) : State :=
  (runningJobs s (p s)).foldl (fun s j => jobFault j code detail noSubject s) s

/-- AGENT_LOST: a caching agent is lost, and the jobs that require its die fault (R252, R24). -/
def loseAgent (a : Agent) (s : State) : State :=
  match a, cacheIx a with
  | .td n, some c =>
    if s.coh.lost.contains c then s
    else faultJobs (fun s j => needsUncore s j n) 0x0E (domUncore n) (agentGone c s)
  | _, some c => if s.coh.lost.contains c then s else agentGone c s
  | _, none => s

/-- AGENT_LOST (R252). -/
def execAgentLost (agent : Agent) (s : State) : Host.Outcome State Fault Refusal :=
  forUnit (Instr.wf (.agentLost agent)) (loseAgent agent s)

/-! ### Closing a job's ports (R294) -/

/-- A frame that JOB_ID's closed ports drop where it waits: one of the job, for this package, and neither CTRL nor
FELL. DEDUCED: log entry 96. -/
def closedDrop (s : State) (j : Nat) (f : Frame) : Bool :=
  f.jobId == (s.job j).desc.jobId && f.type != 6 && f.type != 7 && routePeek s j f.dst == .here

/-- A frame that this package has sent for the job. DEDUCED: log entry 96. -/
def ownFrame (s : State) (j : Nat) (f : Frame) : Bool :=
  f.jobId == (s.job j).desc.jobId && f.src == (s.job j).desc.device

/-- The frame that a lane (port * 4 + VL, 24 for the package's own frames) delivers or forwards next. -/
def laneHead (s : State) (key : Nat) : Option Frame :=
  if key < 96 then (lget [] (s.port (key / 4)).rx (key % 4)).head? else s.fab.localq.find? fun f => vlOf f.type == key % 4

/-- The frames that a port gives up when a job's ports close leave its receive buffers, and their credits go back (R268, R294).
DEDUCED: log entry 96. -/
def dropRx (gone : Frame → Bool) (p : Nat) (s : State) : State :=
  let x := s.port p
  let s := s.setPort p { x with rx := x.rx.map fun l => l.filter fun f => !gone f }
  x.rx.zipIdx.foldl (fun s e => (e.1.filter gone).foldl (fun s f => returnCredits p e.2 f s) s) s

/-- The ports of a job close. `epoch` and `cause` go into FAB_FELL_RECEIVED: cause 0 a fell notice, 1 JOB_CTRL STOP.
DEDUCED: log entries 95, 96. -/
def closeJob (j epoch cause : Nat) (s : State) : State :=
  let id := (s.job j).desc.jobId
  let held := ((s.fab.ports.flatMap fun p => p.2.rx.flatten).filter (closedDrop s j)).length
  let held := held + ((s.job j).inbox.map fun e => e.2.length).sum
  let s := if held = 0 then s else count 0x5868 (j + 1) held s
  let gone := closedDrop s j
  let own := ownFrame s j
  let still : Nat → Bool := fun k => match laneHead s k with
    | some f => if k < 96 then !(gone f) else !(own f)
    | none => false
  let keepTx : List Frame → List Frame := fun l => l.filter fun f => !(own f)
  let ports := s.fab.ports.map fun (p : Nat × Port) => (p.1, { p.2 with tx := p.2.tx.map keepTx })
  let remotes := s.fab.remotes.map fun r =>
    if r.job = j ∧ r.answer = none then { r with answer := some (false, [], 0) } else r
  let taken := s.fab.taken.filter still
  let s := { s with fab := { s.fab with localq := keepTx s.fab.localq, ports := ports, remotes := remotes, taken := taken } }
  let s := (ports.map (·.1)).foldl (fun s p => dropRx gone p s) s
  let s := s.setJob j { s.job j with closedPorts := true, inbox := [] }
  post 0x3009 (src 5 0) j [(2, id), (2, epoch), (1, cause)] s

end Sys2Proof.Machine
end

