-- ==== Sys2Proof/Machine/Formats.lean ====
section
/-!
DEFINITION. Machine/Formats.lean: the number formats bit by bit, rounding, the stochastic generator and the conversions
(R29 to R69). An exact value is a sign, a natural magnitude and a power of two.
-/

namespace Sys2Proof.Machine

/-- An exact value: (-1)^neg * m * 2^e, an infinity, or a NaN (every NaN is read alike, R51). -/
inductive FV where
  | fin (neg : Bool) (m : Nat) (e : Int)
  | inf (neg : Bool)
  | nan
  deriving DecidableEq, Repr

/-- A sign, biased-exponent and fraction format (R31, R50): exponent bits, fraction bits, bias, and whether it has
subnormals, infinities and NaN (QF6 and QF8 have none). -/
structure Fmt where
  eb : Nat
  fb : Nat
  bias : Nat
  full : Bool
  deriving DecidableEq, Repr

def qf6 : Fmt := { eb := 3, fb := 2, bias := 4, full := false }
def qf8 : Fmt := { eb := 4, fb := 3, bias := 8, full := false }
def qf12 : Fmt := { eb := 5, fb := 6, bias := 15, full := true }
def qw16 : Fmt := { eb := 7, fb := 8, bias := 63, full := true }
def qw32 : Fmt := { eb := 7, fb := 24, bias := 63, full := true }
def qa40 : Fmt := { eb := 9, fb := 30, bias := 255, full := true }
def b32 : Fmt := { eb := 8, fb := 23, bias := 127, full := true }

/-- Format codes of R29. -/
def codeQN4 : Nat := 0
def codeQF6 : Nat := 1
def codeQF8 : Nat := 2
def codeQF12 : Nat := 3
def codeQW16 : Nat := 4
def codeQW32 : Nat := 5
def codeQA40 : Nat := 6
def codeQR16 : Nat := 7
def codeB32 : Nat := 8

/-- The floating-point format under a format code, if it is one. -/
def fmtOf : Nat → Option Fmt
  | 1 => some qf6
  | 2 => some qf8
  | 3 => some qf12
  | 4 => some qw16
  | 5 => some qw32
  | 6 => some qa40
  | 8 => some b32
  | _ => none

/-- Width of an element in bits (R29). -/
def widthOf : Nat → Nat
  | 0 => 4
  | 1 => 6
  | 2 => 8
  | 3 => 12
  | 4 => 16
  | 5 => 32
  | 6 => 40
  | 7 => 16
  | 8 => 32
  | _ => 8

/-- The pairings of format and block-size code that the table of R29 allows (R30). -/
def pairingOk (fmt bs : Nat) : Bool :=
  match fmt with
  | 0 => bs == 1 || bs == 2
  | 1 => bs ≤ 2
  | 2 => bs ≤ 2
  | 7 => bs == 2
  | 3 => bs == 0
  | 4 => bs == 0
  | 5 => bs == 0
  | 6 => bs == 0
  | 8 => bs == 0
  | _ => false

/-- Elements of a block: 16 or 32 (R30). -/
def blockLen (bs : Nat) : Nat := if bs = 1 then 16 else 32

/-- Exponent field of all ones. -/
def Fmt.top (f : Fmt) : Nat := 2 ^ f.eb - 1

/-- The value of a code (R31, R36). -/
def decodeF (f : Fmt) (c : Nat) : FV :=
  let neg := bit c (f.eb + f.fb)
  let e := c / 2 ^ f.fb % 2 ^ f.eb
  let m := c % 2 ^ f.fb
  if f.full then
    if e = f.top then (if m = 0 then .inf neg else .nan)
    else if e = 0 then .fin neg m (1 - (f.bias : Int) - f.fb)
    else .fin neg (m + 2 ^ f.fb) ((e : Int) - f.bias - f.fb)
  else if e = 0 then .fin false 0 0
  else .fin neg (m + 2 ^ f.fb) ((e : Int) - f.bias - f.fb)

/-- A canonical NaN: sign 0, exponent all ones, the top fraction bit (R37 to R39, R43, R50). -/
def nanOf (f : Fmt) : Nat := f.top * 2 ^ f.fb + 2 ^ (f.fb - 1)

/-- An infinity. -/
def infOf (f : Fmt) (neg : Bool) : Nat := b2n neg * 2 ^ (f.eb + f.fb) + f.top * 2 ^ f.fb

/-- Rounding of a conversion (R55 to R58): to nearest even, stochastic with the draw r, or toward zero. -/
inductive Rnd where
  | rne
  | sr (r : Nat)
  | trunc
  deriving DecidableEq, Repr

/-- The multiple of 2^u that m * 2^e rounds to (R55 to R57). -/
def roundAt (r : Rnd) (m : Nat) (e u : Int) : Nat :=
  if u ≤ e then m <<< (e - u).toNat
  else
    let sh := (u - e).toNat
    let a := m >>> sh
    let rest := m - a <<< sh
    match r with
    | .rne => if 2 * rest < 1 <<< sh then a else if 1 <<< sh < 2 * rest then a + 1 else a + a % 2
    | .sr d => if d < (rest <<< 24) >>> sh then a + 1 else a
    | .trunc => a

/-- A code, the saturation flag and the non-finite flag (R63 to R65). -/
structure Conv where
  code : Nat
  sat : Bool
  nonfin : Bool
  deriving DecidableEq, Repr

/-- The largest finite code of QF6 and QF8, with a sign. -/
def maxCode (f : Fmt) (neg : Bool) : Nat := b2n neg * 2 ^ (f.eb + f.fb) + 2 ^ (f.eb + f.fb) - 1

/-- A value rounded into an unscaled floating-point format (R61 to R64). -/
def encodeF (f : Fmt) (r : Rnd) (v : FV) : Conv :=
  match v with
  | .nan => if f.full then ⟨nanOf f, false, false⟩ else ⟨0, false, true⟩
  | .inf neg => if f.full then ⟨infOf f neg, false, false⟩ else ⟨maxCode f neg, false, true⟩
  | .fin neg 0 _ => ⟨if f.full then b2n neg * 2 ^ (f.eb + f.fb) else 0, false, false⟩
  | .fin neg m e =>
    let s := b2n neg * 2 ^ (f.eb + f.fb)
    let lo : Int := 1 - (f.bias : Int)
    let ex : Int := (m.log2 : Int) + e
    let ex := if f.full then max ex lo else ex
    let q := roundAt r m e (ex - f.fb)
    let ex := if q = 2 ^ (f.fb + 1) then ex + 1 else ex
    let q := if q = 2 ^ (f.fb + 1) then 2 ^ f.fb else q
    if f.full then
      if q < 2 ^ f.fb then ⟨s + q, false, false⟩
      else if (f.top : Int) ≤ ex + f.bias then ⟨infOf f neg, false, false⟩
      else ⟨s + (ex + f.bias).toNat * 2 ^ f.fb + (q - 2 ^ f.fb), false, false⟩
    else if ex < lo then ⟨0, false, false⟩
    else if (f.top : Int) < ex + f.bias then ⟨maxCode f neg, true, false⟩
    else ⟨s + (ex + f.bias).toNat * 2 ^ f.fb + (q - 2 ^ f.fb), false, false⟩

/-- A copied code, with every NaN written as the canonical one (R69, kind =). -/
def copyF (f : Fmt) (c : Nat) : Nat :=
  match decodeF f c with
  | .nan => nanOf f
  | _ => if f.full then c else if c / 2 ^ f.fb % 2 ^ f.eb = 0 then 0 else c

/-! ### Scaled formats -/

/-- A value times 2^k. -/
def scaleBy (k : Int) : FV → FV
  | .fin n m e => .fin n m (e + k)
  | v => v

/-- The integer that a two's-complement field of w bits holds. -/
def signedOf (w c : Nat) : Int := if bit c (w - 1) then (c : Int) - 2 ^ w else c

/-- The two's-complement field of w bits that holds an integer. -/
def unsignedOf (w : Nat) (i : Int) : Nat := (i % 2 ^ w).toNat

/-- The value of an integer. -/
def ofInt (i : Int) : FV := .fin (decide (i < 0)) i.natAbs 0

/-- A block scale marked poisoned (R46). -/
def scalePoisoned (sc : Nat) : Bool := bit sc 7

/-- The value of an element of a block: its code's value times 2^(x - 63); an element of a poisoned block has none and
reads as NaN (R33, R36, R44, R46, R48). -/
def elemValue (fmt c : Nat) (scale : Option Nat) : FV :=
  let base : FV := match fmt with
    | 0 => ofInt (signedOf 4 c)
    | 7 => ofInt (signedOf 16 c)
    | _ => match fmtOf fmt with | some f => decodeF f c | none => .fin false 0 0
  match scale with
  | none => base
  | some sc => if scalePoisoned sc then .nan else scaleBy ((sc % 128 : Nat) - 63 : Int) base

/-- L of R66: the largest magnitude of a scaled element. -/
def scaleL : Nat → Nat
  | 0 => 7
  | 1 => 14
  | 2 => 240
  | _ => 32767

/-- m1 * 2^e1 ≤ m2 * 2^e2. -/
def magLe (m1 : Nat) (e1 : Int) (m2 : Nat) (e2 : Int) : Bool :=
  if e1 ≤ e2 then decide (m1 ≤ m2 <<< (e2 - e1).toNat) else decide (m1 <<< (e1 - e2).toNat ≤ m2)

/-- A finite value. -/
def FV.isFinite : FV → Bool
  | .fin _ _ _ => true
  | _ => false

/-- The exponent of the local scale rule (R66), or none when no exponent suffices. -/
def localScale (fmt : Nat) (l : List FV) : Option Nat :=
  let fits (x : Nat) (v : FV) : Bool := match v with
    | .fin _ m e => magLe m e (scaleL fmt) ((x : Int) - 63)
    | _ => true
  (List.range 128).find? fun x => l.all (fits x)

/-- An integer element: the rounded integer, with the sign applied afterwards (R55). -/
def roundInt (r : Rnd) (v : FV) : Int :=
  match v with
  | .fin n m e => if n then -(roundAt r m e 0 : Int) else (roundAt r m e 0 : Int)
  | _ => 0

/-- An element rounded at exponent x, saturated at the extremes of its range (R67). -/
def encodeScaled (fmt x : Nat) (r : Rnd) (v : FV) : Conv :=
  let w := scaleBy (63 - (x : Int)) v
  match fmt with
  | 0 =>
    let i := roundInt r w
    if 7 < i then ⟨7, true, false⟩ else if i < -8 then ⟨8, true, false⟩ else ⟨unsignedOf 4 i, false, false⟩
  | 7 =>
    let i := roundInt r w
    if 32767 < i then ⟨0x7FFF, true, false⟩ else if i < -32768 then ⟨0x8000, true, false⟩
    else ⟨unsignedOf 16 i, false, false⟩
  | 1 => encodeF qf6 r w
  | _ => encodeF qf8 r w

/-- A converted block: its element codes, its scale byte, RESCALED, and the flags (R47, R66 to R68). -/
structure Block where
  codes : List Nat
  scale : Nat
  rescaled : Bool
  sat : Bool
  nonfin : Bool
  deriving DecidableEq, Repr

/-- A poisoned block (R47). -/
def poisonBlock (n : Nat) (sat nonfin : Bool) : Block :=
  { codes := List.replicate n 0, scale := 0xFF, rescaled := false, sat := sat, nonfin := nonfin }

/-- The elements of a block at exponent x. -/
def blockAt (fmt x : Nat) (l : List (FV × Rnd)) (rescaled : Bool) : Block :=
  let c := l.map fun e => encodeScaled fmt x e.2 e.1
  { codes := c.map (·.code), scale := x, rescaled := rescaled, sat := c.any (·.sat), nonfin := false }

/-- A block converted under the local scale rule, or at a given exponent (R64, R66 to R68). Each value comes with the
rounding of its own element. -/
def convBlock (fmt : Nat) (given : Option Nat) (l : List (FV × Rnd)) : Block :=
  if l.any (fun e => !e.1.isFinite) then poisonBlock l.length false true
  else match given with
    | none =>
      match localScale fmt (l.map (·.1)) with
      | some x => blockAt fmt x l false
      | none => poisonBlock l.length true false
    | some x =>
      if fmt = 7 then
        match (upTo x (128 - x)).find? fun y => l.all fun e => !(encodeScaled 7 y e.2 e.1).sat with
        | some y => blockAt 7 y l (y != x)
        | none => poisonBlock l.length true false
      else blockAt fmt x l false

/-! ### The stochastic generator (R59) -/

def mix32 (v : Nat) : Nat :=
  let v := v ^^^ (v >>> 16)
  let v := v * 0x6A5D39E9 % 2 ^ 32
  let v := v ^^^ (v >>> 13)
  let v := v * 0xB4C32F1B % 2 ^ 32
  v ^^^ (v >>> 16)

/-- The 24-bit draw for one destination element (R59, R60). -/
def srDraw (seed stream row col : Nat) : Nat :=
  let a := mix32 ((seed % 2 ^ 32) ^^^ (row % 2 ^ 32))
  let b := mix32 ((seed / 2 ^ 32 % 2 ^ 32) ^^^ (col % 2 ^ 32) ^^^ a)
  let c := mix32 ((stream % 2 ^ 32) ^^^ b ^^^ 0x5C1E0A37)
  mix32 (a ^^^ c) >>> 8

/-- The rounding of an element under a rounding-mode code: 0 to nearest even, 1 stochastic (R55). -/
def rndOf (mode seed stream row col : Nat) : Rnd :=
  if mode = 1 then .sr (srDraw seed stream row col) else .rne

/-! ### Packing (R53, R54) -/

/-- Elements and bytes of a group. -/
def groupOf : Nat → Nat × Nat
  | 0 => (2, 1)
  | 1 => (4, 3)
  | 3 => (2, 3)
  | 2 => (1, 1)
  | 4 => (1, 2)
  | 5 => (1, 4)
  | 6 => (1, 5)
  | 7 => (32, 66)
  | 8 => (1, 4)
  | _ => (1, 1)

/-- Bytes of a row of n elements: whole groups (R54). -/
def rowBytes (fmt n : Nat) : Nat := ceilDiv n (groupOf fmt).1 * (groupOf fmt).2

/-- Element k of a packed row (R53). QR16 elements stand in transit blocks (R49). -/
def elemAt (fmt : Nat) (l : List Byte) (k : Nat) : Nat :=
  if fmt = 7 then fieldOf l (k / 32 * 66 + k % 32 * 2) 2
  else
    let w := widthOf fmt
    fieldOf l (k * w / 8) ((k * w % 8 + w + 7) / 8) / 2 ^ (k * w % 8) % 2 ^ w

/-- A row packed from its codes, padding written as code 0 (R54). Not for QR16. -/
def packRow (fmt : Nat) (codes : List Nat) : List Byte :=
  let w := widthOf fmt
  leBytes (rowBytes fmt codes.length) ((codes.mapIdx fun i c => c % 2 ^ w * 2 ^ (i * w)).sum)

/-- A QR16 transit block (R49). -/
def transitBlock (b : Block) : List Byte :=
  (padTo (b.codes.flatMap fun c => leBytes 2 c) 64) ++ [BitVec.ofNat 8 b.scale] ++
    [if b.rescaled then 0x80 else 0x00]

/-- A transit block read back: element codes, scale and RESCALED. -/
def readTransit (l : List Byte) : Block :=
  { codes := (List.range 32).map fun i => fieldOf l (2 * i) 2, scale := fieldOf l 64 1, rescaled := bit (fieldOf l 65 1) 7,
    sat := false, nonfin := false }

/-! ### Unscaled conversions by kind (R69) -/

/-- A conversion between two unscaled formats, or from a scaled element, into an unscaled destination: the same format is
copied; QW32 to QW16 truncates to the heartwood (R40, R58), a NaN becoming the canonical QW16 NaN (R64) also where its heartwood
alone would be an infinity; any other is rounded. DEDUCED: log entry 123. -/
def convElem (from_ to_ : Nat) (r : Rnd) (c : Nat) (scale : Option Nat) : Conv :=
  match fmtOf to_ with
  | none => ⟨0, false, false⟩
  | some f =>
    if from_ = to_ ∧ scale = none then ⟨copyF f c, false, false⟩
    else if from_ = codeQW32 ∧ to_ = codeQW16 then
      ⟨match decodeF qw32 c with | .nan => nanOf qw16 | _ => c / 2 ^ 16, false, false⟩
    else encodeF f r (elemValue from_ c scale)

end Sys2Proof.Machine
end

