-- ==== Sys2Proof/Machine/Descriptor.lean ====
section
/-!
DEFINITION. Machine/Descriptor.lean: the 256-byte descriptor of a tensor operation, its fields and the checks made when
a die takes it (R126 to R132, R140, R141, R146, R176).
-/

namespace Sys2Proof.Machine

/-! ### The header (R128) -/

/-- Word k of the descriptor; words 0 to 7 are the header, 8 to 15 A, 16 to 23 B, 24 to 31 D (R127). -/
def Op.w (o : Op) (k : Nat) : Nat := lget 0 o.words k

def Op.opcode (o : Op) : Nat := bits (o.w 0) 63 56
def Op.jobField (o : Op) : Nat := bits (o.w 0) 55 52
def Op.slot (o : Op) : Nat := bits (o.w 0) 51 47
def Op.slotEn (o : Op) : Bool := bit (o.w 0) 46
def Op.acc (o : Op) : Bool := bit (o.w 0) 45
def Op.rnd (o : Op) : Nat := bits (o.w 0) 44 43
def Op.fence (o : Op) : Bool := bit (o.w 0) 42
def Op.strict (o : Op) : Bool := bit (o.w 0) 41
def Op.vdir (o : Op) : Nat := bits (o.w 0) 40 39
def Op.dt (o : Op) : Bool := bit (o.w 0) 38
def Op.dxEn (o : Op) : Bool := bit (o.w 0) 37
def Op.dx (o : Op) : Nat := bits (o.w 0) 36 30
def Op.splitEng (o : Op) : Nat := bits (o.w 0) 29 27
def Op.splitDie (o : Op) : Nat := bits (o.w 0) 26 25
def Op.engine (o : Op) : Nat := bits (o.w 0) 24 19
def Op.tile (o : Op) : Nat := bits (o.w 0) 18 14
def Op.vfunc (o : Op) : Nat := bits (o.w 0) 7 0
def Op.seed (o : Op) : Nat := o.w 1
def Op.stream (o : Op) : Nat := bits (o.w 2) 63 32
def Op.tag (o : Op) : Nat := bits (o.w 2) 31 0
def Op.m0 (o : Op) : Nat := bits (o.w 3) 63 32
def Op.n0 (o : Op) : Nat := bits (o.w 3) 31 0
def Op.k0 (o : Op) : Nat := bits (o.w 4) 63 32
def Op.klen (o : Op) : Nat := bits (o.w 4) 31 0
def Op.dm0 (o : Op) : Nat := bits (o.w 5) 63 32
def Op.dn0 (o : Op) : Nat := bits (o.w 5) 31 0
def Op.waitAddr (o : Op) : Nat := o.w 6
def Op.waitVal (o : Op) : Nat := bits (o.w 7) 63 32
def Op.scalar (o : Op) : Nat := bits (o.w 7) 31 0

/-- Layer of a stash operation (R176). -/
def Op.layer (o : Op) : Nat := o.k0

/-- DX when it is given (R67, R68). -/
def Op.given (o : Op) : Option Nat := if o.dxEn then some o.dx else none

/-! ### Tensor references (R129, R130) -/

/-- A tensor reference. -/
structure TRef where
  base : Nat
  fmt : Nat
  blk : Nat
  remote : Bool
  alloc : Bool
  device : Nat
  rows : Nat
  cols : Nat
  stride : Nat
  scaleBase : Nat
  scaleStride : Nat
  rowOff : Nat
  colOff : Nat
  deriving DecidableEq, Repr

/-- The reference whose words start at word k of the descriptor. -/
def Op.ref (o : Op) (k : Nat) : TRef :=
  { base := o.w k, fmt := bits (o.w (k + 1)) 63 60, blk := bits (o.w (k + 1)) 59 58, remote := bit (o.w (k + 1)) 57,
    alloc := bit (o.w (k + 1)) 56, device := bits (o.w (k + 1)) 49 36, rows := bits (o.w (k + 1)) 31 0,
    cols := bits (o.w (k + 2)) 63 32, stride := o.w (k + 3), scaleBase := o.w (k + 4),
    scaleStride := bits (o.w (k + 5)) 63 32, rowOff := bits (o.w (k + 6)) 63 32, colOff := bits (o.w (k + 6)) 31 0 }

def Op.a (o : Op) : TRef := o.ref 8
def Op.b (o : Op) : TRef := o.ref 16
def Op.d (o : Op) : TRef := o.ref 24

/-- Elements of a block; 0 for an unscaled view (R30). -/
def TRef.block (t : TRef) : Nat := if t.blk = 0 then 0 else blockLen t.blk

/-- The scales lie in an array of their own: not for unscaled views, and not for QR16 (R129). -/
def TRef.scaled (t : TRef) : Bool := t.blk != 0 && t.fmt != codeQR16

/-! ### Checks (R9, R30, R72, R74, R126 to R146, R176) -/

/-- Opcodes that form products, that drain a tile, and that name a tile. -/
def isMma (c : Nat) : Bool := c == 1 || c == 2
def isDrain (c : Nat) : Bool := c == 2 || c == 3
def isVec (c : Nat) : Bool := c == 0x10 || c == 0x11
def isStash (c : Nat) : Bool := decide (0x20 ≤ c) && decide (c ≤ 0x23)

/-- Opcodes that the package knows (R126, R176). -/
def opcodeOk (c : Nat) : Bool := c == 0 || isMma c || c == 3 || c == 5 || isVec c || isStash c

/-- Opcodes that convert into a destination with RND, SEED, STREAM, DX_EN and DX. -/
def isConv (c : Nat) : Bool := isDrain c || isVec c || c == 0x21

/-- Vector functions that read B (R140). -/
def usesB (f : Nat) : Bool := decide (1 ≤ f ∧ f ≤ 5) || decide (0x0A ≤ f ∧ f ≤ 0x0E)

/-- The references that an operation uses. -/
def Op.usesA (o : Op) : Bool := isMma o.opcode || o.opcode == 5 || isVec o.opcode || o.opcode == 0x21 || o.opcode == 0x22
def Op.usesRefB (o : Op) : Bool := isMma o.opcode || (o.opcode == 0x10 && usesB o.vfunc)
def Op.usesD (o : Op) : Bool := isDrain o.opcode || isVec o.opcode

/-- The fields of a reference: byte offset, word, high and low bit. -/
def refFields : List (Nat × Nat × Nat × Nat) :=
  [(0, 0, 63, 0), (8, 1, 31, 0), (12, 1, 49, 32), (14, 1, 55, 50), (15, 1, 63, 56), (16, 2, 31, 0), (20, 2, 63, 32),
   (24, 3, 63, 0), (32, 4, 63, 0), (40, 5, 31, 0), (44, 5, 63, 32), (48, 6, 31, 0), (52, 6, 63, 32), (56, 7, 63, 0)]

/-- What is wrong with a reference that the operation does not use: a field that is not 0 (R129). -/
def unusedChecks (o : Op) (k : Nat) : List (Bool × Nat) :=
  refFields.map fun f => (bits (o.w (k + f.2.1)) f.2.2.1 f.2.2.2 != 0, 8 * k + f.1)

/-- What is wrong with a reference that the operation uses (R30, R129, R130). -/
def refChecks (o : Op) (k : Nat) : List (Bool × Nat) :=
  let t := o.ref k
  let at_ : Nat → Nat := fun b => 8 * k + b
  let pair := pairingOk t.fmt t.blk
  [(t.base % 64 != 0, at_ 0), (!pair, at_ 15), (bits (o.w (k + 1)) 55 50 != 0, at_ 14),
   (!t.remote && t.device != 0, at_ 12), (bits (o.w (k + 1)) 35 32 != 0, at_ 12), (t.rows == 0, at_ 8),
   (t.cols == 0, at_ 20), (bits (o.w (k + 2)) 31 0 != 0, at_ 16),
   (pair && (t.stride % 64 != 0 || decide (t.stride < rowBytes t.fmt t.cols)), at_ 24),
   (!t.scaled && t.scaleBase != 0, at_ 32),
   (pair && t.scaled && decide (t.scaleStride < ceilDiv t.cols t.block), at_ 44),
   (bits (o.w (k + 5)) 31 0 != 0, at_ 40), (pair && t.block != 0 && t.colOff % t.block != 0, at_ 48),
   (o.w (k + 7) != 0, at_ 56)]

/-- What is wrong with one of the references of the operation. -/
def useChecks (o : Op) (used : Bool) (k : Nat) : List (Bool × Nat) := if used then refChecks o k else unusedChecks o k

/-- What is wrong with the header of an operation taken by die n (R128, R131, R132, R146). Where R128 leaves open whether a field
is used: DM0, DN0 and DT of a vector operation are accepted whatever they hold; DX must be 0 with DX_EN 0; SLOT with SLOT_EN 0
and WAIT_VAL with WAIT_ADDR 0 are accepted. DEDUCED: log entry 122. -/
def headerChecks (n : Nat) (o : Op) : List (Bool × Nat) :=
  let c := o.opcode
  let tiles := isMma c || c == 3 || c == 5
  [(!opcodeOk c, 7), (bits (o.w 0) 13 8 != 0, 1), (!isMma c && o.acc, 5), (!isConv c && o.rnd != 0, 5),
   (decide (1 < o.rnd), 5), (!isVec c && o.strict, 5), (o.vdir != 0 && !(isVec c && o.strict), 4),
   (!(isDrain c || isVec c) && o.dt, 4), (!isConv c && o.dxEn, 4), (!o.dxEn && o.dx != 0, 3),
   (!isMma c && o.splitEng != 0, 3), (decide (6 < o.splitEng), 3), (!isMma c && o.splitDie != 0, 3),
   (isMma c && n % 2 ^ o.splitDie != 0, 3), (!tiles && o.engine != 0, 2),
   (isMma c && o.engine % 2 ^ o.splitEng != 0, 2), (!tiles && o.tile != 0, 1), (!isVec c && o.vfunc != 0, 0),
   (c == 0x10 && decide (0x12 < o.vfunc), 0), (c == 0x11 && !(decide (0x20 ≤ o.vfunc) && decide (o.vfunc ≤ 0x22)), 0),
   (!isConv c && o.seed != 0, 8), (!isConv c && o.stream != 0, 20), (!isMma c && o.m0 != 0, 28),
   (!isMma c && o.n0 != 0, 24), (!isMma c && !isStash c && o.k0 != 0, 36),
   (!isMma c && c != 0x20 && o.klen != 0, 32), (!(isDrain c || isVec c) && o.dm0 != 0, 44),
   (!(isDrain c || isVec c) && o.dn0 != 0, 40), (o.waitAddr % 4 != 0, 48),
   (!(c == 0x10 && (o.vfunc == 9 || o.vfunc == 0x11 || o.vfunc == 0x12)) && o.scalar != 0, 56),
   (isStash c && !o.slotEn, 5)]

/-- A matrix-engine operand (R72). -/
def isOperand (fmt : Nat) : Bool := decide (fmt ≤ 4)

/-- What is wrong with the operands of a product (R72, R74, R131). DEDUCED: log entry 72. -/
def productChecks (o : Op) : List (Bool × Nat) :=
  let one : TRef → Nat → List (Bool × Nat) := fun t k =>
    [(!isOperand t.fmt, 8 * k + 15), (decide (t.cols < o.k0 + o.klen), 36),
     (t.block != 0 && o.k0 % t.block != 0, 36)]
  one o.a 8 ++ one o.b 16

/-- What is wrong with the place of a drain (R132). DEDUCED: log entry 66. -/
def drainChecks (o : Op) : List (Bool × Nat) :=
  let first := if o.dt then o.dm0 else o.dn0
  [(o.d.block != 0 && (o.d.colOff + first) % o.d.block != 0, if o.dt then 44 else 40)]

/-- What is wrong with the shapes and formats of a vector operation (R141). -/
def vectorChecks (o : Op) : List (Bool × Nat) :=
  let plain : TRef → Bool := fun t => t.fmt == codeB32 && t.blk == 0
  if o.opcode = 0x10 then
    [(o.a.rows != o.d.rows, 200), (o.a.cols != o.d.cols, 212),
     (usesB o.vfunc && o.b.cols != o.a.cols, 148), (usesB o.vfunc && o.b.rows != o.a.rows && o.b.rows != 1, 136),
     (o.vfunc == 0x10 && !plain o.a, 79), (o.vfunc == 0x0F && !plain o.d, 207)]
  else [(o.d.cols != 1, 212), (o.d.rows != o.a.rows, 200)]

/-- Every check of a descriptor taken by die n: whether it fails, and the byte that holds the least significant bit of
the field (R149). -/
def opChecks (n : Nat) (o : Op) : List (Bool × Nat) :=
  if !opcodeOk o.opcode then [(true, 7), (bits (o.w 0) 13 8 != 0, 1)]
  else headerChecks n o ++ useChecks o o.usesA 8 ++ useChecks o o.usesRefB 16 ++ useChecks o o.usesD 24
    ++ (if isMma o.opcode then productChecks o else [])
    ++ (if isDrain o.opcode then drainChecks o else [])
    ++ (if isVec o.opcode then vectorChecks o else [])
    ++ (if o.opcode = 5 then [(o.a.fmt != codeQA40 || o.a.blk != 0, 79)] else [])

/-- The lowest offset of a field that breaks a rule. DEDUCED: log entry 63. -/
def firstBroken (l : List (Bool × Nat)) : Option Nat := ((l.filter (·.1)).map (·.2)).min?

/-! ### Tiles named (R142, R146) -/

/-- The dies of an operation that die n takes. -/
def Op.dies (o : Op) (n : Nat) : List Nat := if isMma o.opcode then upTo n (2 ^ o.splitDie) else [n]

/-- The engines of an operation on each of its dies. -/
def Op.engines (o : Op) : List Nat :=
  if isMma o.opcode then upTo o.engine (2 ^ o.splitEng)
  else if o.opcode = 3 ∨ o.opcode = 5 then [o.engine] else []

/-- Number of a tile within its die. -/
def tileKey (engine tile : Nat) : Nat := engine * 32 + tile

/-- The tiles that an operation names on each of its dies. -/
def Op.tiles (o : Op) : List Nat := o.engines.map (tileKey · o.tile)

/-- An operation taken earlier names one of the same tiles and has not finished its use of it (R144). -/
def tileHeld (d : Die) (o : Op) : Bool :=
  d.ops.any fun p => decide (p.isn < o.isn) && p.phase != .done && p.tiles.any (o.tiles.contains ·)

/-- Quadrant of an engine, and of a vector unit (R100). -/
def engineQuad (e : Nat) : Nat := e / 16

/-- The first engine of an operation in a quadrant that is off, as die and engine (R24, R148). -/
def offEngine (s : State) (n : Nat) (o : Op) : Option (Nat × Nat) :=
  ((o.dies n).flatMap fun d => o.engines.map (d, ·)).find? fun x => !s.on (domQuad x.1 (engineQuad x.2))

end Sys2Proof.Machine
end

