-- ==== Sys2Proof/Machine/DotProduct.lean ====
section
/-!
DEFINITION. Machine/DotProduct.lean: the dot product step by step (R71 to R87): exact products, chunk sums, promotion into
QA40, and QA40 addition.
-/

namespace Sys2Proof.Machine

/-- A finite value as an integer multiple of a power of two. -/
structure XNum where
  i : Int
  e : Int
  deriving DecidableEq, Repr

/-- The exact sum of two such values. -/
def XNum.add (a b : XNum) : XNum :=
  let e := min a.e b.e
  { i := a.i * 2 ^ (a.e - e).toNat + b.i * 2 ^ (b.e - e).toNat, e := e }

/-- Zero. -/
def XNum.zero : XNum := { i := 0, e := 0 }

/-- A finite value as an integer multiple of a power of two. -/
def FV.toX : FV → XNum
  | .fin n m e => { i := if n then -(m : Int) else m, e := e }
  | _ => XNum.zero

/-- A sum of values: an exact addend of 0 drops out, so that its exponent does not matter. -/
def XNum.plus (a b : XNum) : XNum := if a.i = 0 then b else if b.i = 0 then a else a.add b

/-- The product of two elements (R76, R77). -/
def mulF : FV → FV → FV
  | .nan, _ => .nan
  | _, .nan => .nan
  | .inf a, .inf b => .inf (a != b)
  | .inf a, .fin b m _ => if m = 0 then .nan else .inf (a != b)
  | .fin a m _, .inf b => if m = 0 then .nan else .inf (a != b)
  | .fin a m e, .fin b n f => .fin (a != b) (m * n) (e + f)

/-- A value rounded to QA40 at promotion: to nearest even, but with a sticky bit a tie goes in the direction of the sign
of w (R83). `sticky` is the sign of w when s is 1. -/
def roundQa (x : XNum) (sticky : Option Bool) : Nat :=
  let neg := decide (x.i < 0)
  let m := x.i.natAbs
  let u : Int := max ((m.log2 : Int) + x.e) (-254) - 30
  let tie := decide (x.e < u) && m % 2 ^ (u - x.e).toNat == 2 ^ ((u - x.e).toNat - 1)
  let r : Rnd := match sticky with
    | some w => if tie then (if w = neg then .sr 0 else .trunc) else .rne
    | none => .rne
  (encodeF qa40 r (.fin neg m x.e)).code

/-- Promotion of a chunk sum into the running total (R83 to R85). -/
def promote (t : Nat) (c : FV) (sticky : Option Bool) : Nat :=
  match decodeF qa40 t, c with
  | .nan, _ => nanOf qa40
  | _, .nan => nanOf qa40
  | .inf a, .inf b => if a = b then infOf qa40 a else nanOf qa40
  | .inf a, .fin _ _ _ => infOf qa40 a
  | .fin _ _ _, .inf b => infOf qa40 b
  | .fin a m e, .fin b n f =>
    if n = 0 then t
    else
      let x := ((FV.fin a m e).toX).plus (FV.fin b n f).toX
      if x.i = 0 then 0 else roundQa x sticky

/-- QA40 addition: the second value is promoted into the first (R86). -/
def qaAdd (t c : Nat) : Nat := promote t (decodeF qa40 c) none

/-- The sum of a chunk with a non-finite product (R78). -/
def nonfiniteSum (l : List FV) : FV :=
  let pos := l.contains (.inf false)
  let neg := l.contains (.inf true)
  if l.contains .nan || (pos && neg) then .nan else if pos then .inf false else .inf true

/-- The exact sum of finite products. -/
def exactSum (l : List FV) : XNum := l.foldl (fun a v => a.plus v.toX) XNum.zero

/-- An exact value as a finite value. -/
def XNum.toF (x : XNum) : FV := .fin (decide (x.i < 0)) x.i.natAbs x.e

/-- The sum of one wide chunk of finite products: the window and its sticky bit (R80, R81). -/
def wideSum (l : List FV) : FV × Option Bool :=
  let nz := l.filter fun v => match v with | .fin _ m _ => m != 0 | _ => false
  match nz with
  | [] => (.fin false 0 0, none)
  | v :: r =>
    let top : FV → Int := fun v => match v with | .fin _ m e => (m.log2 : Int) + e | _ => 0
    let u : Int := r.foldl (fun a w => max a (top w)) (top v) - 56
    let part : FV → Int := fun v => match v with
      | .fin n m e =>
        let q : Int := (if u ≤ e then m <<< (e - u).toNat else m >>> (u - e).toNat : Nat)
        if n then -q else q
      | _ => 0
    let lost : FV → Bool := fun v => match v with
      | .fin _ m e => if u ≤ e then false else m % 2 ^ (u - e).toNat != 0
      | _ => false
    let w := (nz.map part).sum
    (.fin (decide (w < 0)) w.natAbs u, if nz.any lost then some (decide (w < 0)) else none)

/-- The parts of a narrow chunk: maximal runs of one combined scale exponent (R75). -/
def chunkParts (l : List (FV × Int)) : List (List (FV × Int)) := l.splitBy fun a b => a.2 == b.2

/-- One chunk promoted into the total (R75, R78 to R83). Each product comes with its combined scale exponent. -/
def promoteChunk (narrow : Bool) (t : Nat) (l : List (FV × Int)) : Nat :=
  let p := l.map (·.1)
  if p.any (fun v => !v.isFinite) then promote t (nonfiniteSum p) none
  else if narrow then
    (chunkParts l).foldl (fun t q => promote t (exactSum (q.map (·.1))).toF none) t
  else
    let w := wideSum p
    promote t w.1 w.2

/-- The products promoted chunk by chunk, in ascending index order (R74, R83). -/
def promoteAll : Nat → Nat → Bool → Nat → List (FV × Int) → Nat
  | 0, _, _, t, _ => t
  | f + 1, c, narrow, t, l =>
    match l with
    | [] => t
    | _ => promoteAll f c narrow (promoteChunk narrow t (l.take c)) (l.drop c)

/-- Summation class of an operand pair: narrow or wide, and the chunk length (R73). -/
def classOf (fa fb : Nat) : Bool × Nat :=
  if fa ≤ 1 ∧ fb ≤ 1 then (true, 64) else if fa ≤ 2 ∧ fb ≤ 2 then (true, 32) else (false, 32)

/-- A dot product of given products, from a starting value (R71, R82, R87). -/
def dotProduct (fa fb start : Nat) (l : List (FV × Int)) : Nat :=
  promoteAll (l.length + 1) (classOf fa fb).2 (classOf fa fb).1 start l

/-- Neighbours combined over a list, the even one as T (R147). -/
def combinePairs (f : α → α → α) : List α → List α
  | a :: b :: r => f a b :: combinePairs f r
  | l => l

/-- The fixed binary tree over 2^d leaves (R97, R147). -/
def combineTree (f : α → α → α) : Nat → List α → List α
  | 0, l => l
  | d + 1, l => combineTree f d (combinePairs f l)

end Sys2Proof.Machine
end

