-- ==== Sys2Proof/Machine/Operands.lean ====
section
/-!
DEFINITION. Machine/Operands.lean: every operand form of a tensor operation: views in device memory, in the host window
and on another package, read element by element and written row by row (R53, R54, R129, R130, R285, R438 to R441).
-/

namespace Sys2Proof.Machine

/-- How an operation fails: STATUS, ERROR_ADDR and the detail of the job's fault (R149, R151, R557). -/
structure Bad where
  status : Nat
  addr : Nat
  detail : Nat
  deriving DecidableEq, Repr

/-- What a piece of work answers beside the new state. -/
abbrev Res (α : Type) := Except Bad α × State

/-- The work of a list, in order, up to the first failure. -/
def mapRes {α β : Type} (f : α → State → Res β) : List α → State → Res (List β)
  | [], s => (.ok [], s)
  | a :: r, s =>
    match f a s with
    | (.error e, s) => (.error e, s)
    | (.ok b, s) =>
      match mapRes f r s with
      | (.error e, s) => (.error e, s)
      | (.ok l, s) => (.ok (b :: l), s)

/-- Work that follows work. -/
def thenRes {α β : Type} (x : Res α) (f : α → State → Res β) : Res β :=
  match x with
  | (.error e, s) => (.error e, s)
  | (.ok a, s) => f a s

/-- The operation that work belongs to: the die it was taken on, its job, and itself. -/
structure Ctx where
  die : Nat
  job : Nat
  op : Op
  deriving DecidableEq, Repr

/-- The owner of the operation's remote requests. -/
def Ctx.owner (x : Ctx) : RemOwner := .op x.die x.op.isn

/-! ### Reading bytes -/

/-- The first line of a range that fails a test, as the address in the range that it holds. DEDUCED: log entry 63. -/
def badLine (p : Nat → Bool) (a n : Nat) : Option Nat := ((linesOf a n).find? fun l => !p l).map (max a)

/-- A line may be used by a job with the right asked for, and can be accessed (R113, R195, R372).
DEDUCED: log entry 107. -/
def lineUsable (s : State) (j : Nat) (right : Prot → Bool) (l : Nat) : Bool :=
  ((s.job j).prots.any fun p => p.has right l) && memOk s l

/-- Bytes of device memory that an operation reads on die n. -/
def fetchDevice (x : Ctx) (n : Nat) (alloc : Bool) (a len : Nat) (s : State) : Res (List Byte) :=
  match badLine (lineUsable s x.job (·.read)) a len with
  | some b => (.error ⟨2, b, 0⟩, s)
  | none =>
    let r := readStream n alloc a len (streamErrors n a len s)
    if r.1.2 then (.error ⟨3, (badLine (fun l => !linePoison r.2 l) a len).getD a, 0⟩, r.2) else (.ok r.1.1, r.2)

/-- Bytes of host memory that the operation's reads have brought (R440). -/
def fetchHost (x : Ctx) (a h len : Nat) (s : State) : Res (List Byte) :=
  if !protOk (s.job x.job).prots (·.read) a len then (.error ⟨2, a, 0⟩, s)
  else (.ok (hostBytes s h len), s)

/-- The answer to a remote read of the operation that holds an address. -/
def remoteLine (x : Ctx) (s : State) (dev a : Nat) : Option Remote :=
  s.fab.remotes.find? fun r => r.owner == x.owner && r.isRead && r.dst == dev && r.addr == lineOf a

/-- A byte of another package that the operation's reads have brought (R286). -/
def remoteByte (x : Ctx) (s : State) (dev a : Nat) : Byte :=
  match remoteLine x s dev a with
  | some { answer := some (true, l, _), .. } => l.getD (a % 64) 0
  | _ => 0

/-- A line that a remote read brought is poisoned (R286). -/
def remotePoison (x : Ctx) (s : State) (dev a : Nat) : Bool :=
  match remoteLine x s dev a with
  | some { answer := some (true, _, m), .. } => bit m 0
  | _ => false

/-- Bytes of another package that the operation's reads have brought. -/
def fetchRemote (x : Ctx) (dev a len : Nat) (s : State) : Res (List Byte) :=
  match badLine (fun l => !remotePoison x s dev l) a len with
  | some b => (.error ⟨3, b, 0⟩, s)
  | none => (.ok ((List.range len).map fun i => remoteByte x s dev (a + i)), s)

/-- Bytes of a view, read on die n. -/
def fetch (x : Ctx) (n : Nat) (t : TRef) (a len : Nat) (s : State) : Res (List Byte) :=
  if len = 0 then (.ok [], s)
  else if t.remote then fetchRemote x t.device a len s
  else match hostOf s a with
    | some h => fetchHost x a h len s
    | none => fetchDevice x n t.alloc a len s

/-! ### Reading elements -/

/-- An element as it was read: its code, its block's scale, its value, and its share of the combined scale exponent
(R75). -/
structure Elem where
  code : Nat
  scale : Option Nat
  val : FV
  sx : Int
  deriving DecidableEq, Repr

/-- First group and number of groups that hold columns c0 to c0 + len - 1. -/
def groupsOf (fmt c0 len : Nat) : Nat × Nat :=
  let g := (groupOf fmt).1
  (c0 / g, (c0 + len - 1) / g + 1 - c0 / g)

/-- Address and number of the bytes that hold columns of a row (R130). -/
def rowRange (t : TRef) (r c0 len : Nat) : Nat × Nat :=
  if len = 0 then (t.base, 0)
  else
    let g := groupsOf t.fmt c0 len
    (t.base + r * t.stride + g.1 * (groupOf t.fmt).2, g.2 * (groupOf t.fmt).2)

/-- Address and number of the scales of the blocks of those columns. -/
def scaleRange (t : TRef) (r c0 len : Nat) : Nat × Nat :=
  if len = 0 ∨ !t.scaled then (t.scaleBase, 0)
  else (t.scaleBase + r * t.scaleStride + c0 / t.block, (c0 + len - 1) / t.block + 1 - c0 / t.block)

/-- Element i of the columns from c0 on, from the bytes of their groups and the scales of their blocks. -/
def elemOf (t : TRef) (c0 : Nat) (l scales : List Byte) (i : Nat) : Elem :=
  let k := c0 - (groupsOf t.fmt c0 1).1 * (groupOf t.fmt).1 + i
  let code := elemAt t.fmt l k
  let scale := if t.fmt = codeQR16 then some (fieldOf l (k / 32 * 66 + 64) 1)
    else if t.scaled then some ((scales.getD ((c0 + i) / t.block - c0 / t.block) 0).toNat) else none
  { code := code, scale := scale, val := elemValue t.fmt code scale,
    sx := match scale with | some sc => ((sc % 128 : Nat) : Int) - 63 | none => 0 }

/-- Columns c0 to c0 + len - 1 of row r of a view, read on die n. DEDUCED: log entry 116. -/
def readElems (x : Ctx) (n : Nat) (t : TRef) (r c0 len : Nat) (s : State) : Res (List Elem) :=
  let a := rowRange t r c0 len
  let b := scaleRange t r c0 len
  thenRes (fetch x n t a.1 a.2 s) fun l s =>
    thenRes (fetch x n t b.1 b.2 s) fun sc s => (.ok ((List.range len).map (elemOf t c0 l sc)), s)

/-! ### Reads of host memory and of other packages -/

/-- The columns of one row that an operation reads: the view, the row, the first column and their number. -/
structure RowUse where
  t : TRef
  row : Nat
  c0 : Nat
  len : Nat
  deriving DecidableEq, Repr

/-- The first 64 rows of a view from a row on, where they exist. -/
def tileRows (t : TRef) (first c0 len : Nat) : List RowUse :=
  ((List.range 64).filter fun i => decide (first + i < t.rows)).map fun i => ⟨t, first + i, c0, len⟩

/-- Every row of a view. -/
def allRows (t : TRef) : List RowUse := (List.range t.rows).map fun r => ⟨t, r, 0, t.cols⟩

/-- Columns c0 on of a row begin or end inside a group, beside elements of the row that are not written (R54). -/
def cutsGroup (t : TRef) (c0 n : Nat) : Bool :=
  c0 % (groupOf t.fmt).1 != 0 || (decide (c0 + n < t.cols) && (c0 + n) % (groupOf t.fmt).1 != 0)

/-- The rows of D that a drain writes, where a group is shared with elements that it does not write (R54). -/
def mergeRows (o : Op) : List RowUse :=
  let t := o.d
  let n := min 64 (t.cols - o.dn0)
  if isDrain o.opcode ∧ cutsGroup t o.dn0 n then tileRows t o.dm0 o.dn0 n else []

/-- The rows that an operation reads. -/
def Op.reads (o : Op) : List RowUse :=
  match o.opcode with
  | 0x01 => tileRows o.a o.m0 o.k0 o.klen ++ tileRows o.b o.n0 o.k0 o.klen
  | 0x02 => tileRows o.a o.m0 o.k0 o.klen ++ tileRows o.b o.n0 o.k0 o.klen ++ mergeRows o
  | 0x03 => mergeRows o
  | 0x05 => tileRows o.a 0 0 (min 64 o.a.cols)
  | 0x10 => allRows o.a ++ (if usesB o.vfunc then allRows o.b else []) ++ (if o.vfunc = 4 then allRows o.d else [])
  | 0x11 => allRows o.a
  | 0x21 => allRows o.a
  | 0x22 => allRows o.a
  | _ => []

/-- The byte ranges that those rows lie in, with their views. -/
def Op.ranges (o : Op) : List (TRef × Nat × Nat) :=
  o.reads.flatMap fun u => [(u.t, rowRange u.t u.row u.c0 u.len), (u.t, scaleRange u.t u.row u.c0 u.len)]

/-- The ranges that lie on another package or in host memory. -/
def awayRanges (s : State) (o : Op) : List (TRef × Nat × Nat) :=
  o.ranges.filter fun r => r.2.2 != 0 && (r.1.remote || (hostOf s r.2.1).isSome)

/-- A request that has been sent and has no answer yet. -/
def Remote.outstanding (r : Remote) : Bool := r.answer.isNone && r.unsent.isNone

/-- A TAG that no outstanding request has (R285). DEDUCED: log entry 125. -/
def freeTag (s : State) : Nat :=
  (((List.range (s.fab.remotes.length + 1)).map fun i => (s.fab.nextTag + i) % 65536).find? fun t =>
    s.fab.remotes.all fun r => !r.outstanding || r.tag != t).getD 0

/-- The port of the first hop to a device. -/
def firstHop (s : State) (j dev : Nat) : Option Nat :=
  match routePeek s j dev with
  | .port p => some p
  | _ => none

/-- Requests that count against one limit: those of one tensor die, and those of the link dies (R139, R287).
DEDUCED: log entry 125. -/
def RemOwner.issuer : RemOwner → Nat
  | .op n _ => n
  | .mirror _ => 8
  | .task _ => 8

/-- The die that a read of host memory counts for; a front end has no limit. -/
def RdOwner.issuer : RdOwner → Option Nat
  | .op n _ => some n
  | .flush n _ => some n
  | .queue n _ => some n
  | .front _ => none

/-- A die, or the link dies, may make k more memory requests: at most 8192 are outstanding (R139). DEDUCED: log entry 125. -/
def readRoom (s : State) (n k : Nat) : Bool :=
  let away := s.fab.remotes.filter fun r => r.outstanding && r.owner.issuer == n
  let host := s.hst.reads.filter fun r => r.owner.issuer == some n
  decide (away.length + host.length + k ≤ 8192)

/-- One more request may be sent to another package: a TAG is free, and its die may make it (R139, R285, R287).
DEDUCED: log entry 125. -/
def remoteRoom (s : State) (o : RemOwner) : Bool :=
  decide ((s.fab.remotes.filter Remote.outstanding).length < 65536) && readRoom s o.issuer 1

/-- Request i of the list is sent, if it waits and its turn has come: it gets a TAG, and its frame leaves (R285).
DEDUCED: log entry 125. -/
def issueOne (s : State) (i : Nat) : State :=
  match s.fab.remotes[i]? with
  | none => s
  | some r => match r.unsent with
    | none => s
    | some (type, payload) =>
      if r.answer.isSome || !remoteRoom s r.owner then s
      else
        let d := (s.job r.job).desc
        let tag := freeTag s
        let f := mkFrame s { type := type, jobId := d.jobId, epoch := s.jobEpoch r.job, src := d.device, dst := r.dst,
                             addr := r.addr, tag := tag, rlen := if type = 2 then r.len else 0, payload := payload }
        let l := s.fab.remotes.set i { r with tag := tag, unsent := none }
        sendFrame r.job f { s with fab := { s.fab with remotes := l, nextTag := tag + 1 } }

/-- Requests that wait are sent in order, as far as R285 and R287 allow. DEDUCED: log entry 125. -/
def issueRemotes (s : State) : State := (List.range s.fab.remotes.length).foldl issueOne s

/-- A remote request is made (R285): it leaves at once or waits its turn, and its record awaits the answer. 0x10000 is no TAG.
DEDUCED: log entries 67, 125. -/
def sendRemote (owner : RemOwner) (j dev type addr len : Nat) (payload : List Byte) (s : State) : State :=
  let r : Remote := { tag := 0x10000, owner := owner, job := j, dst := dev, addr := addr, port := firstHop s j dev,
                      isRead := type == 2, len := len, unsent := some (type, payload), answer := none }
  let l := s.fab.remotes ++ [r]
  issueRemotes { s with fab := { s.fab with remotes := l } }

/-- The reads of one range: a RD_REQ for each line of another package, or one read of the host (R285, R438, R440).
DEDUCED: log entries 67, 125. -/
def askRange (x : Ctx) (r : TRef × Nat × Nat) (s : State) : Res Unit :=
  if r.1.remote then
    (.ok (), (linesOf r.2.1 r.2.2).foldl (fun s l =>
      if (remoteLine x s r.1.device l).isSome then s else sendRemote x.owner x.job r.1.device 2 l 64 [] s) s)
  else match hostOf s r.2.1 with
    | none => (.ok (), s)
    | some h =>
      if !protOk (s.job x.job).prots (·.read) r.2.1 r.2.2 then (.error ⟨2, r.2.1, 0⟩, s)
      else if hostUp s h r.2.2 then (.ok (), askHost (.op x.die x.op.isn) h r.2.2 s)
      else (.error ⟨6, 0, 0⟩, s)

/-- The rows of D that an operation writes. -/
def Op.written (o : Op) : List RowUse :=
  match o.opcode with
  | 0x02 => tileRows o.d o.dm0 o.dn0 (min 64 (o.d.cols - o.dn0))
  | 0x03 => tileRows o.d o.dm0 o.dn0 (min 64 (o.d.cols - o.dn0))
  | 0x10 => allRows o.d
  | 0x11 => allRows o.d
  | _ => []

/-- An operation would read or write host memory over a link that is not ATTACHED (R447). -/
def hostDown (s : State) (o : Op) : Bool :=
  (o.ranges ++ o.written.flatMap fun u => [(u.t, rowRange u.t u.row u.c0 u.len), (u.t, scaleRange u.t u.row u.c0 u.len)]).any fun r =>
    r.2.2 != 0 && !r.1.remote && match hostOf s r.2.1 with
      | some h => !hostUp s h r.2.2
      | none => false

/-- Requests for ranges go out in order, as far as the die may make them; it answers how many of the ranges have been asked for
(R139). DEDUCED: log entry 125. -/
def askRanges (x : Ctx) : List (TRef × Nat × Nat) → State → Res Nat
  | [], s => (.ok 0, s)
  | r :: l, s =>
    if !r.1.remote && !readRoom s x.die (hostParts s ((hostOf s r.2.1).getD 0) r.2.2).length then (.ok 0, s)
    else thenRes (askRange x r s) fun _ s => thenRes (askRanges x l s) fun n s => (.ok (n + 1), s)

/-- The ranges away from device memory in which an operation merges: it reads them, and writes back what it does not change.
DEDUCED: log entry 121. -/
def mergeAway (s : State) (o : Op) : List (TRef × Nat × Nat) :=
  ((mergeRows o).map fun u => (u.t, rowRange u.t u.row u.c0 u.len)).filter fun r =>
    r.2.2 != 0 && (r.1.remote || (hostOf s r.2.1).isSome)

/-- Another operation of the package is merging in a range that this one would merge in: this one waits until that one has
completed, so that neither overwrites the other's elements (R54). DEDUCED: log entry 121. -/
def mergeBusy (s : State) (x : Ctx) : Bool :=
  let clash : TRef × Nat × Nat → TRef × Nat × Nat → Bool := fun a b =>
    a.1.remote == b.1.remote && (!a.1.remote || a.1.device == b.1.device)
      && decide (a.2.1 < b.2.1 + b.2.2) && decide (b.2.1 < a.2.1 + a.2.2)
  let mine := mergeAway s x.op
  mine != [] && (List.range 8).any fun n => (s.die n).ops.any fun p =>
    p.partOf.isNone && p.asked != 0 && !(n == x.die && p.isn == x.op.isn) && (mergeAway s p).any fun b => mine.any (clash b)

/-- A read of the operation has not been answered. -/
def readsOpen (x : Ctx) (s : State) : Bool :=
  (s.fab.remotes.any fun r => r.owner == x.owner && r.isRead && r.answer.isNone) ||
    askedHost s (.op x.die x.op.isn)

/-- The first remote request of the operation, read or write, that failed (R288). -/
def remoteFailed (x : Ctx) (s : State) : Option Bad :=
  (s.fab.remotes.find? fun r => r.owner == x.owner && (match r.answer with | some a => !a.1 | none => false)).map
    fun r => ⟨5, r.addr, r.dst⟩

/-! ### Writing rows -/

/-- How results become destination codes: rounding mode, seed, stream, given exponent. -/
structure Cv where
  rnd : Nat
  seed : Nat
  stream : Nat
  given : Option Nat
  deriving DecidableEq, Repr

/-- The conversion that a descriptor names. -/
def Op.cv (o : Op) : Cv := { rnd := o.rnd, seed := o.seed, stream := o.stream, given := o.given }

/-- A list cut into pieces of n. -/
def pieces {α : Type} : Nat → Nat → List α → List (List α)
  | 0, _, _ => []
  | f + 1, n, l => match l with | [] => [] | _ => l.take n :: pieces f n (l.drop n)

/-- A row cut into its blocks, which begin at columns that are multiples of b (R130). -/
def cutBlocks {α : Type} (b c0 : Nat) (l : List α) : List (List α) :=
  let k := b - c0 % b
  l.take k :: pieces (l.length + 1) b (l.drop k)

/-- The codes of a converted row, its blocks, and the two flags (R65). -/
structure RowOut where
  codes : List Nat
  blocks : List Block
  sat : Bool
  nonfin : Bool
  deriving DecidableEq, Repr

/-- Rounding of element c of row r of a view (R59, R132). -/
def rndAt (v : Cv) (t : TRef) (r c : Nat) : Rnd := rndOf v.rnd v.seed v.stream (t.rowOff + r) (t.colOff + c)

/-- Codes of format `fmt`, each with its scale, converted into columns c0 on of row r of a view (R61 to R69). `raw` keeps
binary32 codes as they are. DEDUCED: log entry 123. -/
def convRow (v : Cv) (t : TRef) (fmt : Nat) (raw : Bool) (r c0 : Nat) (l : List (Nat × Option Nat)) : RowOut :=
  if t.block ≠ 0 then
    let e := l.mapIdx fun i x => (elemValue fmt x.1 x.2, rndAt v t r (c0 + i))
    let b := (cutBlocks t.block c0 e).map (convBlock t.fmt v.given)
    { codes := b.flatMap (·.codes), blocks := b, sat := b.any (·.sat), nonfin := b.any (·.nonfin) }
  else if raw ∧ fmt = t.fmt then { codes := l.map (·.1), blocks := [], sat := false, nonfin := false }
  else
    let c := l.mapIdx fun i x => convElem fmt t.fmt (rndAt v t r (c0 + i)) x.1 x.2
    { codes := c.map (·.code), blocks := [], sat := c.any (·.sat), nonfin := c.any (·.nonfin) }

/-- The bytes that a view holds now, for the merge of a shared group (R54). DEDUCED: log entry 121. -/
def heldBytes (x : Ctx) (s : State) (t : TRef) (a n : Nat) : List Byte :=
  if t.remote then (List.range n).map fun i => remoteByte x s t.device (a + i)
  else match hostOf s a with
    | some h => hostBytes s h n
    | none => peekMem s a n

/-- The groups of a row that hold columns c0 on, with the new codes in place, the row's other elements kept and padding
0 (R54). DEDUCED: log entry 121. -/
def mergedGroups (t : TRef) (c0 : Nat) (codes : List Nat) (old : List Byte) : List Byte :=
  let g := groupsOf t.fmt c0 codes.length
  let e := (groupOf t.fmt).1
  packRow t.fmt ((List.range (g.2 * e)).map fun k =>
    let c := g.1 * e + k
    if c0 ≤ c ∧ c < c0 + codes.length then codes.getD (c - c0) 0
    else if c < t.cols then elemAt t.fmt old k else 0)

/-- A QR16 block of which the row's columns from c0 on are written in part: its other columns keep the values they hold, as far as
the block's one scale can carry them (R54). `k` is the block's number in the row. DEDUCED: log entry 121. -/
def mergeBlock (t : TRef) (k c0 : Nat) (b : Block) (old : List Byte) : Block :=
  let lo := max c0 (32 * k)
  let o := readTransit old
  if lo = 32 * k ∧ (b.codes.length = 32 ∨ t.cols ≤ lo + b.codes.length) then b
  else convBlock codeQR16 none ((List.range 32).map fun i =>
    let c := 32 * k + i
    (if lo ≤ c ∧ c < lo + b.codes.length then elemValue codeQR16 (b.codes.getD (c - lo) 0) (some b.scale)
     else if c < t.cols then elemValue codeQR16 (o.codes.getD i 0) (some o.scale)
     else .fin false 0 0, .rne))

/-- A store of an operation: an address and bytes, of which those from `lo` to before `hi` are written whole, the others in part, with
what stood there merged in (R54). DEDUCED: log entry 121. -/
structure Put where
  addr : Nat
  data : List Byte
  lo : Nat
  hi : Nat
  deriving DecidableEq, Repr

/-- A store of whole bytes. -/
def putAll (a : Nat) (l : List Byte) : Put := { addr := a, data := l, lo := a, hi := a + l.length }

/-- The bytes of a row that hold an element that is written, or padding behind it: the first, and the one after the last, from the
start of the row. DEDUCED: log entry 121. -/
def writtenBytes (t : TRef) (c0 n : Nat) : Nat × Nat :=
  let w := widthOf t.fmt
  (c0 * w / 8, if t.cols ≤ c0 + n then rowBytes t.fmt t.cols else ((c0 + n) * w + 7) / 8)

/-- Of those bytes, the ones of which the write gives every bit: the first, and the one after the last (R54). In QR16 they are the
blocks that are written whole (R130). DEDUCED: log entry 121. -/
def wholeBytes (t : TRef) (c0 n : Nat) : Nat × Nat :=
  let w := widthOf t.fmt
  if t.fmt = codeQR16 then (ceilDiv c0 32 * 66, (if t.cols ≤ c0 + n then ceilDiv t.cols 32 else (c0 + n) / 32) * 66)
  else (ceilDiv (c0 * w) 8, if t.cols ≤ c0 + n then rowBytes t.fmt t.cols else (c0 + n) * w / 8)

/-- The stores of a converted row. A merge writes the bytes that hold an element written, as one access to each line of device
memory; on another package and in host memory its own reads brought the bytes that are shared (R54, R114, R211, R285, R438). The scale
of a block that is written in part becomes that of the part, and the block's other codes stay. DEDUCED: log entry 121. DESIGN CHOICE:
log entry 140. -/
def rowStores (x : Ctx) (s : State) (t : TRef) (r c0 : Nat) (w : RowOut) : List Put :=
  let n := w.codes.length
  let a := rowRange t r c0 n
  let old := if cutsGroup t c0 n then heldBytes x s t a.1 a.2 else []
  let row := t.base + r * t.stride
  let h := wholeBytes t c0 n
  if n = 0 then []
  else if t.fmt = codeQR16 then
    [⟨a.1, (w.blocks.mapIdx fun i b => transitBlock (mergeBlock t (c0 / 32 + i) c0 b (sliceOf old (66 * i) 66))).flatten,
      row + h.1, row + h.2⟩]
  else
    let m := mergedGroups t c0 w.codes old
    let k := writtenBytes t c0 n
    let main : Put := ⟨row + k.1, sliceOf m (row + k.1 - a.1) (k.2 - k.1), row + h.1, row + h.2⟩
    if t.scaled then [main, putAll (scaleRange t r c0 n).1 (w.blocks.map fun b => BitVec.ofNat 8 b.scale)] else [main]

/-- What has reached the home of the lines in which an operation merges goes through first, so that the merge keeps the values that they
hold when it takes effect (R54, R229). DEDUCED: log entries 12, 121. -/
def calmMerges (o : Op) (s : State) : State :=
  (mergeRows o).foldl (fun s u =>
    let a := rowRange u.t u.row u.c0 u.len
    if u.t.remote || (hostOf s a.1).isSome then s else (linesOf a.1 a.2).foldl (fun s l => calmLine l s) s) s

/-- A store cut at lines: address, mask in the line, and bytes placed in a line. -/
def lineStores (a : Nat) (l : List Byte) : List (Nat × Nat × List Byte) :=
  (linesOf a l.length).map fun b =>
    let lo := max a b - b
    let hi := min (a + l.length) (b + 64) - b
    (b, maskFrom lo (hi - lo), List.replicate lo 0 ++ sliceOf l (b + lo - a) (hi - lo) ++ List.replicate (64 - hi) 0)

/-- A store to another package: WR_REQ for a whole line, WR_PART for a part of one (R285). DEDUCED: log entry 121. -/
def storeRemote (x : Ctx) (dev a : Nat) (l : List Byte) (s : State) : State :=
  (lineStores a l).foldl (fun s w =>
    if w.2.1 = fullMask then sendRemote x.owner x.job dev 4 w.1 64 w.2.2 s
    else sendRemote x.owner x.job dev 9 w.1 64 (leBytes 8 w.2.1 ++ w.2.2) s) s

/-- The first store that the job may not make, or that meets memory it cannot access (R113, R195, R372). -/
def badStore (s : State) (j : Nat) (t : TRef) (w : Put) : Option Nat :=
  if t.remote then none
  else match hostOf s w.addr with
    | some _ => if protOk (s.job j).prots (·.write) w.addr w.data.length then none else some w.addr
    | none => badLine (lineUsable s j (·.write)) w.addr w.data.length

/-- One store of an operation; a posted write to host memory that is dropped ends it with HOST_DETACHED (R446). -/
def storeOne (x : Ctx) (t : TRef) (w : Put) (s : State) : Res (List (Nat × Nat)) :=
  if t.remote then (.ok [], storeRemote x t.device w.addr w.data s)
  else match hostOf s w.addr with
    | some h =>
      let r := postHost h w.data (some (x.die, x.op.isn)) (s.num 0x2C0A 1 == 1) s
      if r.1 then (.ok ((hostParts s h w.data.length).map fun p => (p.1, p.2.1 + p.2.2 - 1)), r.2) else (.error ⟨6, 0, 0⟩, r.2)
    | none => (.ok [], mergeMem w.lo w.hi w.addr w.data s)

/-- Every store of an operation: nothing is written, and nothing sent, when one of them may not be made or its link is not ATTACHED
(R447). It answers the last host address
written on each link (R441). DEDUCED: log entry 70. -/
def storeAll (x : Ctx) (t : TRef) (l : List Put) (s : State) : Res (List (Nat × Nat)) :=
  let down : Put → Bool := fun w => !t.remote && match hostOf s w.addr with
    | some h => !hostUp s h w.data.length
    | none => false
  match l.findSome? (badStore s x.job t) with
  | some a => (.error ⟨2, a, 0⟩, s)
  | none => if l.any down then (.error ⟨6, 0, 0⟩, s) else thenRes (mapRes (storeOne x t) l s) fun r s =>
      (.ok (r.flatten.foldl (fun m w => tput w.1 w.2 m) []), s)

/-! ### Values that nobody may rely on (R13, R151, R215, R359) -/

/-- One line's share of a range holds unspecified bytes, where the job may write it: one free value for each byte. A
poisoned line stays poisoned. DEDUCED: log entry 70. -/
def spoilLine (j a n : Nat) (s : State) (l : Nat) : State :=
  let lo := max a l
  let k := min (a + n) (l + 64) - lo
  if lineUsable s j (·.write) l && !linePoison s l then
    writeMem lo ((List.range k).map fun i => BitVec.ofNat 8 (Config.freeNat (s.free + i))) { s with free := s.free + k }
  else s

/-- Ranges, each an address and a length, hold unspecified bytes. DEDUCED: log entry 70. -/
def spoil (j : Nat) (l : List (Nat × Nat)) (s : State) : State :=
  l.foldl (fun s r => if r.2 = 0 then s else (linesOf r.1 r.2).foldl (spoilLine j r.1 r.2) s) s

/-- What a failed step had begun to write is unspecified (R151); one that met poisoned data writes nothing (R114).
DEDUCED: log entry 70. -/
def orSpoil {α : Type} (j : Nat) (l : List (Nat × Nat)) (r : Res α) : Res α :=
  match r with
  | (.error e, s) => (.error e, if e.status = 3 then s else spoil j l s)
  | (.ok a, s) => (.ok a, s)

end Sys2Proof.Machine
end

