-- ==== Sys2Proof/Machine/Queues.lean ====
section
/-!
DEFINITION. Machine/Queues.lean: the descriptor queues of the tensor dies: doorbells, taking, issue, start, completion and
reset (R133 to R139, R143, R144, R148 to R152, R156, R157, R588).
-/

namespace Sys2Proof.Machine

/-! ### Statuses of dictionary requests (R484) -/

def stOk : Nat := 0
def stNoObject : Nat := 1
def stNotReadable : Nat := 2
def stNotWritable : Nat := 3
def stBusy : Nat := 4
def stType : Nat := 5
def stValue : Nat := 6
def stRange : Nat := 7
def stNotReady : Nat := 8
def stMalformed : Nat := 9
def stNotAuthorised : Nat := 10
def stPathDenied : Nat := 11

/-! ### Structures of a queue -/

/-- Slots of the descriptor ring, its base; slots of the completion ring, its base (R153, R156). -/
def dqSlots (s : State) (n q : Nat) : Nat := 2 ^ (s.num (0x3C10 + n) (q + 1) % 32)
def dqBase (s : State) (n q : Nat) : Nat := s.num (0x3C10 + n) (q + 1) / 4096 * 4096
def cqSlots (s : State) (n q : Nat) : Nat := 2 ^ (s.num (0x3C18 + n) (q + 1) % 32)
def cqBase (s : State) (n q : Nat) : Nat := s.num (0x3C18 + n) (q + 1) / 4096 * 4096

/-- A structure of a queue that cannot be read or written: the queue stops, and its job faults (R588). -/
def queueFail (n q : Nat) (a : Acc) (addr : Nat) (s : State) : State :=
  accessFault (dqJob s n q) a addr (stopQueue n q a.status 0 s)

/-- A write of a structure of a queue (R588). -/
def queuePut (n q a : Nat) (l : List Byte) (s : State) : State :=
  match putStruct (dqJob s n q) a l s with
  | (.ok, s) => s
  | (e, s) => queueFail n q e a s

/-- TNS_SLOT_INFLIGHT of a slot, from the operations in flight (R156). -/
def noteSlot (k : Nat) (s : State) : State :=
  s.setNum 0x3C42 (k + 1) (((List.range 8).map fun n =>
    ((s.die n).ops.filter fun o => o.slotEn && o.slot == k && o.partOf.isNone).length).sum)

/-! ### Doorbells (R135) -/

/-- A doorbell of queue q of die n. -/
def ringDq (n q value : Nat) (s : State) : State :=
  let x := s.queue n q
  let p := value % 2 ^ 32
  if dqState s n q ≠ 1 then count 0x5907 (n + 1) 1 s
  else if dqSlots s n q < sub32 p x.cons then stopQueueOr n q 1 0 s
  else s.setQueue n q { x with prod := p }

/-- TNS_DOORBELL (R135). -/
def execTnsDoorbell (die queue value : Nat) (s : State) : Host.Outcome State Fault Refusal :=
  forUnit (Instr.wf (.tnsDoorbell die queue value)) (ringDq die queue value s)

/-! ### Taking (R137, R152) -/

/-- A slot that an operation of job j may name (R151, R152, R176). -/
def slotUsable (s : State) (j : Nat) (o : Op) : Bool :=
  bit (s.job j).desc.slotMask o.slot && slotBoundTo s o.slot j && (!isStash o.opcode || bits (slotBind s o.slot) 6 5 == 1)

/-- The operation lies outside its job: another JOB, a die outside DIE_MASK, or a slot it may not use (R148, R151). -/
def outsideJob (s : State) (n q : Nat) (o : Op) : Bool :=
  let j := dqJob s n q
  o.jobField != j || (o.dies n).any (fun d => !bit (s.job j).desc.dieMask d) || (o.slotEn && !slotUsable s j o)

/-- A new operation from 256 bytes. -/
def newOp (isn q : Nat) (raw : List Byte) : Op :=
  { isn := isn, queue := q, words := (List.range 32).map fun k => fieldOf raw (8 * k) 8, phase := .waiting, status := 0,
    detail := 0, errorAddr := 0, sat := false, nonfinite := false, longRed := false, ieee := 0, sbWaited := false,
    partOf := none, hostWrote := [], flushed := false, asked := 0 }

/-- Strict mode forced on a vector operation (R123, TNS_VEC_MODE_FORCE). -/
def forceStrict (s : State) (n : Nat) (o : Op) : Op :=
  if isVec o.opcode ∧ s.num 0x3C04 (n + 1) = 1 then { o with words := lset o.words 0 (setBit (o.w 0) 41 true) } else o

/-- The operation as it stands when it is taken: waiting, or completed at once with MALFORMED or ACCESS_ERROR. -/
def admitOp (s : State) (n q : Nat) (o : Op) : Op :=
  match firstBroken (opChecks n o) with
  | some d => { o with phase := .done, status := 1, detail := d }
  | none =>
    if outsideJob s n q o then { o with phase := .done, status := 2 }
    else
      let o := forceStrict s n o
      { o with longRed := isMma o.opcode && decide (2 ^ 20 < o.klen), sbWaited := tileHeld (s.die n) o }

/-- A descriptor taken: the operation gets the next ISN of the die, the other dies of a split one are notified, and CONS
advances (R137, R143). DEDUCED: log entry 69. -/
def takeOp (n q : Nat) (raw : List Byte) (s : State) : State :=
  let d := s.die n
  let x := s.queue n q
  let o := admitOp s n q (newOp d.nextIsn q raw)
  let s := s.setDie n { d with nextIsn := d.nextIsn + 1, ops := d.ops ++ [o], round := [q] }
  let s := s.setQueue n q { x with cons := add32 x.cons 1, taken := add32 x.taken 1, order := x.order ++ [(o.isn, false)],
                                   asked := false }
  let others := if o.phase = .done then [] else (o.dies n).filter (· != n)
  let j := dqJob s n q
  let s := if others = [] then s else s.setJob j { s.job j with splitUsed := true }
  let s := others.foldl (fun s m => s.setDie m { s.die m with notices := (s.die m).notices ++ [(n, o.isn)] }) s
  queuePut n q (dqShadow s n q) (leBytes 4 (add32 x.cons 1)) (noteSlot o.slot s)

/-- The structures of the next take that lie in host memory: address and length. DEDUCED: log entry 68. -/
def takeHost (s : State) (n q : Nat) : List (Nat × Nat) :=
  ([(dqShadow s n q + 8, 4), (dqBase s n q + 256 * ((s.queue n q).cons % dqSlots s n q), 256)] : List (Nat × Nat)).filter
    fun r => (hostOf s r.1).isSome

/-- A read of a structure of a queue, in device memory or as the host returned it (R588). DEDUCED: log entry 68. -/
def queueRead (n q a len : Nat) (s : State) : Got × State :=
  match hostOf s a with
  | none => jobRead (dqJob s n q) a len s
  | some h =>
    if !protOk (s.job (dqJob s n q)).prots (·.read) a len then (.access, s)
    else (.ok (hostBytes s h len), s)

/-- The completion ring has room for one more operation (R137). -/
def cqRoom (s : State) (n q head : Nat) : Bool := decide (sub32 (s.queue n q).taken head < cqSlots s n q)

/-- A read of a line would find it poisoned, or an error in it. -/
def readsBad (s : State) (l : Nat) : Bool := linePoison s l || (poisonUnits s l).any fun u => (tfind u s.merr.latent).isSome

/-- A queue from which the die can take now: running, of a job that takes work, with a descriptor pending, with room in
its completion ring, and with no host read of its own open (R134, R137, R368). -/
def canTake (s : State) (n q : Nat) : Bool :=
  let j := s.jobState (dqJob s n q)
  let x := s.queue n q
  let head := dqShadow s n q + 8
  dqState s n q == 1 && !x.resetting && (j == 2 || j == 3) && x.prod != x.cons
    && !(x.asked && askedHost s (.queue n q))
    && ((hostOf s head).isSome || !(lineUsable s (dqJob s n q) (·.read) (lineOf head))
        || readsBad s (lineOf head) || cqRoom s n q (leNat (peekMem s head 4)))

/-- The queue whose turn it is: the next above the one taken from last, else the lowest (R137). -/
def nextQueue (s : State) (n : Nat) : Option Nat :=
  let l := (List.range 32).filter (canTake s n)
  match (s.die n).round with
  | [] => l.head?
  | last :: _ => match l.find? (decide <| last < ·) with
    | some q => some q
    | none => l.head?

/-- The reads of CQ_HEAD and of the descriptor have been made: the descriptor is taken, or the queue stops. An uncorrectable
error of the queue's SRAM is counted and reported, and R116 says no more of it: the descriptor is taken as memory holds it.
DEDUCED: log entries 116, 118. -/
def takeRead (n q : Nat) (s : State) : State :=
  let head := dqShadow s n q + 8
  match queueRead n q head 4 s with
  | (.ok l, s) =>
    if cqRoom s n q (leNat l) then
      let a := dqBase s n q + 256 * ((s.queue n q).cons % dqSlots s n q)
      let bad := (sramRead n 3 q 0x7F s).2
      match queueRead n q a 256 bad with
      | (.ok raw, s) => takeOp n q raw s
      | (g, s) => queueFail n q g.acc a s
    else s.setQueue n q { s.queue n q with asked := false }
  | (g, s) => queueFail n q g.acc head s

/-- One turn of taking (R137). The structures that lie in host memory are asked for first; a die under self-test takes
nothing (R124), nor does one that has used its last ISN (R472). -/
def takeTurn (n : Nat) (s : State) : State :=
  if 512 ≤ (s.die n).ops.length ∨ (s.die n).testing ∨ max64 < (s.die n).nextIsn then s
  else match nextQueue s n with
    | none => s
    | some q =>
      let l := takeHost s n q
      if l ≠ [] ∧ !(s.queue n q).asked then
        if !readRoom s n ((l.map fun r => (hostParts s ((hostOf s r.1).getD 0) r.2).length).sum) then s
        else if l.all (fun r => hostUp s ((hostOf s r.1).getD 0) r.2) then
          l.foldl (fun s r => askHost (.queue n q) ((hostOf s r.1).getD 0) r.2 s)
            (s.setQueue n q { s.queue n q with asked := true })
        else queueFail n q .access (dqShadow s n q) s
      else takeRead n q s

/-- DESCRIPTOR_TAKE (R137). DEDUCED: log entry 69. -/
def execDescriptorTake (die : Nat) (s : State) : Host.Outcome State Fault Refusal :=
  forUnit (Instr.wf (.descriptorTake die)) (takeTurn die s)

/-- A notice of a split operation reaches a die: it gets the die's next ISN and its place in the scoreboard (R143). -/
def acceptPart (root isn n : Nat) (s : State) : State :=
  let d := s.die n
  match (s.die root).ops.find? fun o => o.isn == isn && o.partOf.isNone with
  | none => s
  | some o =>
    if d.notices.contains (root, isn) ∧ d.ops.length < 512 ∧ !d.testing ∧ d.nextIsn ≤ max64 then
      let p := { o with isn := d.nextIsn, partOf := some (root, isn) }
      let p := { p with sbWaited := tileHeld d p }
      s.setDie n { d with nextIsn := d.nextIsn + 1, notices := d.notices.filter (· != (root, isn)), ops := d.ops ++ [p] }
    else s

/-- SPLIT_NOTICE (R143). -/
def execSplitNotice (root isn die : Nat) (s : State) : Host.Outcome State Fault Refusal :=
  forUnit (Instr.wf (.splitNotice root isn die)) (acceptPart root isn die s)

/-! ### Operations in flight -/

/-- An operation taken by die n, by its ISN. -/
def findOp (s : State) (n isn : Nat) : Option Op := (s.die n).ops.find? fun o => o.isn == isn && o.partOf.isNone

/-- The state with an operation of die n replaced. -/
def putOp (n : Nat) (o : Op) (s : State) : State :=
  let d := s.die n
  s.setDie n { d with ops := d.ops.map fun p => if p.isn = o.isn then o else p }

/-- The parts of an operation on the other dies changed (R146). DEDUCED: log entry 71. -/
def mapParts (n isn : Nat) (f : Op → Op) (s : State) : State :=
  let g : Op → Op := fun p => if p.partOf = some (n, isn) then f p else p
  let h : Die → Die := fun d => { d with ops := d.ops.map g }
  { s with dies := s.dies.map h }

/-- The part of an operation on die d. -/
def partOn (s : State) (n isn d : Nat) : Option Op :=
  if d = n then findOp s n isn else (s.die d).ops.find? fun p => p.partOf == some (n, isn)

/-- The work of an operation has ended, with its parts: its tiles are released and its reads are over. -/
def endOp (n : Nat) (o : Op) (s : State) : State :=
  let s := mapParts n o.isn (fun p => { p with phase := .done }) (putOp n { o with phase := .done } s)
  let keep : Remote → Bool := fun r => !(r.owner == .op n o.isn && r.isRead)
  { s with fab := { s.fab with remotes := s.fab.remotes.filter keep } }

/-! ### What a failed operation leaves (R151) -/

/-- The state with a tile written whole. -/
def writeTile (n key : Nat) (l : List Nat) (s : State) : State :=
  let d := s.die n
  let t : Tab Nat := (l.mapIdx fun i c => (i, c)).filter fun e => e.2 != 0
  sramClear n 0 key (s.setDie n { d with tiles := tset [] key t d.tiles })

/-- A tile that holds unspecified values (R147): one free value for each entry. -/
def freeTile (n key : Nat) (s : State) : State :=
  writeTile n key ((List.range 4096).map fun i => Config.freeNat (s.free + i) % 2 ^ 40) { s with free := s.free + 4096 }

/-- Die and engine of leaf k (R146). -/
def leafPlace (x : Ctx) (k : Nat) : Nat × Nat :=
  (x.die + k / 2 ^ x.op.splitEng, x.op.engine + k % 2 ^ x.op.splitEng)

/-- The tiles that an operation writes, each as die and engine. -/
def outTiles (x : Ctx) : List (Nat × Nat) :=
  if isMma x.op.opcode then (List.range (2 ^ (x.op.splitEng + x.op.splitDie))).map (leafPlace x)
  else if x.op.opcode = 0x05 then [(x.die, x.op.engine)]
  else []

/-- The ranges of D that a drain or a vector operation writes. -/
def outRanges (o : Op) : List (Nat × Nat) :=
  let row : Nat → Nat → Nat → List (Nat × Nat) := fun r c n => [rowRange o.d r c n, scaleRange o.d r c n]
  if o.d.remote then []
  else if isDrain o.opcode then
    ((List.range 64).filter fun p => decide (o.dm0 + p < o.d.rows)).flatMap fun p =>
      row (o.dm0 + p) o.dn0 (min 64 (o.d.cols - o.dn0))
  else if isVec o.opcode then (List.range o.d.rows).flatMap fun r => row r 0 o.d.cols
  else []

/-- The tiles that an operation was writing, in quadrants that are on, hold values that nobody may rely on (R151). -/
def spoilTiles (x : Ctx) (s : State) : State :=
  (outTiles x).foldl (fun s p =>
    if s.on (domQuad p.1 (engineQuad p.2)) then freeTile p.1 (tileKey p.2 x.op.tile) s else s) s

/-- The results of an operation that ends otherwise than OK are values that nobody may rely on (R151): its tiles and its part of
D hold free values. DEDUCED: log entry 70. -/
def spoilOp (x : Ctx) (s : State) : State := spoil x.job (outRanges x.op) (spoilTiles x s)

/-- The operation ends with a status other than OK; one that has started leaves unspecified results (R151), but one that met
poisoned data drains nothing, so that D stays as it was (R114). DEDUCED: log entry 70. -/
def failOp (n : Nat) (o : Op) (e : Bad) (s : State) : State :=
  let x : Ctx := { die := n, job := opJob s n o, op := o }
  endOp n { o with status := e.status, errorAddr := e.addr, detail := e.detail }
    (if o.phase = .waiting then s else if e.status = 3 then spoilTiles x s else spoilOp x s)

/-! ### Start (R138, R144, R150) -/

/-- The lines on which operations of die n wait. -/
def waitLines (s : State) (n : Nat) : List Nat :=
  ((s.die n).ops.filter fun o => o.phase == .waiting && o.waitAddr != 0).map fun o => lineOf o.waitAddr

/-- The wait monitor of die n forgets the lines that no operation of it waits on (R258). -/
def pruneWatch (n : Nat) (s : State) : State :=
  { s with coh := { s.coh with watching := s.coh.watching.filter fun w => w.1 != n || (waitLines s n).contains w.2 } }

/-- The wait monitor of die n watches a line: the home sets its bit when it takes the RdPeekWatch, which waits there while its
directory set has no room (R226, R230, R258). -/
def watchLine (n line : Nat) (s : State) : State :=
  let s := { s with coh := { s.coh with watching := (n, line) :: s.coh.watching.filter (· != (n, line)) } }
  if !homeOn s line then s
  else if dirRoom s line then
    let s := makeRoom line s
    let e := dirOf s line
    setDir line { e with watch := e.watch ||| (1#8 <<< n) } s
  else if (tget [] line s.coh.waiting).any fun r => r.kind == .rdPeekWatch && r.agent == .wm n then s
  else plainRequest (.wm n) line .rdPeekWatch [] s

/-- What WAIT_ADDR says: met, not met, or a failure of the read. DEDUCED: log entry 68. -/
def waitRead (j a want : Nat) (s : State) : Except Acc Bool × State :=
  if a = 0 then (.ok true, s)
  else match jobRead j a 4 s with
    | (.ok l, s) => (.ok (waitMet (leNat l) want), s)
    | (g, s) => (.error g.acc, s)

/-- What a read of WAIT_ADDR would say, with no effect: met, or a failure that ends the wait. -/
def waitLooks (s : State) (j a want : Nat) : Bool :=
  a == 0 || !lineUsable s j (·.read) (lineOf a) || linePoison s (lineOf a) || waitMet (leNat (peekMem s a 4)) want

/-- FENCE, slot order and the tile scoreboard release an operation of die n (R138, R144, R150). -/
def released (s : State) (n : Nat) (o : Op) : Bool :=
  let earlier := (s.die n).ops.filter fun p => decide (p.isn < o.isn) && p.partOf.isNone
  (!o.fence || earlier.all (·.queue != o.queue))
    && (!o.slotEn || earlier.all fun p => !(p.slotEn && p.slot == o.slot))
    && (o.dies n).all fun d => match partOn s n o.isn d with
        | some p => !tileHeld (s.die d) p
        | none => false

/-- Operations that have waited on a scoreboard are counted on its die (R157). -/
def countWaits (n : Nat) (o : Op) (s : State) : State :=
  (o.dies n).foldl (fun s d => match partOn s n o.isn d with
    | some p => if p.sbWaited then count 0x5906 (d + 1) 1 s else s
    | none => s) s

/-- An attempt to start an operation. -/
def startOp (n isn : Nat) (s : State) : State :=
  match findOp s n isn with
  | none => s
  | some o =>
    if o.phase ≠ .waiting then s
    else match waitRead (opJob s n o) o.waitAddr o.waitVal s with
      | (.error a, s) => failOp n o ⟨a.status, o.waitAddr, 0⟩ s
      | (.ok met, s) =>
        if met && released s n o then
          pruneWatch n (mapParts n isn (fun p => { p with phase := .started })
            (putOp n { o with phase := .started } (countWaits n o s)))
        else if o.waitAddr ≠ 0 ∧ !met then watchLine n (lineOf o.waitAddr) s
        else s

/-- OPERATION_START (R138). -/
def execOperationStart (die isn : Nat) (s : State) : Host.Outcome State Fault Refusal :=
  forUnit (Instr.wf (.operationStart die isn)) (startOp die isn s)

/-! ### Completion (R139, R149, R151) -/

/-- The 32 bytes of a completion record; k is the number of completions of the queue before it (R149). -/
def completionRecord (n k slots : Nat) (o : Op) : List Byte :=
  let phase := b2n (k / slots % 2 == 0)
  let addr := o.status == 2 || o.status == 3 || o.status == 5 || o.status == 7
  leBytes 8 o.isn
    ++ leBytes 8 (o.tag * 2 ^ 32 + o.status * 2 ^ 24 + o.opcode * 2 ^ 16 + o.slot * 2 ^ 9 + b2n o.slotEn * 2 ^ 8
        + b2n o.longRed * 2 ^ 7 + b2n o.nonfinite * 2 ^ 6 + b2n o.sat * 2 ^ 5 + phase)
    ++ leBytes 8 (o.queue * 2 ^ 59 + n * 2 ^ 56 + o.engine * 2 ^ 50 + o.tile * 2 ^ 45 + o.ieee * 2 ^ 40
        + (if o.status = 1 then o.detail % 2 ^ 32 else 0))
    ++ leBytes 8 (if addr then o.errorAddr else 0)

/-- The operations of a queue that have retired leave its list: the leading completed ones (R139). -/
def retire : List (Nat × Bool) → Nat → List (Nat × Bool) × Nat
  | (_, true) :: r, k => retire r (k + 1)
  | l, k => (l, k)

/-- RETIRED advances past the completed operations at the head of the queue (R139). DEDUCED: log entry 69. -/
def advanceRetired (n q isn : Nat) (s : State) : State :=
  let x := s.queue n q
  let l := retire (x.order.map fun e => if e.1 = isn then (e.1, true) else e) 0
  let v := add32 x.retired l.2
  let s := s.setQueue n q { x with order := l.1, retired := v, completions := x.completions + 1 }
  if l.2 = 0 then s else queuePut n q (dqShadow s n q + 4) (leBytes 4 v) s

/-- What a status does to the queue and to the job (R151, R557). -/
def statusEffect (n : Nat) (o : Op) (j : Nat) (s : State) : State :=
  match o.status with
  | 1 => jobFault j 0x21 o.detail noSubject (stopQueue n o.queue 1 o.isn s)
  | 2 => jobFault j 0x22 (o.errorAddr / 64) noSubject (stopQueue n o.queue 2 o.isn s)
  | 3 => jobFault j 0x23 (o.errorAddr / 64) noSubject s
  | 4 => jobFault j 0x24 o.detail noSubject s
  | 5 => jobFault j 0x25 o.detail o.detail s
  | _ => s

/-- The flag event of an operation (R123, R461). -/
def flagEvent (n : Nat) (o : Op) (j : Nat) (s : State) : State :=
  let f := (b2n o.longRed * 4 + b2n o.nonfinite * 2 + b2n o.sat) &&& s.num 0x3C05 (n + 1)
  if f = 0 then s else post 0x3C06 (src 1 n) j [(1, n), (1, o.queue), (1, f), (8, o.isn)] s

/-- The completion record is written, RETIRED advances, and the operation leaves the die (R139). -/
def completeOp (n : Nat) (o : Op) (s : State) : State :=
  let j := opJob s n o
  let q := o.queue
  let k := (s.queue n q).completions
  let a := cqBase s n q + 32 * (k % cqSlots s n q)
  let r := putStruct j a (completionRecord n k (cqSlots s n q) o) s
  let s := advanceRetired n q o.isn r.2
  let gone : Op → Bool := fun p => !(p.partOf == some (n, o.isn))
  let mine : Op → Bool := fun p => p.isn != o.isn
  let notMine : Remote → Bool := fun x => !(x.owner == .op n o.isn)
  let clean : Die → Die := fun d => { d with ops := d.ops.filter gone, notices := d.notices.filter (· != (n, o.isn)) }
  let s := { s with dies := s.dies.map clean }
  let s := s.setDie n { s.die n with ops := (s.die n).ops.filter mine }
  let s := pruneWatch n { s with fab := { s.fab with remotes := s.fab.remotes.filter notMine } }
  let s := count 0x5904 (n + 1) 1 s
  let s := if o.status = 0 then s else count 0x5905 (n + 1) 1 s
  let s := statusEffect n o j (flagEvent n o j (noteSlot o.slot s))
  if r.1 = .ok then s else queueFail n q r.1 a s

/-- An operation whose work is done completes: remote writes have been acknowledged (R286), a flushing read has been made
on each link over which host memory was written and that is still ATTACHED (R440, R441), and then the record is written (R139). -/
def finishOp (n isn : Nat) (s : State) : State :=
  match findOp s n isn with
  | none => s
  | some o =>
    let x : Ctx := { die := n, job := opJob s n o, op := o }
    if o.phase ≠ .done then s
    else if s.fab.remotes.any (fun r => r.owner == x.owner && r.answer.isNone) then s
    else
      let r : Op × State := match o.status, remoteFailed x s with
        | 0, some e => ({ o with status := e.status, errorAddr := e.addr, detail := e.detail }, spoilOp x s)
        | _, _ => (o, s)
      let o := r.1
      let s := r.2
      let up := o.hostWrote.filter fun w => linkAttached s w.1
      let r : Op × State := if o.status = 0 ∧ !o.flushed ∧ up ≠ o.hostWrote then ({ o with status := 6 }, spoilOp x s) else (o, s)
      let o := r.1
      let s := r.2
      if up ≠ [] ∧ !o.flushed then
        if !readRoom s n up.length then s
        else up.foldl (fun s w => count 0x58A4 (w.1 + 1) 1 (askHost (.flush n isn) w.2 0 s)) (putOp n { o with flushed := true } s)
      else if askedHost s (.flush n isn) then s
      else completeOp n o s

/-- OPERATION_COMPLETE (R139). -/
def execOperationComplete (die isn : Nat) (s : State) : Host.Outcome State Fault Refusal :=
  forUnit (Instr.wf (.operationComplete die isn)) (finishOp die isn s)

/-! ### Enable and reset (R156) -/

/-- The structures of a queue lie in memory that can be accessed, or in the host window (R156). -/
def structPlaced (s : State) (a n : Nat) : Bool :=
  match place s a, place s (a + n - 1) with
  | .host _, .host _ => true
  | _, _ => rangeOk s a n

/-- A write of TNS_DQ_CTRL (R156). -/
def applyDqCtrl (n q v : Nat) (s : State) : Nat × State :=
  let ring := s.num (0x3C10 + n) (q + 1)
  let cq := s.num (0x3C18 + n) (q + 1)
  let okLog : Nat → Bool := fun r => decide (6 ≤ r % 32) && decide (r % 32 ≤ 16)
  if dqOn s n q then (if v = dqCtrl s n q then stOk else stBusy, s)
  else if bits v 30 4 ≠ 0 then (stValue, s)
  else if !bit v 31 then (stOk, s.setNum (0x3C28 + n) (q + 1) v)
  else if !(okLog ring && okLog cq && dqBase s n q != 0 && cqBase s n q != 0 && dqShadow s n q != 0
      && structPlaced s (dqBase s n q) (256 * dqSlots s n q) && structPlaced s (cqBase s n q) (32 * cqSlots s n q)
      && structPlaced s (dqShadow s n q) 64) then (stValue, s)
  else
    let line := List.replicate 12 0 ++ leBytes 4 1 ++ List.replicate 48 0
    let r : Bool × State := match hostOf s (dqShadow s n q) with
      | some h => postHost h line none false s
      | none => (true, writeMem (dqShadow s n q) line s)
    if r.1 then
      (stOk, ((r.2.setNum (0x3C28 + n) (q + 1) v).setNum (0x3C30 + n) (q + 1) 1).setQueue n q DQ.init)
    else (stValue, s)

/-- A running queue stops for its reset, with no status of an operation; where its STATE cannot be written it stops with
ACCESS_ERROR, and its job faults (R151, R588). DEDUCED: log entry 65. -/
def stopReset (n q : Nat) (s : State) : State :=
  let a := dqShadow s n q + 12
  if structOk s (dqJob s n q) a 4 then stopQueue n q 0 0 s else queueFail n q .access a s

/-- A write of TNS_DQ_RESET: taking stops, and operations that have not started complete with ABORTED (R156).
DEDUCED: log entry 65. -/
def applyDqReset (v : Nat) (s : State) : Nat × State :=
  let n := bits v 10 8
  let q := bits v 4 0
  if bits v 15 11 ≠ 0 ∨ bits v 7 5 ≠ 0 then (stValue, s)
  else if !dqOn s n q then (stOk, s)
  else
    let s := if dqState s n q = 1 then stopReset n q s else s
    (stOk, abortOps n (fun o => o.queue == q && o.partOf.isNone) (s.setQueue n q { s.queue n q with resetting := true }))

/-- The reset of a queue ends once no operation of it is in flight: the queue is disabled (R156). -/
def endReset (n q : Nat) (s : State) : State :=
  let x := s.queue n q
  if x.resetting ∧ x.order.all (·.2) ∧ ((s.die n).ops.all fun o => !(o.queue == q && o.partOf.isNone)) then
    let s := putDqOr n q 0 s
    (s.setNum (0x3C28 + n) (q + 1) (dqCtrl s n q % 2 ^ 31)).setQueue n q DQ.init
  else s

/-- DQ_RESET_DONE (R156). -/
def execDqResetDone (die queue : Nat) (s : State) : Host.Outcome State Fault Refusal :=
  forUnit (Instr.wf (.dqResetDone die queue)) (endReset die queue s)

/-! ### Slots (R152, R156) -/

/-- A write of TNS_SLOT_BIND: with BOUND 1 a free slot is bound to a job and a mode, with BOUND 0 a bound slot becomes
releasing. With BOUND 0 on a slot that is free or releasing, of which the manual says nothing, it is accepted and has no effect.
DEDUCED: log entry 64. -/
def applySlotBind (k v : Nat) (s : State) : Nat × State :=
  if 1 < bits v 6 5 then (stValue, s)
  else if bit v 7 then
    if slotFree s k then (stOk, s.setNum 0x3C40 (k + 1) (setBit v 4 false)) else (stValue, s)
  else (stOk, releaseSlot k s)

/-- A releasing slot becomes free when no operation that names it is in flight (R152); its pages go back to the pool of its
job (R155). DEDUCED: log entry 64. -/
def freeSlot (k : Nat) (s : State) : State :=
  let busy := s.dies.any fun d => d.ops.any fun o => o.slotEn && o.slot == k
  if bit (slotBind s k) 4 ∧ !busy then
    let j := slotBind s k % 16
    let x := s.job j
    (s.setJob j { x with front := { x.front with pages := tset [] k [] x.front.pages } }).setNum 0x3C40 (k + 1) 0
  else s

/-- SLOT_RELEASE_DONE (R152). -/
def execSlotReleaseDone (slot : Nat) (s : State) : Host.Outcome State Fault Refusal :=
  forUnit (Instr.wf (.slotReleaseDone slot)) (freeSlot slot s)

end Sys2Proof.Machine
end

