-- ==== Sys2Proof/Machine/Vector.lean ====
section
/-!
DEFINITION. Machine/Vector.lean: binary32 arithmetic of the vector units in fast and strict mode (R95 to R98, R140, R141,
R587). Where the manual cites IEEE 754-2019 for a corner, the corner is that standard's (log entry 15).
-/

namespace Sys2Proof.Machine

/-- A binary32 code with the five flags as bits 4 to 0: invalid, division by zero, overflow, underflow, inexact (R149). -/
structure VR where
  code : Nat
  fl : Nat
  deriving DecidableEq, Repr

/-- A rounding direction: 0 to nearest even, 1 toward positive, 2 toward negative, 3 toward zero (R128). -/
def roundDir (dir : Nat) (neg : Bool) (m : Nat) (e u : Int) : Nat :=
  if u ≤ e then m <<< (e - u).toNat
  else
    let sh := (u - e).toNat
    let a := m >>> sh
    let rest := m - a <<< sh
    match dir with
    | 0 => if 2 * rest < 1 <<< sh then a else if 1 <<< sh < 2 * rest then a + 1 else a + a % 2
    | 1 => if neg ∨ rest = 0 then a else a + 1
    | 2 => if neg ∧ rest ≠ 0 then a + 1 else a
    | _ => a

/-- The largest finite binary32 code. -/
def b32Max : Nat := 0x7F7FFFFF

/-- A value beyond the range: infinity, or the largest finite value, by the direction (IEEE 754-2019). -/
def overflowCode (dir : Nat) (neg : Bool) : Nat :=
  b2n neg * 2 ^ 31 + (if dir = 0 ∨ (dir = 1 ∧ !neg) ∨ (dir = 2 ∧ neg) then 0x7F800000 else b32Max)

/-- A non-zero exact value rounded to binary32, with overflow, underflow and inexact (R587). -/
def roundB32 (dir : Nat) (neg : Bool) (m : Nat) (e : Int) : VR :=
  let top : Int := (m.log2 : Int) + e
  let free := roundDir dir neg m e (top - 23)
  let freeTop := if free = 2 ^ 24 then top + 1 else top
  let u : Int := max top (-126) - 23
  let q := roundDir dir neg m e u
  let exact := decide (u ≤ e) || m % 2 ^ (u - e).toNat == 0
  let s := b2n neg * 2 ^ 31
  if 127 < freeTop then ⟨overflowCode dir neg, 0b00101⟩
  else
    let tiny := decide (freeTop < -126)
    let fl := if exact then 0 else if tiny then 0b00011 else 0b00001
    ⟨s + (if q < 2 ^ 23 then q else if q = 2 ^ 24 then (u + 24 + 127).toNat * 2 ^ 23
      else (u + 23 + 127).toNat * 2 ^ 23 + (q - 2 ^ 23)), fl⟩

/-- An exact value rounded; a zero result of a sum takes the sign the caller gives. -/
def roundX (dir : Nat) (x : XNum) (zeroNeg : Bool) : VR :=
  if x.i = 0 then ⟨b2n zeroNeg * 2 ^ 31, 0⟩ else roundB32 dir (decide (x.i < 0)) x.i.natAbs x.e

/-- Every operand that is a NaN decides the result first: the canonical NaN in fast mode, the first NaN operand with bit
22 set in strict mode (R96). DEDUCED: log entries 15, 66. -/
def nanOfOps (strict : Bool) (l : List Nat) : Option VR :=
  match l.find? fun c => decodeF b32 c == .nan with
  | some c => some ⟨if strict then c ||| 0x400000 else 0x7FC00000, 0⟩
  | none => none

/-- A NaN that arises from operands that are not NaN. -/
def newNan : VR := ⟨0x7FC00000, 0b10000⟩

/-- A zero, or an infinity, with a sign. -/
def zero32 (neg : Bool) : VR := ⟨b2n neg * 2 ^ 31, 0⟩
def inf32 (neg : Bool) : VR := ⟨b2n neg * 2 ^ 31 + 0x7F800000, 0⟩

/-- Addition of values that are not NaN. DEDUCED: log entry 15. -/
def addV (dir : Nat) : FV → FV → VR
  | .inf a, .inf b => if a = b then inf32 a else newNan
  | .inf a, _ => inf32 a
  | _, .inf b => inf32 b
  | .fin a m e, .fin b n f =>
    if m = 0 ∧ n = 0 then (if a = b then zero32 a else zero32 (dir == 2))
    else roundX dir (((FV.fin a m e).toX).plus (FV.fin b n f).toX) (dir == 2)
  | _, _ => newNan

/-- Multiplication of values that are not NaN. DEDUCED: log entry 15. -/
def mulV (dir : Nat) (x y : FV) : VR :=
  match mulF x y with
  | .nan => newNan
  | .inf a => inf32 a
  | .fin a m e => if m = 0 then zero32 a else roundB32 dir a m e

/-- Fused multiply-add of values that are not NaN. DEDUCED: log entry 15. -/
def fmaV (dir : Nat) (x y z : FV) : VR :=
  match mulF x y, z with
  | .nan, _ => newNan
  | .inf a, .inf b => if a = b then inf32 a else newNan
  | .inf a, _ => inf32 a
  | .fin _ _ _, .inf b => inf32 b
  | .fin a m e, .fin b n f =>
    if m = 0 ∧ n = 0 then (if a = b then zero32 a else zero32 (dir == 2))
    else roundX dir (((FV.fin a m e).toX).plus (FV.fin b n f).toX) (dir == 2)
  | _, _ => newNan

/-- The quotient of two magnitudes with 64 bits beyond its first, the last one sticky. -/
def quotient (m n : Nat) : Nat × Int :=
  let k := 64 + n.log2
  let q := (m <<< k) / n
  (2 * q + (if (m <<< k) % n = 0 then 0 else 1), -(k : Int) - 1)

/-- Division of values that are not NaN. DEDUCED: log entry 15. -/
def divV (dir : Nat) : FV → FV → VR
  | .inf _, .inf _ => newNan
  | .inf a, .fin b _ _ => inf32 (a != b)
  | .fin a _ _, .inf b => zero32 (a != b)
  | .fin a m e, .fin b n f =>
    if n = 0 then (if m = 0 then newNan else ⟨(inf32 (a != b)).code, 0b01000⟩)
    else if m = 0 then zero32 (a != b)
    else
      let q := quotient m n
      roundB32 dir (a != b) q.1 (q.2 + e - f)
  | _, _ => newNan

/-- Integer square root, bit by bit from bit k - 1. -/
def isqrtBits : Nat → Nat → Nat → Nat
  | 0, _, r => r
  | k + 1, n, r => isqrtBits k n (if (r + 2 ^ k) * (r + 2 ^ k) ≤ n then r + 2 ^ k else r)

/-- The integer square root. -/
def isqrt (n : Nat) : Nat := isqrtBits (n.log2 / 2 + 1) n 0

/-- Square root of a value that is not NaN. DEDUCED: log entry 15. -/
def sqrtV (dir : Nat) : FV → VR
  | .inf a => if a then newNan else inf32 false
  | .fin a m e =>
    if m = 0 then zero32 a
    else if a then newNan
    else
      let odd := e % 2 ≠ 0
      let m := if odd then 2 * m else m
      let e := if odd then e - 1 else e
      let n := m <<< 128
      let r := isqrt n
      roundB32 dir false (2 * r + (if r * r = n then 0 else 1)) (e / 2 - 65)
  | .nan => newNan

/-- Reciprocal square root of a value that is not NaN. -/
def rsqrtV (dir : Nat) : FV → VR
  | .inf a => if a then newNan else zero32 false
  | .fin a m e =>
    if m = 0 then ⟨(inf32 a).code, 0b01000⟩
    else if a then newNan
    else
      let odd := e % 2 ≠ 0
      let m := if odd then 2 * m else m
      let e := if odd then e - 1 else e
      let k := 64 + m.log2
      let n := (1 <<< (2 * k)) / m
      let r := isqrt n
      roundB32 dir false (2 * r + (if r * r * m = 1 <<< (2 * k) then 0 else 1)) (-(e / 2) - k - 1)
  | .nan => newNan

/-- The order of two values that are not NaN: the sign of a - b, with -0 below +0. -/
def orderV : FV → FV → Int
  | .inf a, .inf b => if a = b then 0 else if a then -1 else 1
  | .inf a, _ => if a then -1 else 1
  | _, .inf b => if b then 1 else -1
  | .fin a m e, .fin b n f =>
    let x := ((FV.fin a m e).toX).add { i := -((FV.fin b n f).toX).i, e := f }
    if x.i < 0 then -1 else if 0 < x.i then 1 else if a = b then 0 else if a then -1 else 1
  | _, _ => 0

/-- The sign of a - b with the two zeros equal. -/
def compareV (a b : FV) : Int :=
  match a, b with
  | .fin _ 0 _, .fin _ 0 _ => 0
  | _, _ => orderV a b

/-- A 32-bit word as a two's-complement integer. -/
def int32 (v : Nat) : Int := signedOf 32 v

/-- Conversion to a 32-bit integer (R141). -/
def toIntV (dir : Nat) (strict : Bool) (v : FV) : VR :=
  let fl : Nat → Nat := fun f => if strict then f else 0
  match v with
  | .nan => ⟨0x7FFFFFFF, fl 0b10000⟩
  | .inf a => ⟨if a then 0x80000000 else 0x7FFFFFFF, fl 0b10000⟩
  | .fin a m e =>
    let q := roundDir dir a m e 0
    let exact := decide (0 ≤ e) || m % 2 ^ (-e).toNat == 0
    let i : Int := if a then -(q : Int) else q
    if 2147483647 < i then ⟨0x7FFFFFFF, fl 0b10000⟩
    else if i < -2147483648 then ⟨0x80000000, fl 0b10000⟩
    else ⟨unsignedOf 32 i, if exact then 0 else fl 1⟩

/-- 1.0 or +0 (R140). -/
def truth (b : Bool) : Nat := if b then 0x3F800000 else 0

/-- One element of a VEC_MAP: function code, strict mode, direction, the codes of A, B and D, and SCALAR (R140, R141).
Fast mode raises no flag (R96). -/
def vecElem (f : Nat) (strict : Bool) (dir a b d scalar : Nat) : VR :=
  let dir := if strict then dir else 0
  let va := decodeF b32 a
  let vb := decodeF b32 b
  let vd := decodeF b32 d
  let guard : List Nat → VR → VR := fun l r => (nanOfOps strict l).getD r
  let r : VR := match f with
    | 0x00 => match nanOfOps strict [a] with | some x => x | none => ⟨a, 0⟩
    | 0x01 => guard [a, b] (addV dir va vb)
    | 0x02 => guard [a, b] (addV dir va (decodeF b32 (b ^^^ 0x80000000)))
    | 0x03 => guard [a, b] (mulV dir va vb)
    | 0x04 => guard [a, b, d] (fmaV dir va vb vd)
    | 0x05 => guard [a, b]
        (if strict then divV dir va vb
         else match va, vb with
          | .fin _ 0 _, .fin _ 0 _ => newNan
          | .inf _, .inf _ => newNan
          | _, _ => mulV 0 va (decodeF b32 (divV 0 (decodeF b32 0x3F800000) vb).code))
    | 0x06 => guard [a] (sqrtV dir va)
    | 0x07 => guard [a] (divV dir (decodeF b32 0x3F800000) va)
    | 0x08 => guard [a] (rsqrtV dir va)
    | 0x09 => guard [a] (match va with
        | .fin n m e => if m = 0 then zero32 n else roundB32 dir n m (e + int32 scalar)
        | .inf n => inf32 n
        | .nan => newNan)
    | 0x0A => guard [a, b] (if orderV va vb ≤ 0 then ⟨a, 0⟩ else ⟨b, 0⟩)
    | 0x0B => guard [a, b] (if 0 ≤ orderV va vb then ⟨a, 0⟩ else ⟨b, 0⟩)
    | 0x0C => if va = .nan ∨ vb = .nan then ⟨0, 0b10000⟩ else ⟨truth (decide (compareV va vb < 0)), 0⟩
    | 0x0D => if va = .nan ∨ vb = .nan then ⟨0, 0b10000⟩ else ⟨truth (decide (compareV va vb ≤ 0)), 0⟩
    | 0x0E => if va = .nan ∨ vb = .nan then ⟨0, 0⟩ else ⟨truth (decide (compareV va vb = 0)), 0⟩
    | 0x0F => toIntV dir strict va
    | 0x10 => roundX dir { i := int32 a, e := 0 } false
    | 0x11 => guard [a, scalar] (addV dir va (decodeF b32 scalar))
    | 0x12 => guard [a, scalar] (mulV dir va (decodeF b32 scalar))
    | _ => ⟨0, 0⟩
  if strict then r else ⟨r.code, 0⟩

/-- The function of a reduction node (R97, R140). -/
def reduceFn (f : Nat) : Nat := if f = 0x20 then 0x01 else if f = 0x21 then 0x0B else 0x0A

/-- The identity that fills a short last vector (R141): for a sum, the zero that leaves every addend unchanged under the
direction; for a maximum -∞, for a minimum +∞ (log entry 15). -/
def reduceId (f : Nat) (strict : Bool) (dir : Nat) : Nat :=
  if f = 0x20 then (if strict ∧ dir = 2 then 0 else 0x80000000) else if f = 0x21 then 0xFF800000 else 0x7F800000

/-- A node of a reduction, gathering flags. -/
def reduceNode (f : Nat) (strict : Bool) (dir : Nat) (x y : VR) : VR :=
  let r := vecElem (reduceFn f) strict dir x.code y.code 0 0
  ⟨r.code, r.fl ||| x.fl ||| y.fl⟩

/-- One row of a VEC_REDUCE: vectors of 64, each by the fixed tree, combined in ascending order (R97, R141). -/
def reduceRow : Nat → Nat → Bool → Nat → Option VR → List Nat → VR
  | 0, f, strict, dir, acc, _ => acc.getD ⟨reduceId f strict dir, 0⟩
  | k + 1, f, strict, dir, acc, l =>
    match l with
    | [] => acc.getD ⟨reduceId f strict dir, 0⟩
    | _ =>
      let v := ((l.take 64) ++ List.replicate (64 - (l.take 64).length) (reduceId f strict dir)).map fun c => (⟨c, 0⟩ : VR)
      let r := ((combineTree (reduceNode f strict dir) 6 v).head?).getD ⟨0, 0⟩
      reduceRow k f strict dir (some (match acc with | some a => reduceNode f strict dir a r | none => r)) (l.drop 64)

end Sys2Proof.Machine
end

