-- ==== Sys2Proof/Machine/Tensor.lean ====
section
/-!
DEFINITION. Machine/Tensor.lean: what tensor operations do: products over engines and dies, drains, tile images and vector
functions (R71 to R98, R126, R131, R132, R140, R141, R146 to R148).
-/

namespace Sys2Proof.Machine

/-! ### Tiles (R105) -/

/-- The 4096 codes of a tile, row by row; a tile that nothing has written holds +0. -/
def readTile (s : State) (n key : Nat) : List Nat :=
  let t := tget [] key (s.die n).tiles
  (List.range 4096).map fun i => tget 0 i t

/-- A tile read by an operation: an uncorrectable error of its storage ends the operation with POISON (R116). -/
def useTile (n key : Nat) (s : State) : Res (List Nat) :=
  match sramRead n 0 key (key / 32) s with
  | (true, s) => (.error ⟨3, 0, 0⟩, s)
  | (false, s) => (.ok (readTile s n key), s)

/-- The operand staging buffers of a die hold something that the manual does not give: one free value for each byte (R101).
DESIGN CHOICE: log entry 117. -/
def fillStaging (n : Nat) (s : State) : State :=
  { s.setDie n { s.die n with stageBase := s.free + 1 } with free := s.free + 64 * 65536 + 1 }

/-- Byte i of the operand staging buffer of engine e: 0 before any use. DESIGN CHOICE: log entry 117. -/
def stagingByte (s : State) (n e i : Nat) : Byte :=
  if (s.die n).stageBase = 0 then 0 else BitVec.ofNat 8 (Config.freeNat ((s.die n).stageBase + e * 65536 + i))

/-- The operand staging buffer of an engine is used (R101, R116). DESIGN CHOICE: log entry 117. -/
def useStaging (n e : Nat) (s : State) : Res Unit :=
  match sramRead n 1 e e s with
  | (true, s) => (.error ⟨3, 0, 0⟩, s)
  | (false, s) => (.ok (), fillStaging n s)

/-! ### The frame of every operation -/

/-- An operation that has started, with the opcode asked for. -/
def startedOp (s : State) (n isn opcode : Nat) : Option Op :=
  match findOp s n isn with
  | some o => if o.phase = .started ∧ o.opcode = opcode then some o else none
  | none => none

/-- Work of a started operation: the reads of the host and of other packages go out first; once they are answered the
work is done, and the operation ends with what it answers. A step whose requests must wait leaves the rest to a later one (R139). -/
def runOp (n isn opcode : Nat) (work : Ctx → State → Res Op) (s : State) : State :=
  match startedOp s n isn opcode with
  | none => s
  | some o =>
    let x : Ctx := { die := n, job := opJob s n o, op := o }
    let l := (awayRanges s o).drop o.asked
    if l ≠ [] then
      if o.asked = 0 ∧ mergeBusy s x then s
      else if o.asked = 0 ∧ hostDown s o then failOp n o ⟨6, 0, 0⟩ s
      else match askRanges x l s with
        | (.ok k, s) => putOp n { o with asked := o.asked + k } s
        | (.error e, s) => failOp n o e s
    else if readsOpen x s then s
    else match remoteFailed x s with
      | some e => failOp n o e s
      | none =>
        match work x s with
        | (.ok o, s) => endOp n o s
        | (.error e, s) => failOp n o e s

/-- The engines of an operation are in quadrants that are on, else UNIT_OFF (R24, R148, R151). -/
def enginesOn (x : Ctx) (s : State) : Res Unit :=
  match offEngine s x.die x.op with
  | some u => (.error ⟨4, 0, u.1 * 64 + u.2⟩, s)
  | none => (.ok (), s)

/-! ### Products (R131, R146, R147) -/

/-- Rows of an operand for one leaf: `none` for a row beyond the view (R131). -/
def leafRows (x : Ctx) (d : Nat) (t : TRef) (first c0 len : Nat) (s : State) : Res (List (Option (List Elem))) :=
  mapRes (fun i s =>
    if first + i < t.rows then
      match readElems x d t (first + i) c0 len s with
      | (.ok l, s) => (.ok (some l), s)
      | (.error e, s) => (.error e, s)
    else (.ok none, s)) (List.range 64) s

/-- One tile entry: the dot product of two rows; every product of a missing row is +0 (R131). -/
def tileEntry (fa fb start len : Nat) (a b : Option (List Elem)) : Nat :=
  match a, b with
  | some a, some b => dotProduct fa fb start (List.zipWith (fun p q => (mulF p.val q.val, p.sx + q.sx)) a b)
  | _, _ => if len = 0 then start else promote start (.fin false 0 0) none

/-- The reduction indices of leaf k: their first and their number (R146). -/
def leafRange (o : Op) (k : Nat) : Nat × Nat :=
  let l := roundUp (ceilDiv o.klen (2 ^ (o.splitEng + o.splitDie))) 64
  let lo := min o.klen (k * l)
  (o.k0 + lo, min l (o.klen - lo))

/-- The tile of codes that leaf k computes: leaf 0 starts from the root tile in add mode, every other from +0 (R146).
DEDUCED: log entry 71. -/
def leafTile (x : Ctx) (k : Nat) (s : State) : Res (List Nat) :=
  let o := x.op
  let p := leafPlace x k
  let r := leafRange o k
  thenRes (useStaging p.1 p.2 s) fun _ s =>
  thenRes (if k = 0 ∧ o.acc then useTile p.1 (tileKey p.2 o.tile) s else (.ok (List.replicate 4096 0), s)) fun t s =>
  thenRes (leafRows x p.1 o.a o.m0 r.1 r.2 s) fun ra s =>
  thenRes (leafRows x p.1 o.b o.n0 r.1 r.2 s) fun rb s =>
    (.ok (t.mapIdx fun i c => tileEntry o.a.fmt o.b.fmt c r.2 (ra.getD (i / 64) none) (rb.getD (i % 64) none)), s)

/-- The root tile of a product, and the root tile alone for one leaf (R147). -/
def productTile (x : Ctx) (s : State) : Res (List Nat) :=
  let d := x.op.splitEng + x.op.splitDie
  thenRes (enginesOn x s) fun _ s =>
  thenRes (mapRes (leafTile x) (List.range (2 ^ d)) s) fun l s =>
    (.ok ((combineTree (List.zipWith qaAdd) d l).headD []), s)

/-- The tiles that a product leaves: the root tile, and unspecified values in the others of its group.
DEDUCED: log entry 71. -/
def leaveTiles (x : Ctx) (root : List Nat) (s : State) : State :=
  let o := x.op
  let s := ((List.range (2 ^ (o.splitEng + o.splitDie))).filter (· != 0)).foldl (fun s k =>
    freeTile (leafPlace x k).1 (tileKey (leafPlace x k).2 o.tile) s) s
  writeTile x.die (tileKey o.engine o.tile) root s

/-- NOP (R126). -/
def execNop (die isn : Nat) (s : State) : Host.Outcome State Fault Refusal :=
  forUnit (Instr.wf (.nop die isn)) (runOp die isn 0x00 (fun x s => (.ok x.op, s)) s)

/-- MMA (R126, R131, R146, R147). -/
def execMma (die isn : Nat) (s : State) : Host.Outcome State Fault Refusal :=
  forUnit (Instr.wf (.mma die isn)) (runOp die isn 0x01 (fun x s =>
    thenRes (productTile x s) fun t s => (.ok x.op, leaveTiles x t s)) s)

/-! ### Drains (R88, R128, R132) -/

/-- A row of D as a drain writes it: tile row p, or tile column p with DT 1. -/
def drainRow (x : Ctx) (tile : List Nat) (p : Nat) : RowOut :=
  let o := x.op
  let n := min 64 (o.d.cols - o.dn0)
  convRow o.cv o.d codeQA40 false (o.dm0 + p) o.dn0
    ((List.range n).map fun q => (lget 0 tile (if o.dt then q * 64 + p else p * 64 + q), none))

/-- The flags and host writes that an operation's stores leave it with. -/
def withOut (o : Op) (l : List RowOut) (w : List (Nat × Nat)) : Op :=
  { o with sat := l.any (·.sat), nonfinite := l.any (·.nonfin), hostWrote := w }

/-- A tile drained to D; what lies outside D is not written (R132). -/
def drainTile (x : Ctx) (tile : List Nat) (s : State) : Res Op :=
  let o := x.op
  let rows := (List.range 64).filter fun p => decide (o.dm0 + p < o.d.rows)
  let out := rows.map fun p => (p, drainRow x tile p)
  let s := calmMerges o s
  thenRes (storeAll x o.d (out.flatMap fun r => rowStores x s o.d (o.dm0 + r.1) o.dn0 r.2) s) fun w s =>
    (.ok (withOut o (out.map (·.2)) w), s)

/-- MMA_DRAIN (R126). -/
def execMmaDrain (die isn : Nat) (s : State) : Host.Outcome State Fault Refusal :=
  forUnit (Instr.wf (.mmaDrain die isn)) (runOp die isn 0x02 (fun x s =>
    thenRes (productTile x s) fun t s =>
    thenRes (drainTile x t s) fun o s => (.ok o, leaveTiles x t s)) s)

/-- DRAIN (R126, R88). -/
def execDrain (die isn : Nat) (s : State) : Host.Outcome State Fault Refusal :=
  forUnit (Instr.wf (.drain die isn)) (runOp die isn 0x03 (fun x s =>
    thenRes (enginesOn x s) fun _ s =>
    thenRes (useTile die (tileKey x.op.engine x.op.tile) s) fun t s => drainTile x t s) s)

/-- TILE_RESTORE (R126): entries beyond the image are +0. -/
def execTileRestore (die isn : Nat) (s : State) : Host.Outcome State Fault Refusal :=
  forUnit (Instr.wf (.tileRestore die isn)) (runOp die isn 0x05 (fun x s =>
    thenRes (enginesOn x s) fun _ s =>
    thenRes (leafRows x die x.op.a 0 0 (min 64 x.op.a.cols) s) fun r s =>
      (.ok x.op, writeTile die (tileKey x.op.engine x.op.tile)
        ((List.range 4096).map fun i => match r.getD (i / 64) none with
          | some l => (l.map (·.code)).getD (i % 64) 0
          | none => 0) s)) s)

/-! ### Vector operations (R140, R141) -/

/-- The vector units of die n in quadrants that are on (R100, R106). DESIGN CHOICE: log entry 117. -/
def unitsOn (s : State) (n : Nat) : List Nat := (List.range 16).filter fun u => s.on (domQuad n (u / 4))

/-- The vector registers and local buffers of a die hold something that the manual does not give: one free value for each byte of
their 2 MiB (R101, R106). DESIGN CHOICE: log entry 117. -/
def fillVector (n : Nat) (s : State) : State :=
  { s.setDie n { s.die n with vecBase := s.free + 1 } with free := s.free + 16 * 131072 + 1 }

/-- Byte i of the 8 KiB register file (0 to 8191) and the 120 KiB local buffer (from 8192 on) of vector unit u: 0 before any use.
DESIGN CHOICE: log entry 117. -/
def vectorByte (s : State) (n u i : Nat) : Byte :=
  if (s.die n).vecBase = 0 then 0 else BitVec.ofNat 8 (Config.freeNat ((s.die n).vecBase + u * 131072 + i))

/-- Lane l of vector register r of unit u: binary32 codes, 64 lanes in each of 32 registers (R106).
DESIGN CHOICE: log entry 117. -/
def vectorLane (s : State) (n u r l : Nat) : Nat := leNat ((List.range 4).map fun b => vectorByte s n u (256 * r + 4 * l + b))

/-- A vector unit runs the operation: the die chooses one of those that are on, and the choice shows in no value (R106, R141);
UNIT_OFF when none is (R151). An uncorrectable error of its registers or its buffer ends the operation (R116).
DESIGN CHOICE: log entry 117. -/
def vectorUnit (x : Ctx) (s : State) : Res Unit :=
  let l := unitsOn s x.die
  if l = [] then (.error ⟨4, 0, x.die * 64⟩, s)
  else if (s.die x.die).sramErr = [] then (.ok (), fillVector x.die s)
  else
    let v := s.draw
    let u := lget 0 l (v.1 % l.length)
    match sramRead x.die 2 u (64 + u) v.2 with
    | (true, s) => (.error ⟨3, 0, 0⟩, s)
    | (false, s) => (.ok (), fillVector x.die s)

/-- An input element as a binary32 code (R141); element (r, c) of D gives the draw of a stochastic conversion (R132). A
binary32 element enters as it is. DEDUCED: log entry 123. -/
def inputCode (o : Op) (fmt r c : Nat) (e : Elem) : Nat :=
  if fmt = codeB32 then e.code else (convElem fmt codeB32 (rndAt o.cv o.d r c) e.code e.scale).code

/-- The vector results stay raw binary32 codes: integers of VFUNC 0x0F, and NaNs that strict mode propagates (R96), also in a
Convert to binary32, of which R64 and R69 would make the canonical NaN. DEDUCED: log entry 123. -/
def rawResult (o : Op) : Bool := o.vfunc == 0x0F || o.strict

/-- One row of a VEC_MAP: its results. -/
def mapRow (x : Ctx) (r : Nat) (s : State) : Res (List VR) :=
  let o := x.op
  let n := o.a.cols
  let none_ : List Elem := List.replicate n { code := 0, scale := none, val := .fin false 0 0, sx := 0 }
  thenRes (readElems x x.die o.a r 0 n s) fun a s =>
  thenRes (if usesB o.vfunc then readElems x x.die o.b (if o.b.rows = 1 then 0 else r) 0 n s else (.ok none_, s)) fun b s =>
  thenRes (if o.vfunc = 4 then readElems x x.die o.d r 0 n s else (.ok none_, s)) fun d s =>
    let z : Elem := { code := 0, scale := none, val := .fin false 0 0, sx := 0 }
    (.ok ((List.range n).map fun c =>
      let ea := a.getD c z
      let eb := b.getD c z
      let ed := d.getD c z
      let ca := if o.vfunc = 0x10 then ea.code else inputCode o o.a.fmt r c ea
      let cb := if usesB o.vfunc then inputCode o o.b.fmt r c eb else 0
      let cd := if o.vfunc = 4 then inputCode o o.d.fmt r c ed else 0
      vecElem o.vfunc o.strict o.vdir ca cb cd o.scalar), s)

/-- One row of a VEC_REDUCE: its one result. -/
def redRow (x : Ctx) (r : Nat) (s : State) : Res (List VR) :=
  let o := x.op
  thenRes (readElems x x.die o.a r 0 o.a.cols s) fun a s =>
    (.ok [reduceRow (o.a.cols + 1) o.vfunc o.strict o.vdir none (a.map (inputCode o o.a.fmt r 0))], s)

/-- The results of every row converted into D and stored. -/
def storeRows (x : Ctx) (l : List (List VR)) (s : State) : Res Op :=
  let o := x.op
  let out := l.mapIdx fun r v => convRow o.cv o.d codeB32 (rawResult o) r 0 (v.map fun e => (e.code, none))
  let fl := (l.flatMap (·.map (·.fl))).foldl (· ||| ·) 0
  thenRes (storeAll x o.d (out.mapIdx (fun r w => rowStores x s o.d r 0 w)).flatten s) fun w s =>
    (.ok { withOut o out w with ieee := if o.strict then fl else 0 }, s)

/-- A vector operation, row by row. -/
def vectorWork (row : Ctx → Nat → State → Res (List VR)) (x : Ctx) (s : State) : Res Op :=
  thenRes (vectorUnit x s) fun _ s =>
  thenRes (mapRes (row x) (List.range x.op.a.rows) s) fun l s => storeRows x l s

/-- VEC_MAP Convert of an A that is not binary32: each element goes to the format of D by one conversion of R69, as R61 and R70
have it, and not through binary32, which R141 has for the inputs of arithmetic. It raises none of the five IEEE flags, in strict mode
either: R64 and R65 give a conversion flags of its own. DEDUCED: log entry 123. -/
def convertWork (x : Ctx) (s : State) : Res Op :=
  let o := x.op
  thenRes (vectorUnit x s) fun _ s =>
  thenRes (mapRes (fun r s => readElems x x.die o.a r 0 o.a.cols s) (List.range o.a.rows) s) fun l s =>
    let out := l.mapIdx fun r v => convRow o.cv o.d o.a.fmt false r 0 (v.map fun e => (e.code, e.scale))
    thenRes (storeAll x o.d (out.mapIdx (fun r w => rowStores x s o.d r 0 w)).flatten s) fun w s => (.ok (withOut o out w), s)

/-- The work of a VEC_MAP. DEDUCED: log entry 123. -/
def mapWork (x : Ctx) (s : State) : Res Op :=
  if x.op.vfunc = 0 ∧ x.op.a.fmt ≠ codeB32 then convertWork x s else vectorWork mapRow x s

/-- VEC_MAP (R140, R141). -/
def execVecMap (die isn : Nat) (s : State) : Host.Outcome State Fault Refusal :=
  forUnit (Instr.wf (.vecMap die isn)) (runOp die isn 0x10 mapWork s)

/-- VEC_REDUCE (R140, R141). -/
def execVecReduce (die isn : Nat) (s : State) : Host.Outcome State Fault Refusal :=
  forUnit (Instr.wf (.vecReduce die isn)) (runOp die isn 0x11 (vectorWork redRow) s)

end Sys2Proof.Machine
end

