-- ==== Sys2Proof/Machine/Stash.lean ====
section
/-!
DEFINITION. Machine/Stash.lean: the activation stash: regions, chains, puts, Regrow and frees (R170 to R193, R589).
-/

namespace Sys2Proof.Machine

/-! ### Structures (R171, R174, R175) -/

/-- The region descriptor of R171. -/
structure Region where
  poolBase : Nat
  poolBytes : Nat
  ckptBase : Nat
  ckptShare : Nat
  slotMask : Nat
  regrowBase : Nat
  regrowShare : Nat
  ckptTable : Nat
  layers : Nat
  fmt : Nat
  blk : Nat
  /-- Reserved bits: of word 5 and of word 7. -/
  res5 : Nat
  res7 : Nat
  deriving DecidableEq, Repr

/-- A region descriptor from its 64 bytes. DEDUCED: log entry 73. DESIGN CHOICE: log entry 146. -/
def regionOf (l : List Byte) : Region :=
  let w : Nat → Nat := fun k => fieldOf l (8 * k) 8
  { poolBase := w 0, poolBytes := w 1, ckptBase := w 2, ckptShare := bits (w 3) 63 32, slotMask := bits (w 3) 31 0,
    regrowBase := w 4, regrowShare := bits (w 5) 63 32, ckptTable := w 6, layers := bits (w 7) 63 48,
    fmt := bits (w 7) 47 44, blk := bits (w 7) 43 42, res5 := bits (w 5) 31 0, res7 := bits (w 7) 41 0 }

/-- The chain header of R174. -/
structure Chain where
  step : Nat
  layers : Nat
  firstMarked : Nat
  lastPut : Nat
  overflow : Bool
  active : Bool
  stashed : Nat
  marked : Nat
  regrown : Nat
  ckptUsed : Nat
  regrowUsed : Nat
  deriving DecidableEq, Repr

def chainOf (l : List Byte) : Chain :=
  let w : Nat → Nat := fun k => fieldOf l (8 * k) 8
  { step := w 0, layers := bits (w 1) 63 48, firstMarked := bits (w 1) 47 32, lastPut := bits (w 1) 31 16,
    overflow := bit (w 1) 1, active := bit (w 1) 0, stashed := w 2, marked := w 3, regrown := w 4,
    ckptUsed := bits (w 5) 63 32, regrowUsed := bits (w 5) 31 0 }

def Chain.bytes (c : Chain) : List Byte :=
  leBytes 8 c.step
    ++ leBytes 8 (c.layers * 2 ^ 48 + c.firstMarked * 2 ^ 32 + c.lastPut * 2 ^ 16 + b2n c.overflow * 2 + b2n c.active)
    ++ leBytes 8 c.stashed ++ leBytes 8 c.marked ++ leBytes 8 c.regrown
    ++ leBytes 8 (c.ckptUsed * 2 ^ 32 + c.regrowUsed) ++ List.replicate 16 0

/-- The states of a layer record (R175). -/
def recEmpty : Nat := 0
def recStashed : Nat := 1
def recMarked : Nat := 2
def recRegrown : Nat := 3
def recFreed : Nat := 4

/-- The layer record of R175. -/
structure LRec where
  entry : Nat
  ckptAddr : Nat
  seed : Nat
  stream : Nat
  bytes_ : Nat
  rows : Nat
  cols : Nat
  rowOff : Nat
  colOff : Nat
  fmt : Nat
  blk : Nat
  rnd : Nat
  dxEn : Bool
  dx : Nat
  state : Nat
  ckpt : Bool
  ckptBytes : Nat
  deriving DecidableEq, Repr

def lrecOf (l : List Byte) : LRec :=
  let w : Nat → Nat := fun k => fieldOf l (8 * k) 8
  { entry := w 0, ckptAddr := w 1, seed := w 2, stream := bits (w 3) 63 32, bytes_ := bits (w 3) 31 0,
    rows := bits (w 4) 63 32, cols := bits (w 4) 31 0, rowOff := bits (w 5) 63 32, colOff := bits (w 5) 31 0,
    fmt := bits (w 6) 63 60, blk := bits (w 6) 59 58, rnd := bits (w 6) 57 56, dxEn := bit (w 6) 55,
    dx := bits (w 6) 54 48, state := bits (w 6) 47 40, ckpt := bit (w 6) 39, ckptBytes := bits (w 6) 31 0 }

def LRec.bytes (r : LRec) : List Byte :=
  leBytes 8 r.entry ++ leBytes 8 r.ckptAddr ++ leBytes 8 r.seed ++ leBytes 8 (r.stream * 2 ^ 32 + r.bytes_ % 2 ^ 32)
    ++ leBytes 8 (r.rows * 2 ^ 32 + r.cols) ++ leBytes 8 (r.rowOff * 2 ^ 32 + r.colOff)
    ++ leBytes 8 (r.fmt * 2 ^ 60 + r.blk * 2 ^ 58 + r.rnd * 2 ^ 56 + b2n r.dxEn * 2 ^ 55 + r.dx * 2 ^ 48 + r.state * 2 ^ 40
        + b2n r.ckpt * 2 ^ 39 + r.ckptBytes)
    ++ List.replicate 8 0

/-- ENTRY_ADDR of a record with no entry: an address in a hole (R175, R194). -/
def holeAddr : Nat := 0xF000000000

/-- A record that STASH_BEGIN leaves (R177). -/
def emptyRec : List Byte := leBytes 8 holeAddr ++ List.replicate 56 0

/-! ### Access -/

/-- A reference that names device memory only. -/
def plainRef : TRef :=
  { base := 0, fmt := 0, blk := 0, remote := false, alloc := false, device := 0, rows := 0, cols := 0, stride := 0,
    scaleBase := 0, scaleStride := 0, rowOff := 0, colOff := 0 }

/-- Bytes that a stash operation reads. -/
def stashRead (x : Ctx) (a n : Nat) (s : State) : Res (List Byte) := fetchDevice x x.die false a n s

/-- Stores of a stash operation, all or none. -/
def stashWrite (x : Ctx) (l : List (Nat × List Byte)) (s : State) : Res Unit :=
  match storeAll x plainRef (l.map fun w => putAll w.1 w.2) s with
  | (.ok _, s) => (.ok (), s)
  | (.error e, s) => (.error e, s)

/-- The position of a slot's share (R172). -/
def shareIx (r : Region) (slot : Nat) : Nat := popCount r.slotMask slot

/-- MALFORMED with a DETAIL (R589). -/
def malformed (d : Nat) : Bad := ⟨1, 0, d⟩

/-- The first reserved field of a slot descriptor that is not 0 (R9, R153). Its KV_FMT and KV_BLK may hold any code, since no stash
operation uses them (R30). DEDUCED: log entry 124. -/
def slotReserved (l : List Byte) : Option Nat :=
  let w : Nat → Nat := fun k => fieldOf l (8 * k) 8
  firstBroken [(bits (w 2) 57 32 != 0, 20), (w 5 != 0, 40), (w 6 != 0, 48), (w 7 != 0, 56)]

/-- The region, and the address of the slot's chain on this die (R170, R174). A slot descriptor with a reserved field that is not
0 is malformed (R9); the DETAIL is that field's offset. With no region the DETAIL is 0. DEDUCED: log entries 73, 124. -/
def stashCtx (x : Ctx) (s : State) : Res (List Byte × Region × Nat) :=
  let ra := s.num (0x3C50 + x.die) (x.job + 1)
  if ra = 0 then (.error ⟨1, 0, 0⟩, s)
  else
    thenRes (stashRead x ra 64 s) fun l s =>
    thenRes (stashRead x (s.num 0x3C41 (x.op.slot + 1)) 64 s) fun d s =>
      let r := regionOf l
      match slotReserved d with
      | some b => (.error (malformed b), s)
      | none => (.ok (l, r, fieldOf d 32 8 + x.die * (64 + 64 * r.layers)), s)

/-- SLOT_MASK holds the slot's bit, else ACCESS_ERROR with ERROR_ADDR 0 (R176). -/
def slotIn (x : Ctx) (r : Region) (s : State) : Res Unit :=
  if bit r.slotMask x.op.slot then (.ok (), s) else (.error ⟨2, 0, 0⟩, s)

/-! ### STASH_BEGIN (R171, R172, R177) -/

/-- The three parts of a region, in the order of R589: byte offset of the base field, base and size.
DESIGN CHOICE: log entry 146. -/
def regionParts (r : Region) : List (Nat × Nat × Nat) :=
  let k := popCount r.slotMask 32
  ([(0, r.poolBase, r.poolBytes), (16, r.ckptBase, k * r.ckptShare), (32, r.regrowBase, k * r.regrowShare)]
    : List (Nat × Nat × Nat)).filter fun p => p.2.2 != 0

/-- A range lies wholly in the die-local range or the Canopy window of a die (R170, R172). -/
def homedOn (s : State) (n a len : Nat) : Bool :=
  let local_ : Nat → Bool := fun a => match place s a with
    | .dram m _ => m == n && decide (a < 0xF000000000)
    | _ => false
  let canopy : Nat → Bool := fun a => match place s a with
    | .canopy m _ => m == n
    | _ => false
  (local_ a && local_ (a + len - 1)) || (canopy a && canopy (a + len - 1))

/-- Two ranges overlap. -/
def overlap (a n b m : Nat) : Bool := decide (a < b + m) && decide (b < a + n)

/-- The parts of the regions of the other jobs on a die (R172). -/
def otherParts (s : State) (n j : Nat) : List (Nat × Nat × Nat) :=
  ((List.range 16).filter fun k => k != j && s.num (0x3C50 + n) (k + 1) != 0).flatMap fun k =>
    regionParts (regionOf (peekMem s (s.num (0x3C50 + n) (k + 1)) 64))

/-- The first field of a region descriptor that breaks R171, else the first part misplaced under R170 or R172. -/
def regionBroken (s : State) (n j : Nat) (r : Region) : Option Nat :=
  let pair := (r.fmt == 3 && r.blk == 0) || (r.fmt == 2 && r.blk == 2)
  match firstBroken [(r.poolBase % 4096 != 0, 0), (r.poolBytes % 4096 != 0, 8), (r.ckptBase % 4096 != 0, 16),
      (r.ckptShare % 4096 != 0, 28), (r.regrowBase % 4096 != 0, 32), (r.res5 != 0, 40), (r.regrowShare % 4096 != 0, 44),
      (r.ckptTable % 64 != 0, 48), (r.res7 != 0, 56), (!pair, 61),
      (r.layers == 0 || decide (4096 < r.layers), 62)] with
  | some d => some d
  | none =>
    let parts := regionParts r
    (parts.find? fun p => !homedOn s n p.2.1 p.2.2
      || parts.any (fun q => decide (p.1 < q.1) && overlap p.2.1 p.2.2 q.2.1 q.2.2)
      || (otherParts s n j).any (fun q => overlap p.2.1 p.2.2 q.2.1 q.2.2)).map (·.1)

/-- The parts lie within the job's protections with READ and WRITE (R172). -/
def partsAllowed (x : Ctx) (r : Region) (s : State) : Res Unit :=
  match (regionParts r).find? fun p =>
      !(protOk (s.job x.job).prots (·.read) p.2.1 p.2.2 && protOk (s.job x.job).prots (·.write) p.2.1 p.2.2) with
  | some p => (.error ⟨2, p.2.1, 0⟩, s)
  | none => (.ok (), s)

/-- The chains that are active on a die, with one more. -/
def addChain (n j slot a : Nat) (s : State) : State :=
  let d := s.die n
  let keep : Nat × Nat × Nat → Bool := fun c => !(c.1 == j && c.2.1 == slot)
  s.setDie n { d with chains := d.chains.filter keep ++ [(j, slot, a)] }

/-- The header of a chain that has just begun (R177). -/
def newChain (step layers : Nat) : Chain :=
  ⟨step, layers, 0xFFFF, 0xFFFF, false, true, 0, 0, 0, 0, 0⟩

/-- The work of a STASH_BEGIN (R177). The slot's bit in SLOT_MASK is looked at after the other checks, whose order with it no rule
gives. DEDUCED: log entry 73. -/
def beginWork (x : Ctx) (s : State) : Res Op :=
  thenRes (vectorUnit x s) fun _ s =>
  thenRes (stashCtx x s) fun c s =>
  thenRes (stashRead x c.2.2 64 s) fun h s =>
    if (chainOf h).active then (.error (malformed 5), s)
    else match regionBroken s x.die x.job c.2.1 with
      | some d => (.error (malformed (0x100 + d)), s)
      | none =>
        thenRes (partsAllowed x c.2.1 s) fun _ s =>
        thenRes (slotIn x c.2.1 s) fun _ s =>
          let head := newChain (x.op.w 4) c.2.1.layers
          let recs := (List.replicate c.2.1.layers emptyRec).flatten
          thenRes (stashWrite x [(c.2.2, head.bytes ++ recs)] s) fun _ s =>
            (.ok x.op, addChain x.die x.job x.op.slot c.2.2 s)

/-- STASH_BEGIN (R177). -/
def execStashBegin (die isn : Nat) (s : State) : Host.Outcome State Fault Refusal :=
  forUnit (Instr.wf (.stashBegin die isn)) (runOp die isn 0x20 beginWork s)

/-! ### Pools (R181, R192) -/

/-- The lowest-addressed free run of at least n bytes in a pool, from its allocated runs in rising order (R181). -/
def freeRun (n last : Nat) : Nat → List PoolRun → Option Nat
  | p, [] => if p + n ≤ last then some p else none
  | p, r :: l => if p + n ≤ r.addr then some p else freeRun n last (max p (r.addr + r.bytes)) l

/-- A run put into a list in rising order of addresses. -/
def insRun (r : PoolRun) : List PoolRun → List PoolRun
  | [] => [r]
  | q :: l => if r.addr < q.addr then r :: q :: l else q :: insRun r l

/-- The runs of one job in the pool of a die. -/
def jobRuns (s : State) (n j : Nat) : List PoolRun := (s.die n).pool.filter (·.job == j)

/-- TNS_STASH_POOL_USED and TNS_STASH_POOL_PEAK follow the pool (R192). -/
def notePool (n j : Nat) (s : State) : State :=
  let u := ((jobRuns s n j).map (·.bytes)).sum
  let s := s.setNum (0x3C58 + n) (j + 1) u
  if s.num (0x3C60 + n) (j + 1) < u then s.setNum (0x3C60 + n) (j + 1) u else s

/-- A run allocated, and runs released by their addresses. -/
def allocRun (n : Nat) (r : PoolRun) (s : State) : State :=
  notePool n r.job (s.setDie n { s.die n with pool := insRun r (s.die n).pool })
def freeRuns (n j : Nat) (l : List Nat) (s : State) : State :=
  let keep : PoolRun → Bool := fun r => !(r.job == j && l.contains r.addr)
  notePool n j (s.setDie n { s.die n with pool := (s.die n).pool.filter keep })

/-! ### Entries and checkpoint records (R179, R180) -/

/-- A stash entry as a view: layout of R179 for `rows` rows of `cols` elements at an address. -/
def entryRef (r : Region) (a rows cols rowOff colOff : Nat) : TRef :=
  let rs := roundUp (rowBytes r.fmt cols) 64
  let ss := if r.blk = 0 then 0 else roundUp (ceilDiv cols (blockLen r.blk)) 64
  { plainRef with base := a, fmt := r.fmt, blk := r.blk, rows := rows, cols := cols, stride := rs,
                  scaleBase := a + rows * rs, scaleStride := ss, rowOff := rowOff, colOff := colOff }

/-- ENTRY_BYTES (R179). DEDUCED: log entry 73. -/
def entryBytes (t : TRef) : Nat := roundUp (t.rows * (t.stride + t.scaleStride)) 4096

/-- The rows of A, read in full. -/
def readAll (x : Ctx) (s : State) : Res (List (List Elem)) :=
  mapRes (fun r s => readElems x x.die x.op.a r 0 x.op.a.cols s) (List.range x.op.a.rows) s

/-- A in transposed order, converted: the rows of the entry (R179). -/
def entryRows (v : Cv) (t : TRef) (fmt : Nat) (rows : List (List Elem)) : List RowOut :=
  (List.range t.rows).map fun c =>
    convRow v t fmt false c 0 (rows.map fun l => match l[c]? with | some e => (e.code, e.scale) | none => (0, none))

/-- The stores of an entry. DEDUCED: log entry 73. -/
def entryStores (x : Ctx) (s : State) (t : TRef) (l : List RowOut) : List (Nat × List Byte) :=
  (l.mapIdx fun r w => (rowStores x s t r 0 w).map fun p => (p.addr, p.data)).flatten

/-- Row stride of a checkpoint record, its scale stride, and its size (R180). -/
def ckptGeom (t : TRef) : Nat × Nat × Nat :=
  let rs := roundUp (rowBytes t.fmt t.cols) 64
  let ss := if t.scaled then roundUp (ceilDiv t.cols t.block) 64 else 0
  (rs, ss, roundUp (t.rows * (rs + ss)) 4096)

/-- The stores of a checkpoint record: an exact copy of A in forward order (R180). -/
def ckptStores (t : TRef) (a : Nat) (rows : List (List Elem)) : List (Nat × List Byte) :=
  let g := ckptGeom t
  (rows.mapIdx fun r l =>
    let main := (a + r * g.1, packRow t.fmt (l.map (·.code)))
    if t.scaled then
      [main, (a + t.rows * g.1 + r * g.2.1,
        (List.range (ceilDiv t.cols t.block)).map fun b => match l[b * t.block]? with
          | some e => BitVec.ofNat 8 (e.scale.getD 0)
          | none => 0)]
    else [main]).flatten

/-- A source operand that a stash entry takes, else the offset of the field of A that is wrong (R178, R179, R589). -/
def sourceBroken (t : TRef) (r : Region) : Option Nat :=
  firstBroken [(!isOperand t.fmt, 79), (r.blk == 2 && t.rowOff % 32 != 0, 116)]

/-- A layer of the checkpoint table has its bit set, at or below l (R182), or at l alone (R178). -/
def ckptBit (l : List Byte) (k : Nat) : Bool := bit (leNat l) k

/-! ### STASH_PUT (R178, R182) -/

/-- The put is marked with no checkpoint at or below its layer: the job faults before anything is written (R182). -/
def noCkpt (x : Ctx) (h : Chain) (s : State) : Res Op :=
  let s := post 0x3C02 (src 1 x.die) x.job [(1, x.die), (1, x.job), (1, x.op.slot), (8, h.step), (2, x.op.layer)] s
  (.error ⟨8, 0, 0⟩, jobFault x.job 0x19 x.op.layer noSubject s)

/-- The record of a put, but for its entry and state (R178 steps 1 and 2). -/
def putRec (o : Op) (r : LRec) (t : TRef) (ckpt : Option Nat) : LRec :=
  { r with seed := o.seed, stream := o.stream, rnd := o.rnd, dxEn := o.dxEn, dx := o.dx, fmt := o.a.fmt, blk := o.a.blk,
           rows := t.rows, cols := t.cols, rowOff := t.rowOff, colOff := t.colOff, bytes_ := entryBytes t,
           ckpt := ckpt.isSome || r.ckpt, ckptAddr := ckpt.getD r.ckptAddr,
           ckptBytes := if ckpt.isSome then (ckptGeom o.a).2.2 else r.ckptBytes }

/-- The work of a STASH_PUT whose layer, source and checkpoint space are in order. -/
def putEntry (x : Ctx) (r : Region) (chain : Nat) (h : Chain) (rc : LRec) (ck : Bool) (run : Option Nat) (s : State) :
    Res Op :=
  let o := x.op
  let l := o.layer
  let ca := if ck then some (r.ckptBase + shareIx r o.slot * r.ckptShare + h.ckptUsed) else none
  let t := entryRef r (run.getD 0) o.a.cols o.a.rows o.a.colOff o.a.rowOff
  let eb := entryBytes t
  let rec_ := putRec o rc t ca
  let h := { h with lastPut := l, ckptUsed := h.ckptUsed + (if ck then (ckptGeom o.a).2.2 else 0) }
  orSpoil x.job ((match ca with | some a => [(a, (ckptGeom o.a).2.2)] | none => [])
      ++ (match run with | some a => [(a, eb)] | none => [])) <|
  thenRes (readAll x s) fun rows s =>
    let ckw := match ca with | some a => ckptStores o.a a rows | none => []
    match run with
    | some a =>
      let out := entryRows o.cv t o.a.fmt rows
      let rec_ := { rec_ with entry := a, state := recStashed }
      let h := { h with stashed := h.stashed + eb }
      thenRes (stashWrite x (ckw ++ entryStores x s t out ++ [(chain + 64 + 64 * l, rec_.bytes), (chain, h.bytes)]) s)
        fun _ s => (.ok (withOut o out []),
          count 0x5908 (x.die + 1) eb (allocRun x.die { job := x.job, addr := a, bytes := eb } s))
    | none =>
      let first := !h.overflow
      let rec_ := { rec_ with state := recMarked }
      let h := { h with marked := h.marked + eb, overflow := true, firstMarked := if first then l else h.firstMarked }
      thenRes (stashWrite x (ckw ++ [(chain + 64 + 64 * l, rec_.bytes), (chain, h.bytes)]) s) fun _ s =>
        let s := count 0x5909 (x.die + 1) eb s
        (.ok o, if first then
          post 0x3C01 (src 1 x.die) x.job [(1, x.die), (1, x.job), (1, o.slot), (8, h.step), (2, l)]
            (count 0x590B (x.die + 1) 1 s)
        else s)

/-- The work of a STASH_PUT (R178). -/
def putWork (x : Ctx) (s : State) : Res Op :=
  thenRes (vectorUnit x s) fun _ s =>
  thenRes (stashCtx x s) fun c s =>
  thenRes (slotIn x c.2.1 s) fun _ s =>
  thenRes (stashRead x c.2.2 64 s) fun hl s =>
    let r := c.2.1
    let h := chainOf hl
    let l := x.op.layer
    if !h.active then (.error (malformed 5), s)
    else if r.layers ≤ l ∨ (h.lastPut ≠ 0xFFFF ∧ l ≤ h.lastPut) then (.error (malformed 36), s)
    else match sourceBroken x.op.a r with
      | some d => (.error (malformed d), s)
      | none =>
        thenRes (stashRead x r.ckptTable (l / 8 + 1) s) fun tbl s =>
        thenRes (stashRead x (c.2.2 + 64 + 64 * l) 64 s) fun rl s =>
          let t := entryRef r 0 x.op.a.cols x.op.a.rows 0 0
          let run := if h.overflow then none
            else freeRun (entryBytes t) (r.poolBase + r.poolBytes) r.poolBase (jobRuns s x.die x.job)
          let ck := ckptBit tbl l
          if run.isNone ∧ !((List.range (l + 1)).any (ckptBit tbl)) then noCkpt x h s
          else if ck ∧ r.ckptShare < h.ckptUsed + (ckptGeom x.op.a).2.2 then (.error (malformed 36), s)
          else putEntry x r c.2.2 h (lrecOf rl) ck run s

/-- STASH_PUT (R178). -/
def execStashPut (die isn : Nat) (s : State) : Host.Outcome State Fault Refusal :=
  forUnit (Instr.wf (.stashPut die isn)) (runOp die isn 0x21 putWork s)

/-! ### REGROW_PUT (R183) -/

/-- The first field of A that differs from the record (R183, R589). -/
def sourceDiffers (t : TRef) (r : LRec) : Option Nat :=
  firstBroken [(t.fmt != r.fmt, 79), (t.blk != r.blk, 79), (t.rows != r.cols, 72), (t.cols != r.rows, 84),
    (t.rowOff != r.colOff, 116), (t.colOff != r.rowOff, 112)]

/-- The work of a REGROW_PUT (R183). DEDUCED: log entry 73. -/
def regrowWork (x : Ctx) (s : State) : Res Op :=
  thenRes (vectorUnit x s) fun _ s =>
  thenRes (stashCtx x s) fun c s =>
  thenRes (slotIn x c.2.1 s) fun _ s =>
  thenRes (stashRead x c.2.2 64 s) fun hl s =>
    let r := c.2.1
    let h := chainOf hl
    let l := x.op.layer
    if r.layers ≤ l then (.error (malformed 36), s)
    else
      thenRes (stashRead x (c.2.2 + 64 + 64 * l) 64 s) fun rl s =>
        let rc := lrecOf rl
        if rc.state = recStashed ∨ rc.state = recRegrown then (.ok x.op, s)
        else if rc.state ≠ recMarked then (.error (malformed 36), s)
        else match sourceDiffers x.op.a rc with
          | some d => (.error (malformed d), s)
          | none =>
            let a := r.regrowBase + shareIx r x.op.slot * r.regrowShare + h.regrowUsed
            let t := entryRef r a rc.rows rc.cols rc.rowOff rc.colOff
            if r.regrowShare < h.regrowUsed + entryBytes t then (.error (malformed 36), s)
            else
              let v : Cv := { rnd := rc.rnd, seed := rc.seed, stream := rc.stream,
                              given := if rc.dxEn then some rc.dx else none }
              orSpoil x.job [(a, rc.bytes_)] <| thenRes (readAll x s) fun rows s =>
                let out := entryRows v t x.op.a.fmt rows
                let rc := { rc with entry := a, state := recRegrown }
                let h := { h with regrowUsed := h.regrowUsed + rc.bytes_, regrown := h.regrown + rc.bytes_ }
                thenRes (stashWrite x (entryStores x s t out ++
                    [(c.2.2 + 64 + 64 * l, rc.bytes), (c.2.2, h.bytes)]) s) fun _ s =>
                  (.ok (withOut x.op out []), count 0x590A (x.die + 1) rc.bytes_ s)

/-- REGROW_PUT (R183). -/
def execRegrowPut (die isn : Nat) (s : State) : Host.Outcome State Fault Refusal :=
  forUnit (Instr.wf (.regrowPut die isn)) (runOp die isn 0x22 regrowWork s)

/-! ### STASH_FREE (R185) -/

/-- A record freed: one that is STASHED, REGROWN or MARKED becomes FREED. CKPT, CKPT_ADDR and CKPT_BYTES stay as they were, also
where the checkpoint record itself is released. DEDUCED: log entry 73. -/
def freeRec (r : LRec) : LRec :=
  if r.state = recStashed ∨ r.state = recRegrown ∨ r.state = recMarked then { r with state := recFreed } else r

/-- The chain and its records after a free of the layers that a test names: the bytes of both, and the pool entries
released (R183, R185). -/
def freeChain (all : Bool) (p : Nat → Bool) (h : Chain) (recs : List LRec) : List Byte × List Nat :=
  let new := recs.mapIdx fun i r => if p i then freeRec r else r
  let gone := ((recs.mapIdx fun i r => (i, r)).filter fun e => p e.1 && e.2.state == recStashed).map (·.2.entry)
  let h := if new.any (·.state == recRegrown) then h else { h with regrowUsed := 0 }
  let h := if all then { h with ckptUsed := 0, regrowUsed := 0, active := false } else h
  (h.bytes ++ new.flatMap LRec.bytes, gone)

/-- The work of a STASH_FREE (R185). -/
def freeWork (x : Ctx) (s : State) : Res Op :=
  thenRes (vectorUnit x s) fun _ s =>
  thenRes (stashCtx x s) fun c s =>
  thenRes (slotIn x c.2.1 s) fun _ s =>
    let n := c.2.1.layers
    let l := x.op.layer
    let all := l == 0xFFFFFFFF
    if !all ∧ n ≤ l then (.error (malformed 36), s)
    else
      thenRes (stashRead x c.2.2 (64 + 64 * n) s) fun b s =>
        let recs := (List.range n).map fun i => lrecOf (sliceOf b (64 + 64 * i) 64)
        let r := freeChain all (fun i => all || i == l) (chainOf b) recs
        thenRes (stashWrite x [(c.2.2, r.1)] s) fun _ s =>
          let s := freeRuns x.die x.job r.2 s
          let d := s.die x.die
          let keep : Nat × Nat × Nat → Bool := fun e => !(e.1 == x.job && e.2.1 == x.op.slot)
          (.ok x.op, if all then s.setDie x.die { d with chains := d.chains.filter keep } else s)

/-- STASH_FREE (R185). -/
def execStashFree (die isn : Nat) (s : State) : Host.Outcome State Fault Refusal :=
  forUnit (Instr.wf (.stashFree die isn)) (runOp die isn 0x23 freeWork s)

/-- Every chain of a job on a die is freed, and its runs in the pool are released (R391). -/
def freeChainsOn (j n : Nat) (s : State) : State :=
  let mine := (s.die n).chains.filter (·.1 == j)
  let s := mine.foldl (fun s c =>
    let k := (chainOf (peekMem s c.2.2 64)).layers
    if rangeOk s c.2.2 (64 + 64 * k) then
      let b := peekMem s c.2.2 (64 + 64 * k)
      let recs := (List.range k).map fun i => lrecOf (sliceOf b (64 + 64 * i) 64)
      writeMem c.2.2 (freeChain true (fun _ => true) (chainOf b) recs).1 s
    else s) s
  let d := s.die n
  notePool n j (s.setDie n { d with chains := d.chains.filter (·.1 != j), pool := d.pool.filter (·.job != j) })

/-- Every chain of a job is freed (R391). -/
def freeChains (j : Nat) (s : State) : State := (List.range 8).foldl (fun s n => freeChainsOn j n s) s

/-- A write of TNS_STASH_POOL_PEAK (R192). -/
def applyPoolPeak (n j v : Nat) (s : State) : Nat × State :=
  if v = 0 then (stOk, s.setNum (0x3C60 + n) (j + 1) (s.num (0x3C58 + n) (j + 1))) else (stValue, s)

end Sys2Proof.Machine
end

