-- ==== Sys2Proof/Machine/Domains.lean ====
section
/-!
DEFINITION. Machine/Domains.lean: the power domains as enables and ramps see them (R540 to R543): which domains a domain
needs, which domains the enable objects ask for, and the start of a ramp.
-/

namespace Sys2Proof.Machine

/-- The domain of the MC, dictionary, power manager and time counter (R540). -/
def domMc : Nat := 69

/-- The domains that domain d needs ON (R542). DEDUCED: log entry 53. -/
def domNeeds (d : Nat) : List Nat :=
  if 66 ≤ d ∧ d < 70 then []
  else if d = 78 ∨ d = 79 then [domMc]
  else [domMc, 78, 79] ++
    (if d < 48 then (if d % 6 = 4 then [] else [domUncore (d / 6)])
     else if d < 58 then (if (d - 48) % 5 = 4 then [] else [domHdUncore ((d - 48) / 5)])
     else if d < 66 then (if (d - 58) % 4 = 3 then [] else [domLanding ((d - 58) / 4)])
     else [domUncore (d - 70)])

/-- Quadrant q of die n is enabled (R123). -/
def quadEnabled (s : State) (n q : Nat) : Bool := bit (s.num 0x3C00 2) n && bit (s.num 0x3C01 (n + 1)) q

/-- The Canopy pair of die n is enabled (R123). -/
def canopyEnabled (s : State) (n : Nat) : Bool := bit (s.num 0x3C00 2) n && s.num 0x3C06 (n + 1) == 1

/-- The LPDDR5X group of die n is enabled (R554). -/
def groupEnabled (s : State) (n : Nat) : Bool := bit (s.num 0x2006 1) n

/-- Port group g of link die u holds an enabled port (R266). -/
def portGroupEnabled (s : State) (u g : Nat) : Bool := bits (s.num 0x3000 1) (12 * u + 4 * g + 3) (12 * u + 4 * g) != 0

/-- The enable objects ask for domain d (R123, R266, R423, R542, R554). A server-core uncore is asked for while a cluster
of its die is enabled. DEDUCED: log entry 53. -/
def domWanted (s : State) (d : Nat) : Bool :=
  if d < 48 then
    let n := d / 6
    if d % 6 < 4 then quadEnabled s n (d % 6)
    else if d % 6 = 5 then canopyEnabled s n
    else groupEnabled s n || canopyEnabled s n || (List.range 4).any (quadEnabled s n)
  else if d < 58 then
    let c := s.num 0x6001 ((d - 48) / 5 + 1)
    if (d - 48) % 5 = 4 then bits c 3 0 != 0 else bit c ((d - 48) % 5)
  else if d < 66 then
    let u := (d - 58) / 4
    if (d - 58) % 4 = 3 then bit (s.num 0x2006 2) u else portGroupEnabled s u ((d - 58) % 4)
  else if 70 ≤ d ∧ d < 78 then groupEnabled s (d - 70)
  else true

/-- The step of R543 in which domain d ramps; the IOD is up before the table begins. -/
def rampStep (d : Nat) : Nat :=
  if 66 ≤ d ∧ d < 70 then 0
  else if 78 ≤ d then 1
  else if d < 48 then (if d % 6 = 4 then 2 else 4)
  else if d < 58 then (if (d - 48) % 5 = 4 then 3 else 4)
  else if d < 66 then (if (d - 58) % 4 = 3 then 3 else 4)
  else 2

/-- Every domain that domain d needs is ON. -/
def needsMet (s : State) (d : Nat) : Bool := (domNeeds d).all s.on

/-- An enable of domain d keeps to R542: each domain it needs is asked for, and has not failed.
DEDUCED: log entry 53. -/
def mayEnable (s : State) (d : Nat) : Bool := (domNeeds d).all fun e => domWanted s e && s.domain e != 4

/-- Domain d has yet to come up: it ramps, or it is OFF, asked for, and nothing that it needs has failed. -/
def rampOpen (s : State) (d : Nat) : Bool :=
  s.domain d == 1 || (s.domain d == 0 && domWanted s d && (domNeeds d).all fun e => s.domain e != 4)

/-- No more than eight domains ramp together (R543). -/
def rampRoom (s : State) : Bool := decide (((List.range 80).filter fun d => s.domain d == 1).length < 8)

/-- The ramp of a domain starts: it is OFF and asked for, what it needs is ON, and there is room beside the domains that
ramp (R542, R543). DEDUCED: log entry 53. -/
def rampDomain (d : Nat) (s : State) : State :=
  if s.domain d = 0 ∧ domWanted s d ∧ needsMet s d ∧ rampRoom s then s.setDomain d 1 else s

/-- A write of an enable object starts what can ramp now; the rest waits for DOMAIN_RAMP. -/
def rampAll (l : List Nat) (s : State) : State := l.foldl (fun s d => rampDomain d s) s

/-- Every domain of an earlier step of R543 is up, or cannot come up. -/
def stepReached (s : State) (d : Nat) : Bool := (List.range 80).all fun e => decide (rampStep d ≤ rampStep e) || !rampOpen s e

/-- One step of the power manager at power-up: the domains named start to ramp, each in its step (R543). -/
def rampStepOf (l : List Nat) (s : State) : State :=
  if s.pwr.opened then
    (l.filter (· < 80)).foldl (fun s d => if stepReached s d then rampDomain d s else s) s
  else s

/-- DOMAIN_RAMP (R543). -/
def execDomainRamp (domains : List Nat) (s : State) : Host.Outcome State Fault Refusal :=
  forUnit (Instr.wf (.domainRamp domains)) (rampStepOf domains s)

end Sys2Proof.Machine
end

