-- ==== Sys2Proof/Machine/Fabric.lean ====
section
/-!
DEFINITION. Machine/Fabric.lean: the ports of the Margeram links: training and identity (R290 to R292, R530), the link layer
with its credits, replays and NAKs (R267 to R272), and what follows when a port goes DOWN (R293).
-/

namespace Sys2Proof.Machine

/-! ### Ports -/

/-- FAB_PORT_STATE of a port changes. -/
def setPortState (p v : Nat) (s : State) : State := s.setNum 0x3001 (p + 1) v

/-- The port is enabled and its group has power (R266). -/
def portPowered (s : State) (p : Nat) : Bool := bit (s.num 0x3000 1) p && s.on (domOfPort p)

/-- Credits for empty receive buffers of 64, 64, 256 and 16 KiB, in units of 64 bytes (R268). DEDUCED: log entry 75. -/
def fullCredits : List Nat := [1024, 1024, 4096, 256]

/-- Bytes of a link unit that carries a frame (R267). -/
def unitBytes (f : Frame) : Nat := 12 + f.bytes

/-- Training of a powered port begins at step 2 of R290. Frames it received earlier and has not delivered stay, and so do frames that
have been queued to be sent since it went DOWN (R293). DEDUCED: log entries 75, 76. -/
def startTraining (p : Nat) (s : State) : State :=
  if portPowered s p then
    setPortState p 2 (s.setPort p { Port.init with rx := (s.port p).rx, tx := (s.port p).tx })
  else s

/-! ### The transmitter (R267 to R271) -/

/-- A unit that carries a frame goes out. -/
def emitUnit (p : Nat) (u : HopUnit) (s : State) : State :=
  emitLink p (prefixOf (s.port p) u.seq u.vl false 0 0 true) u.vl (some u.frame) s

/-- The transmitter may send a frame on a lane: credits for it, and room in the replay buffer (R268, R271). -/
def mayTransmit (x : Port) (vl : Nat) : Bool :=
  match lget [] x.tx vl with
  | [] => false
  | f :: _ => decide (frameUnits f ≤ lget 0 x.credits vl) && decide (x.unacked.length < 32768)
      && decide ((x.unacked.map fun u => unitBytes u.frame).sum + unitBytes f ≤ 262144)

/-- The lane that sends next: VL3, then VL1, then VL0 and VL2 in turn by bytes sent (R269). DEDUCED: log entry 82. -/
def nextLane (x : Port) : Option Nat :=
  if mayTransmit x 3 then some 3
  else if mayTransmit x 1 then some 1
  else if mayTransmit x 0 ∧ (x.sent0 ≤ x.sent2 ∨ ¬ mayTransmit x 2) then some 0
  else if mayTransmit x 2 then some 2
  else none

/-- One frame leaves a lane of the send queues and enters the replay buffer (R271). -/
def transmit (p vl : Nat) (s : State) : State :=
  let x := s.port p
  match lget [] x.tx vl with
  | [] => s
  | f :: r =>
    let u : HopUnit := { seq := x.txNext % 65536, vl := vl, frame := f, resends := 0 }
    let y := { x with tx := lset x.tx vl r, txNext := x.txNext + 1, unacked := x.unacked ++ [u],
                      credits := lset x.credits vl (lget 0 x.credits vl - frameUnits f),
                      sent0 := x.sent0 + (if vl = 0 then f.bytes else 0),
                      sent2 := x.sent2 + (if vl = 2 then f.bytes else 0) }
    emitUnit p u (count 0x5863 (p + 1) f.bytes (s.setPort p y))

/-- Frames leave the send queues as far as credits and the replay buffer allow. -/
def pumpSteps (p : Nat) : Nat → State → State
  | 0, s => s
  | k + 1, s =>
    match nextLane (s.port p) with
    | some vl => pumpSteps p k (transmit p vl s)
    | none => s

/-- A port sends what it can: every frame when UP, its IDENT frame in step 5 of training (R290, R292).
DEDUCED: log entry 82. -/
def pump (p : Nat) (s : State) : State :=
  if portState s p = 4 then pumpSteps p (s.port p).tx.flatten.length s
  else if portState s p = 3 ∧ ((lget [] (s.port p).tx 3).head?.any fun f => f.type == 8) ∧ mayTransmit (s.port p) 3 then transmit p 3 s
  else s

/-- A frame joins the send queue of its lane. DEDUCED: log entry 76. -/
def enqueue (p : Nat) (f : Frame) (s : State) : State :=
  let x := s.port p
  let vl := vlOf f.type
  pump p (s.setPort p { x with tx := lset x.tx vl (lget [] x.tx vl ++ [f]) })

/-! ### Send descriptors that have been sent (R289) -/

/-- Every frame that has been handed to the link dies and that no first hop has accepted. -/
def heldFrames (s : State) : List Frame :=
  s.fab.localq ++ s.fab.ports.flatMap fun x => x.2.tx.flatten ++ x.2.unacked.map (·.frame)

/-- The first entry of a frame that is not counted yet is marked. -/
def markSent (f : Frame) : List (Frame × Bool) → List (Frame × Bool)
  | [] => []
  | e :: r => if e.1 = f ∧ !e.2 then (f, true) :: r else e :: markSent f r

/-- A first hop has accepted a frame of this package, or this package has taken it: its descriptor counts as sent (R289).
DEDUCED: log entry 81. -/
def noteSent (f : Frame) (s : State) : State :=
  match jobOfId s f.jobId with
  | some j => s.setJob j { s.job j with sendWait := markSent f (s.job j).sendWait }
  | none => s

/-- CONS of a job's send ring advances past the descriptors that count as sent (R289); the ring stops and the job faults when
CONS cannot be written (R588). DEDUCED: log entry 81. -/
def settleSend (j : Nat) (s : State) : State :=
  let x := s.job j
  let k := (x.sendWait.takeWhile (·.2)).length
  if k = 0 then s
  else
    let v := add32 x.sendCons k
    let s := s.setJob j { x with sendCons := v, sendWait := x.sendWait.drop k }
    let a := s.num 0x3024 (j + 1)
    match putStruct j a (leBytes 4 v) s with
    | (.ok, s) => s
    | (e, s) => accessFault j e a (s.setJob j { s.job j with sendStopped := true })

/-- CONS of every send ring. DEDUCED: log entry 82. -/
def settleSends (s : State) : State := (List.range 16).foldl (fun s j => settleSend j s) s

/-! ### Port failure (R293) -/

/-- The route table of job j names port p (R293). -/
def namesPort (s : State) (j p : Nat) : Bool := (peekMem s (s.num 0x3020 (j + 1)) 16384).any fun b => b.toNat == p

/-- A port goes DOWN, with its cause: 0 retry limit, 1 lane failure, 2 training timeout, 3 disable (R293, R297).
DEDUCED: log entry 76. -/
def portDown (p cause : Nat) (s : State) : State :=
  let x := s.port p
  let fail : Remote → Remote := fun r =>
    if r.port = some p ∧ r.answer = none then { r with answer := some (false, [], 0) } else r
  let s := s.setPort p { x with unacked := [], tx := [[], [], [], []], ident := none, cmisOk := false, trained := false }
  let s := { s with fab := { s.fab with remotes := s.fab.remotes.map fail } }
  let s := post 0x3002 (src 4 p) 0x1F [(1, p), (1, cause)] (setPortState p 6 s)
  faultJobs (fun s j => namesPort s j p) 0x0F p s

/-- A port that trains, runs or is MISWIRED goes DOWN; one that is not powered, or is DOWN already, stays so. -/
def takeDown (p cause : Nat) (s : State) : State :=
  if 1 ≤ portState s p ∧ portState s p ≤ 5 then portDown p cause s else s

/-- A disabled port (R295). -/
def disablePort (p : Nat) (s : State) : State := setPortState p 0 (takeDown p 3 s)

/-! ### Acknowledgements, NAKs and replays (R270, R271) -/

/-- A unit that ACK_SEQ acknowledges: its number is at or behind it (R267, R270). -/
def ackedBy (ack : Nat) (u : HopUnit) : Bool := decide ((ack + 65536 - u.seq) % 65536 < 32768)

/-- Units acknowledged leave the replay buffer: the first hop has accepted them. -/
def takeAck (p ack : Nat) (s : State) : State :=
  let x := s.port p
  let s := s.setPort p { x with unacked := x.unacked.filter fun u => !ackedBy ack u }
  (x.unacked.filter (ackedBy ack)).foldl (fun s u => noteSent u.frame s) s

/-- Every unacknowledged unit is sent again, in order; a unit that has been sent again FAB_RETRY_LIMIT times takes the
port DOWN instead (R271). -/
def replay (p : Nat) (s : State) : State :=
  let x := s.port p
  if x.unacked.any fun u => decide (s.num 0x3012 1 ≤ u.resends) then portDown p 0 s
  else
    let l := x.unacked.map fun u => { u with resends := u.resends + 1 }
    let s := s.setPort p { x with unacked := l }
    let s := if l = [] then s else count 0x5862 (p + 1) l.length s
    l.foldl (fun s u => emitUnit p u s) s

/-- A NAK: what it acknowledges leaves the replay buffer, and the rest is sent again (R271). DEDUCED: log entry 74. -/
def takeNak (p ack : Nat) (s : State) : State := settleSends (replay p (takeAck p ack s))

/-- A NAK reaches a port whose link layer runs. -/
def doNak (p ack : Nat) (s : State) : State :=
  if portState s p = 3 ∨ portState s p = 4 then pump p (takeNak p (ack % 65536) s) else s

/-- NAK (R271). -/
def execNak (port ackSeq : Nat) (s : State) : Host.Outcome State Fault Refusal :=
  forUnit (Instr.wf (.nak port ackSeq)) (doNak port ackSeq s)

/-- No acknowledgement in time. DEDUCED: log entry 76. -/
def doReplayTimeout (p : Nat) (s : State) : State :=
  if (portState s p = 3 ∨ portState s p = 4) ∧ (s.port p).unacked ≠ [] then replay p s else s

/-- REPLAY_TIMEOUT (R271). -/
def execReplayTimeout (port : Nat) (s : State) : Host.Outcome State Fault Refusal :=
  forUnit (Instr.wf (.replayTimeout port)) (doReplayTimeout port s)

/-! ### The receiver (R270) -/

/-- LEN limits of a TYPE under a STATUS, and whether it is a TYPE at all (R274). DEDUCED: log entry 67. -/
def lenOk (type len status : Nat) : Bool :=
  if type = 1 ∨ type = 6 ∨ type = 7 then decide (len ≤ 4224)
  else if type = 2 ∨ type = 5 then len == 0
  else if type = 3 then (if status = 0 then decide (64 ≤ len) && decide (len ≤ 4096) && len % 64 == 0 else len == 0)
  else if type = 4 then decide (64 ≤ len) && decide (len ≤ 4096) && len % 64 == 0
  else if type = 8 then len == 128
  else if type = 9 then len == 72
  else false

/-- A frame keeps to R273 and R274: VER, TYPE, LEN, the reserved bits, and JOB_ID 0 for IDENT alone. What becomes of one with another
VER, or with JOB_ID 0 in another type, R274 does not say: it goes as one of another TYPE does. DEDUCED: log entry 135. -/
def frameOk (f : Frame) : Bool :=
  f.ver == 1 && lenOk f.type f.len f.status && bits f.w0 19 13 == 0 && bits f.w1 3 0 == 0 && bits f.w3 15 0 == 0
    && (f.type == 8) == (f.jobId == 0)

/-- The reserved bytes of an IDENT payload are 0 (R9, R291). -/
def identOk (l : List Byte) : Bool := zeroRange l 10 6 && zeroRange l 80 48

/-- An IDENT frame is taken as it arrives; one that breaks R274, R291 or its end-to-end CRC is dropped (R274, R280, R291).
DEDUCED: log entry 77. -/
def takeIdent (p : Nat) (f : Frame) (s : State) : State :=
  if !(frameOk f && identOk f.payload) then count 0x5866 (p + 1) 1 s
  else if f.crcOf ≠ f.crc then
    post 0x3008 (src 4 p) 0x1F [(2, f.jobId), (2, f.src), (1, p)] (count 0x5867 (p + 1) 1 s)
  else s.setPort p { s.port p with ident := some f }

/-- Credits that the receive buffer of a lane has left (R268). DEDUCED: log entry 75. -/
def rxRoom (x : Port) (vl : Nat) : Nat := lget 0 fullCredits vl - ((lget [] x.rx vl).map frameUnits).sum

/-- A unit that cannot be used: it is discarded, and a NAK asks for it again (R270). DEDUCED: log entry 74. -/
def badUnit (p : Nat) (s : State) : State :=
  let x := s.port p
  if x.rxDiscard then s else sendBare p true 0 0 (s.setPort p { x with rxDiscard := true })

/-- A frame that is accepted enters the receive buffer of its lane, and the unit is acknowledged. An IDENT frame leaves the
buffer at once, and its credits go back (R268, R291). -/
def acceptFrame (p vl : Nat) (f : Frame) (s : State) : State :=
  let x := s.port p
  let x := { x with rxNext := x.rxNext + 1, rxDiscard := false }
  let s := count 0x5864 (p + 1) f.bytes s
  if f.type = 8 then sendBare p false vl (frameUnits f) (takeIdent p f (s.setPort p x))
  else sendBare p false 0 0 (s.setPort p { x with rx := lset x.rx vl (lget [] x.rx vl ++ [f]) })

/-- The frame of a unit whose CRC is good (R270). A sender that keeps to R268 always finds room; the frame of one that does
not is not accepted. DEDUCED: log entry 75. -/
def takeFrame (p seq vl : Nat) (f : Frame) (s : State) : State :=
  let x := s.port p
  match seqCmp 16 seq x.rxNext with
  | .expected => if f.type ≠ 8 ∧ rxRoom x vl < frameUnits f then badUnit p s else acceptFrame p vl f s
  | .later => badUnit p s
  | .earlier => sendBare p false 0 0 s

/-- The acknowledgement, the NAK and the credits in a good prefix. DEDUCED: log entry 74. -/
def takePrefix (p w : Nat) (s : State) : State :=
  let x := s.port p
  let v := bits w 27 26
  let s := s.setPort p { x with credits := lset x.credits v (lget 0 x.credits v + bits w 25 16) }
  if bit w 30 then takeNak p (if bit w 31 then bits w 47 32 else 65535) s
  else if bit w 31 then settleSends (takeAck p (bits w 47 32) s)
  else s

/-- A unit arrived whole: the FEC passed it and its CRC is good; HAS_FRAME and the frame agree.
DEDUCED: log entry 74. -/
def unitGood (u : LinkUnit) : Bool :=
  !u.fecBad && crc32 (unitBody u.word u.frame) == u.crc && bit u.word 0 == u.frame.isSome
    && match u.frame with
      | some f => f.payload.length == f.len
      | none => true

/-- A link unit reaches a port whose link layer runs. DESIGN CHOICE: log entry 111. -/
def receiveUnit (p : Nat) (u : LinkUnit) (s : State) : State :=
  if portState s p = 3 ∨ portState s p = 4 then
    let s := if u.fecFixed = 0 then s else count 0x5860 (p + 1) u.fecFixed s
    let s := if u.fecBad then count 0x5861 (p + 1) 1 s else s
    if unitGood u then
      let s := match u.frame with
        | some f => takeFrame p (bits u.word 63 48) (bits u.word 29 28) f s
        | none => s
      pump p (takePrefix p u.word s)
    else badUnit p s
  else s

/-- LINK_UNIT_RECEIVE (R270). -/
def execLinkUnitReceive (port : Nat) (unit : LinkUnit) (s : State) : Host.Outcome State Fault Refusal :=
  forUnit (Instr.wf (.linkUnitReceive port unit)) (receiveUnit port unit s)

/-! ### Training (R290, R530) -/

/-- The board record names the port as one of its backplane (R530). -/
def isBackplane (s : State) (p : Nat) : Bool := bit (s.num 0x7001 4) p

/-- The mirror of a module: its state and its 384 bytes (R530, R533). -/
def setMirror (p state : Nat) (map : List Byte) (s : State) : State :=
  (s.setNum 0x7100 (p + 1) state).setOct 0x7101 (p + 1) ((padTo map 384).take 384)

/-- The medium of a port is known, and its lanes may train. -/
def mediumKnown (p medium : Nat) (s : State) : State :=
  (s.setNum 0x3002 (p + 1) medium).setPort p { s.port p with cmisOk := true }

/-- A module that is not of flat memory has its LowPwrRequestSW cleared. -/
def clearLow (flat : Bool) (p : Nat) (s : State) : State := if flat then s else s.emit (.lowPowerOff p)

/-- A read of a module's memory that fails, for want of an answer or of the I3C bus: the port is left NO_MODULE with its mirror at zeros. -/
def cmisFails (p : Nat) (s : State) : State :=
  post 0x7002 (src 0 0) 0x1F [(1, p)] (setPortState p 1 ((setMirror p 0 [] s).setNum 0x3002 (p + 1) 0))

/-- Step 2 of R290: the MC reads the CMIS memory of a port that waits for it (R530). Of a flat memory it reads 256 bytes and waits for
nothing; any other module has its LowPwrRequestSW cleared, and reaches ModuleReady or not. DEDUCED: log entry 54. -/
def readCmis (p : Nat) (r : CmisResult) (s : State) : State :=
  if portState s p = 2 ∧ !(s.port p).cmisOk then
    if isBackplane s p then mediumKnown p 2 (setMirror p 3 [] s)
    else match r with
      | .answered map media ready =>
        let flat := bit (lget 0 map 2).toNat 7
        if !s.on domNet then cmisFails p s
        else if ready || flat then
          mediumKnown p (if media = 3 then 1 else 3) (setMirror p 1 (if flat then map.take 256 else map) (clearLow flat p s))
        else setPortState p 1 ((setMirror p 2 map (clearLow flat p s)).setNum 0x3002 (p + 1) 0)
      | .noAnswer => if timeRuns s then cmisFails p s else s
  else s

/-- CMIS_READ (R530). -/
def execCmisRead (port : Nat) (result : CmisResult) (s : State) : Host.Outcome State Fault Refusal :=
  forUnit (Instr.wf (.cmisRead port result)) (readCmis port result s)

/-- The IDENT payload that this package sends on a port (R291). -/
def identPayload (s : State) (p : Nat) : List Byte :=
  leBytes 8 (s.num 0x3010 1) ++ leBytes 1 p ++ leBytes 1 0xB0 ++ List.replicate 6 0 ++ (padTo (s.oct 0x1000 3) 16).take 16
    ++ (padTo (s.oct 0x1001 2) 48).take 48 ++ List.replicate 48 0

/-- Steps 3 to 5 of R290: the link layer starts with HOP_SEQ 0, and the IDENT frame is sent before every frame that waits.
DEDUCED: log entry 75. -/
def lanesTrained (p : Nat) (s : State) : State :=
  if portState s p = 2 ∧ (s.port p).cmisOk then
    let f := mkFrame s { type := 8, jobId := 0, epoch := 0, src := 0, dst := 0, payload := identPayload s p }
    let l := (s.port p).tx
    let x := { Port.init with rx := (s.port p).rx, tx := lset l 3 (f :: lget [] l 3), credits := fullCredits, cmisOk := true, trained := true }
    pump p (setPortState p 3 (s.setPort p x))
  else s

/-- PORT_LANE_TRAINING_DONE (R290). -/
def execPortLaneTrainingDone (port : Nat) (s : State) : Host.Outcome State Fault Refusal :=
  forUnit (Instr.wf (.portLaneTrainingDone port)) (lanesTrained port s)

/-- Steps 2 to 5 of R290 have not finished in time: the port still trains, or awaits the other end's IDENT. -/
def trainTimeout (p : Nat) (s : State) : State :=
  if portState s p = 2 ∨ portState s p = 3 ∧ (s.port p).ident = none then portDown p 2 s else s

/-- PORT_TRAIN_TIMEOUT (R290), a duration of R11 for which no rule names a local clock. DEDUCED: log entry 54. -/
def execPortTrainTimeout (port : Nat) (s : State) : Host.Outcome State Fault Refusal :=
  forUnit (Instr.wf (.portTrainTimeout port)) (if timeRuns s then trainTimeout port s else s)

/-- A port that is DOWN or NO_MODULE starts again from step 2. -/
def retryPort (p : Nat) (s : State) : State :=
  if portState s p = 6 ∨ portState s p = 1 then startTraining p s else s

/-- PORT_RETRY_TIMER (R290), a duration of R11. DEDUCED: log entry 54. -/
def execPortRetryTimer (port : Nat) (s : State) : Host.Outcome State Fault Refusal :=
  forUnit (Instr.wf (.portRetryTimer port)) (if timeRuns s then retryPort port s else s)

/-- A lane fails after training. -/
def laneFails (p : Nat) (s : State) : State := if 3 ≤ portState s p ∧ portState s p ≤ 5 then portDown p 1 s else s

/-- LANE_FAILURE (R265, R293). -/
def execLaneFailure (port : Nat) (s : State) : Host.Outcome State Fault Refusal :=
  forUnit (Instr.wf (.laneFailure port)) (laneFails port s)

/-- The received identity is not the one expected (R292). -/
def miswired (s : State) (p coord port : Nat) : Bool :=
  let e := s.num 0x3003 (p + 1)
  let q := s.num 0x3004 (p + 1)
  (e != 0 && e != coord) || (q != 0xFF && q != port)

/-- Step 6 of R290: the received identity is reported and compared. DEDUCED: log entry 77. DESIGN CHOICE: log entry 141. -/
def compareIdent (p : Nat) (s : State) : State :=
  match portState s p, (s.port p).ident with
  | 3, some f =>
    let l := f.payload
    let coord := fieldOf l 0 8
    let port := fieldOf l 8 1
    let s := (s.setNum 0x3005 (p + 1) coord).setNum 0x3006 (p + 1) port
    let s := (s.setOct 0x3007 (p + 1) (sliceOf l 16 16)).setOct 0x3008 (p + 1) (sliceOf l 32 48)
    let s := s.setPort p { s.port p with ident := none }
    if miswired s p coord port then
      post 0x3003 (src 4 p) 0x1F [(1, p), (8, s.num 0x3003 (p + 1)), (8, coord), (1, s.num 0x3004 (p + 1)), (1, port)]
        (setPortState p 5 s)
    else pump p (post 0x3001 (src 4 p) 0x1F [(1, p), (8, coord), (1, port)] (setPortState p 4 s))
  | _, _ => s

/-- IDENT_EXCHANGE (R292). -/
def execIdentExchange (port : Nat) (s : State) : Host.Outcome State Fault Refusal :=
  forUnit (Instr.wf (.identExchange port)) (compareIdent port s)

/-! ### Writes of the port objects (R292, R295) -/

/-- The ports of the package. -/
def allPorts : List Nat := List.range 24

/-- A write of FAB_PORT_ENABLE. -/
def applyPortEnable (v : Nat) (s : State) : Nat × State :=
  let old := s.num 0x3000 1
  let rising := allPorts.filter fun p => bit v p && !bit old p
  let falling := allPorts.filter fun p => !bit v p && bit old p
  if 2 ^ 24 ≤ v then (stValue, s)
  else if !(rising.all fun p => mayEnable s (domOfPort p)) then (stValue, s)
  else
    let s := s.setNum 0x3000 1 v
    let s := falling.foldl (fun s p => disablePort p s) s
    let s := rising.foldl (fun s p => rampDomain (domOfPort p) (startTraining p s)) s
    (stOk, s)

/-- A write of FAB_PORT_EXPECT or FAB_PORT_EXPECT_PORT: a MISWIRED port trains again. DEDUCED: log entry 77. -/
def applyPortExpect (p : Nat) (portNumber : Bool) (v : Nat) (s : State) : Nat × State :=
  if portNumber ∧ ¬ (v < 24 ∨ v = 0xFF) then (stValue, s)
  else
    let s := if portNumber then s.setNum 0x3004 (p + 1) v else s.setNum 0x3003 (p + 1) v
    (stOk, if portState s p = 5 then startTraining p s else s)

/-- A port group has power: its enabled ports start to train (R266, R290). -/
def groupUp (u g : Nat) (s : State) : State :=
  (List.range 4).foldl (fun s k =>
    let p := 12 * u + 4 * g + k
    if portState s p = 0 then startTraining p s else s) s

end Sys2Proof.Machine
end

