-- ==== Sys2Proof/Machine/Collectives.lean ====
section
/-!
DEFINITION. Machine/Collectives.lean: the topology record and its checks (R298 to R301), the collective queue (R303 to R308),
REDUCE (R309 to R315), BROADCAST and the inbound heartwood path (R162, R163, R317, R318), and Prism (R319 to R323).
-/

namespace Sys2Proof.Machine

/-! ### Staging SRAM of a landing unit (R305, R357) -/

/-- Bytes of the staging SRAM of a landing unit, 64 MiB. -/
def stageBytes : Nat := 0x4000000

/-- n bytes of the staging SRAM of LUu from an offset. -/
def stageRead (s : State) (u off n : Nat) : List Byte := (List.range n).map fun i => tget 0 (off + i) (lget [] s.staging u)

/-- The state with bytes stored in the staging SRAM of LUu. -/
def stagePut (u off : Nat) (l : List Byte) (s : State) : State :=
  { s with staging := lset s.staging u (putMem (lget [] s.staging u) off l) }

/-! ### Topology (R298 to R301) -/

/-- A path record from its 64 bytes (R299). -/
def pathRecOf (l : List Byte) : PathRec :=
  let w0 := fieldOf l 0 8
  let w1 := fieldOf l 8 8
  { kind := bits w0 63 62, arity := bits w0 61 57, lu := bits w0 56 56, treeRoot := bits w0 55 42, sendCh := bits w1 63 56,
    recvCh := bits w1 55 48, upRecvBase := bits w1 47 40, downSendBase := bits w1 39 32 }

/-- A channel that a path uses: byte offset of its field in the path record, channel, peer rank, and direction. -/
structure PathLink where
  off : Nat
  ch : Nat
  peer : Nat
  send : Bool
  deriving DecidableEq, Repr

/-- Position of a rank in a tree (R300). -/
def treePos (n root rank : Nat) : Nat := (rank + n - root % n) % n

/-- Children of a position, as positions (R300). -/
def treeKids (n arity pos : Nat) : List Nat := (upTo (pos * arity + 1) arity).filter (decide <| · < n)

/-- The channels that a path record names at a rank (R299, R300). -/
def pathLinks (n own : Nat) (r : PathRec) : List PathLink :=
  if r.kind = 1 then
    if n = 1 then [] else [⟨15, r.sendCh, (own + 1) % n, true⟩, ⟨14, r.recvCh, (own + n - 1) % n, false⟩]
  else
    let pos := treePos n r.treeRoot own
    let rank : Nat → Nat := fun q => (q + r.treeRoot) % n
    (if pos = 0 then [] else
      [⟨15, r.sendCh, rank ((pos - 1) / r.arity), true⟩, ⟨14, r.recvCh, rank ((pos - 1) / r.arity), false⟩])
      ++ ((treeKids n r.arity pos).mapIdx fun i q =>
          [(⟨13, r.upRecvBase + i, rank q, false⟩ : PathLink), ⟨12, r.downSendBase + i, rank q, true⟩]).flatten

/-- A channel field holds a channel number, or 0xFF for none (R299). -/
def chanField (c : Nat) : Bool := decide (c < 240) || c == 0xFF

/-- The checks of a path record by itself: whether each fails, with its byte offset (R299). DEDUCED: log entry 85. -/
def pathChecks (n own : Nat) (l : List Byte) : List (Bool × Nat) :=
  let r := pathRecOf l
  let w0 := fieldOf l 0 8
  let w1 := fieldOf l 8 8
  let noCh := r.kind == 1 && n == 1 || r.kind == 2 && treePos n r.treeRoot own == 0
  [(bits w0 41 0 != 0, 0), (bits w1 31 0 != 0, 8), (r.kind == 3, 7)]
    ++ ((List.range 6).map fun k => (fieldOf l (16 + 8 * k) 8 != 0, 16 + 8 * k))
    ++ (if r.kind = 1 then
          [(r.arity != 0, 7), (r.treeRoot != 0, 5), (r.upRecvBase != 0xFF, 13), (r.downSendBase != 0xFF, 12)]
        else if r.kind = 2 then [(!(decide (1 ≤ r.arity) && decide (r.arity ≤ 16)), 7), (decide (n ≤ r.treeRoot), 5)]
        else [])
    ++ (if r.kind = 1 ∨ r.kind = 2 then
          [(if noCh then r.sendCh != 0xFF else !chanField r.sendCh, 15),
           (if noCh then r.recvCh != 0xFF else !chanField r.recvCh, 14),
           (!chanField r.upRecvBase, 13), (!chanField r.downSendBase, 12)]
        else [])

/-- The lowest offset of a failing check. -/
def lowestBad (l : List (Bool × Nat)) : Option Nat :=
  l.foldl (fun m e => if e.1 then (match m with | some k => some (min k e.2) | none => some e.2) else m) none

/-- A channel is as its path needs it: present, with the right DIR, peer and, when receiving, SINK (R301). -/
def linkOk (s : State) (j lu : Nat) (members : List Nat) (k : PathLink) : Bool :=
  let c := chanOf s j k.ch
  c.dir == (if k.send then 1 else 2) && c.peer == lget 0 members k.peer && (k.send || c.sink == 1 + lu)

/-- The channels of one path against the channel table and the channels that lower paths named. -/
def linkBad (s : State) (j lu : Nat) (members : List Nat) : List Nat → List PathLink → Option Nat
  | _, [] => none
  | named, k :: r =>
    if named.contains k.ch || !linkOk s j lu members k then some k.off else linkBad s j lu members (k.ch :: named) r

/-- The first wrong field of the path records, ascending, as an offset in the topology record. -/
def pathsBad (s : State) (j n own : Nat) (members : List Nat) (l : List Byte) : Nat → List Nat → List Nat → Option Nat
  | _, _, [] => none
  | f, named, p :: r =>
    let rec64 := sliceOf l (64 + 64 * p) 64
    let x := pathRecOf rec64
    match lowestBad (pathChecks n own rec64) with
    | some o => some (64 + 64 * p + o)
    | none =>
      if x.kind = 0 then pathsBad s j n own members l f named r
      else
        let k := pathLinks n own x
        match linkBad s j x.lu members named k with
        | some o => some (64 + 64 * p + o)
        | none => pathsBad s j n own members l f (named ++ k.map (·.ch)) r

/-- The checks of the topology header (R298). -/
def headerBad (l : List Byte) : Option Nat :=
  let w0 := fieldOf l 0 8
  let n := bits w0 63 48
  lowestBad ([(bits w0 33 0 != 0, 0), (!(decide (1 ≤ n) && decide (n ≤ 16384)), 6), (decide (n ≤ bits w0 47 34), 4)]
    ++ (List.range 7).map fun k => (fieldOf l (8 + 8 * k) 8 != 0, 8 + 8 * k))

/-- The first wrong member-list entry: a reserved bit, a repeated device index, or the own rank naming another device
(R298, R301). -/
def membersBad (own device : Nat) (l : List Nat) : Option Nat :=
  ((List.range l.length).find? fun i =>
    let e := lget 0 l i
    decide (2 ^ 14 ≤ e) || (l.take i).contains e || (i == own && e != device)).map (1088 + 2 * ·)

/-- The member list of a topology record of n members. -/
def memberList (l : List Byte) (n : Nat) : List Nat := (List.range n).map fun i => fieldOf l (1088 + 2 * i) 2

/-- A topology record: the record, or the offset of its first wrong field (R301). -/
def topoOf (s : State) (j device : Nat) (l : List Byte) : Except Nat Topo :=
  let w0 := fieldOf l 0 8
  let n := bits w0 63 48
  let own := bits w0 47 34
  match headerBad l with
  | some o => .error o
  | none =>
    let m := memberList l n
    match membersBad own device m with
    | some o => .error o
    | none =>
      match pathsBad s j n own m l 0 [] (List.range 16) with
      | some o => .error o
      | none => .ok { n := n, ownRank := own, members := m,
                      paths := (List.range 16).map fun p => pathRecOf (sliceOf l (64 + 64 * p) 64) }

/-- An unused path record. -/
def PathRec.unused : PathRec :=
  { kind := 0, arity := 0, lu := 0, treeRoot := 0, sendCh := 0, recvCh := 0, upRecvBase := 0, downSendBase := 0 }

/-- The topology of a job that has no topology record: no members and no paths (R325). -/
def Topo.empty : Topo := { n := 0, ownRank := 0, paths := [], members := [] }

/-- The topology of job j. -/
def State.topo (s : State) (j : Nat) : Topo := (s.job j).topo.getD Topo.empty

/-- Path p of a topology. -/
def Topo.path (t : Topo) (p : Nat) : PathRec := lget PathRec.unused t.paths p

/-! ### Collective descriptors (R305) -/

def Coll.w (c : Coll) (k : Nat) : Nat := lget 0 c.words k
def Coll.kind (c : Coll) : Nat := bits (c.w 0) 63 60
def Coll.path (c : Coll) : Nat := bits (c.w 0) 59 56
def Coll.root (c : Coll) : Nat := bits (c.w 0) 55 42
def Coll.dstStage (c : Coll) : Bool := bit (c.w 0) 41
def Coll.dstHw (c : Coll) : Bool := bit (c.w 0) 40
def Coll.agreedX (c : Coll) : Nat := bits (c.w 0) 39 33
def Coll.layer (c : Coll) : Nat := bits (c.w 0) 15 0
def Coll.src (c : Coll) : Nat := c.w 1
def Coll.dst (c : Coll) : Nat := c.w 2
def Coll.count (c : Coll) : Nat := bits (c.w 3) 63 32
def Coll.step (c : Coll) : Nat := bits (c.w 3) 31 0
def Coll.lrows (c : Coll) : Nat := bits (c.w 4) 63 32
def Coll.lcols (c : Coll) : Nat := bits (c.w 4) 31 0
def Coll.members (c : Coll) : Nat := c.w 5
def Coll.waitAddr (c : Coll) : Nat := c.w 6
def Coll.waitVal (c : Coll) : Nat := bits (c.w 7) 63 32

/-- Blocks of a REDUCE (R309). -/
def Coll.blocks (c : Coll) : Nat := ceilDiv c.count 32

/-- A collective from 64 bytes. -/
def newColl (index : Nat) (raw : List Byte) : Coll :=
  { index := index, words := (List.range 8).map fun k => fieldOf raw (8 * k) 8, started := false, member := true, next := 0,
    poisoned := 0, firstPoisoned := 0, got := [], cover := [], ends := [], plan := [], places := [], fin := false }

/-- The checks of a collective descriptor against the topology of its job, with byte offsets (R305, R308, R318).
DEDUCED: log entry 86. -/
def collChecks (t : Topo) (c : Coll) : List (Bool × Nat) :=
  let k := c.kind
  let r := t.path c.path
  let red := k == 1
  let bc := k == 2
  let hw := bc && c.dstHw
  let root := t.ownRank == c.root
  [(decide (3 < k), 7), (r.kind == 0, 7), (bits (c.w 0) 32 16 != 0, 2), (bits (c.w 7) 31 0 != 0, 56),
   (c.waitAddr % 4 != 0, 48),
   (!(red || bc) && c.root != 0, 5), ((red || bc) && decide (t.n ≤ c.root), 5),
   ((red || bc) && r.kind == 2 && c.root != r.treeRoot, 5),
   (!red && c.dstStage, 5), (!bc && c.dstHw, 5), (!red && c.agreedX != 0, 4), (!hw && c.layer != 0, 0),
   (k == 0 && c.src != 0, 8), (bc && !root && c.src != 0, 8), (c.src % 64 != 0, 8),
   ((k == 0 || hw) && c.dst != 0, 16), (red && !root && c.dst != 0, 16), (bc && root && c.dst != 0, 16), (c.dst % 64 != 0, 16),
   (red && root && c.dstStage && decide (stageBytes < c.dst + 66 * c.blocks), 16),
   (k == 0 && c.count != 0, 28), ((red || bc) && c.count == 0, 28), (hw && c.count != 2 * c.lrows * c.lcols, 28),
   (!hw && c.step != 0, 24), (!hw && c.lrows != 0, 36), (!hw && c.lcols != 0, 32),
   (!red && c.members != 0, 40), (c.members % 64 != 0, 40)]

/-! ### The collective queue (R303, R304) -/

/-- Jn takes work from its queues: RUNNING or SWITCHING (R368). -/
def takesWork (s : State) (j : Nat) : Bool := s.jobState j == 2 || s.jobState j == 3

/-- The collective queue has a size that R325 allows. -/
def colQueueOn (s : State) (j : Nat) : Bool :=
  let b := s.num 0x3801 (j + 1) % 32
  decide (6 ≤ b) && decide (b ≤ 16)

/-- Slots of the collective queue, its base, and the collective shadow. -/
def colSlots (s : State) (j : Nat) : Nat := 2 ^ (s.num 0x3801 (j + 1) % 32)
def colBase (s : State) (j : Nat) : Nat := s.num 0x3801 (j + 1) / 4096 * 4096
def colShadow (s : State) (j : Nat) : Nat := s.num 0x3802 (j + 1)

/-- The link die and landing unit of a path, in SOURCE (R459). -/
def pathSource (s : State) (j p : Nat) : Nat := src 5 ((s.topo j).path p).lu

/-- A structure of the collective queue that cannot be read or written: every path stops, and the job faults (R588).
DEDUCED: log entry 85. -/
def colQueueFail (j : Nat) (a : Acc) (addr : Nat) (s : State) : State := accessFault j a addr (stopPaths j 0xFFFF s)

/-- A write into the collective shadow (R303, R588). -/
def colPut (j off v : Nat) (s : State) : State :=
  let a := colShadow s j + off
  match putStruct j a (leBytes 4 v) s with
  | (.ok, s) => s
  | (e, s) => colQueueFail j e a s

/-- COL_MALFORMED of a path (R308). Path 0xFF stands for every path of the job. DEDUCED: log entry 85. -/
def colMalformed (j p index off : Nat) (s : State) : State :=
  let s := stopPaths j (if p = 0xFF then 0xFFFF else 2 ^ p) s
  let s := post 0x3802 (if p = 0xFF then src 5 0 else pathSource s j p) j [(1, j), (1, p), (4, index), (2, off)] s
  jobFault j 0x13 p noSubject s

/-- COL_ACCESS of a path (R308). DEDUCED: log entry 87. -/
def colAccess (j p addr : Nat) (s : State) : State :=
  jobFault j 0x15 p noSubject (post 0x3804 (pathSource s j p) j [(1, j), (1, p), (8, addr)] (stopPaths j (2 ^ p) s))

/-- COL_SHAPE_MISMATCH of a channel (R308). DEDUCED: log entry 86. -/
def colShape (j p ch want got : Nat) (s : State) : State :=
  jobFault j 0x14 ch noSubject
    (post 0x3803 (pathSource s j p) j [(1, j), (1, p), (1, ch), (2, want), (2, got)] (stopPaths j (2 ^ p) s))

/-- A collective doorbell (R135, R304). One for a queue that does not run is discarded, and no counter moves: CNT_TNS_DB_DROP has
subindices for tensor dies alone. DESIGN CHOICE: log entry 142. -/
def ringCol (j value : Nat) (s : State) : State :=
  let x := s.job j
  let p := value % 2 ^ 32
  let cons := s.num 0x3804 (j + 1)
  if !(isRunning s j && colQueueOn s j) then s
  else if colSlots s j < sub32 p cons then colMalformed j 0xFF cons 0 s
  else s.setJob j { x with colProd := p }

/-- COL_DOORBELL (R304). -/
def execColDoorbell (job value : Nat) (s : State) : Host.Outcome State Fault Refusal :=
  forUnit (Instr.wf (.colDoorbell job value)) (ringCol job value s)

/-- The collectives of a path, oldest first. -/
def collsOf (s : State) (j p : Nat) : List Coll := lget [] (s.job j).colls p

/-- The state with the collectives of a path replaced. -/
def setColls (j p : Nat) (l : List Coll) (s : State) : State :=
  let x := s.job j
  s.setJob j { x with colls := lset x.colls p l }

/-- A taken descriptor: CONS advances, and the collective joins its path, or the path stops (R304, R308).
DEDUCED: log entry 84. -/
def joinColl (j index : Nat) (raw : List Byte) (s : State) : State :=
  let c := newColl index raw
  let v := add32 index 1
  let s := colPut j 64 v (s.setNum 0x3804 (j + 1) v)
  match lowestBad (collChecks (s.topo j) c) with
  | some o => colMalformed j c.path index o s
  | none => setColls j c.path (collsOf s j c.path ++ [c]) s

/-- One descriptor is taken, while no path is full (R304). DEDUCED: log entry 84. -/
def takeColl (j : Nat) (s : State) : State :=
  let cons := s.num 0x3804 (j + 1)
  if takesWork s j && colQueueOn s j && (s.job j).colProd != cons
      && s.num 0x3803 (j + 1) == 0 && (s.job j).colls.all (decide <| ·.length < 256) then
    let a := colBase s j + 64 * (cons % colSlots s j)
    match jobRead j a 64 s with
    | (.ok l, s) => joinColl j cons l s
    | (g, s) => colQueueFail j g.acc a s
  else s

/-- COL_DESCRIPTOR_TAKE (R304). -/
def execColDescriptorTake (job : Nat) (s : State) : Host.Outcome State Fault Refusal :=
  forUnit (Instr.wf (.colDescriptorTake job)) (takeColl job s)

/-! ### Running a collective (R306) -/

/-- The state with the collective at work on a path replaced. -/
def putColl (j p : Nat) (c : Coll) (s : State) : State :=
  setColls j p ((collsOf s j p).map fun d => if d.index = c.index then c else d) s

/-- A path may work: its job takes work, and the path has not stopped. -/
def pathWorks (s : State) (j p : Nat) : Bool := takesWork s j && !bit (s.num 0x3803 (j + 1)) p

/-- Incoming and outgoing channels of a collective, in the order of R309 or R317. -/
def rolesOf (t : Topo) (r : PathRec) (c : Coll) : List Nat × List Nat :=
  if r.kind = 1 then
    if t.n = 1 then ([], [])
    else if c.kind = 1 then
      (if t.ownRank = (c.root + 1) % t.n then [] else [r.recvCh], if t.ownRank = c.root then [] else [r.sendCh])
    else
      (if t.ownRank = c.root then [] else [r.recvCh], if t.ownRank = (c.root + t.n - 1) % t.n then [] else [r.sendCh])
  else
    let pos := treePos t.n r.treeRoot t.ownRank
    let kids := List.range (treeKids t.n r.arity pos).length
    if c.kind = 1 then (kids.map (r.upRecvBase + ·), if pos = 0 then [] else [r.sendCh])
    else (if pos = 0 then [] else [r.recvCh], kids.map (r.downSendBase + ·))

/-- Payloads that a channel has delivered and that wait. -/
def inboxOf (s : State) (j ch : Nat) : List (List Byte) := tget [] ch (s.job j).inbox

/-- The oldest payload of each channel, when every one holds one. -/
def heads (s : State) (j : Nat) (l : List Nat) : Option (List (List Byte)) := l.mapM fun ch => (inboxOf s j ch).head?

/-- The oldest payload of each channel is taken. -/
def popInbox (j : Nat) (l : List Nat) (s : State) : State :=
  l.foldl (fun s ch => s.setJob j { s.job j with inbox := tset [] ch (inboxOf s j ch).tail (s.job j).inbox }) s

/-- A move record (R319). -/
structure Move where
  srcDev : Nat
  dstDev : Nat
  layer : Nat
  srcCh : Nat
  dstCh : Nat
  row0 : Nat
  col0 : Nat
  nrows : Nat
  ncols : Nat
  deriving DecidableEq, Repr

/-- A move from its 64 bytes. -/
def moveOf (l : List Byte) : Move :=
  let w0 := fieldOf l 0 8
  { srcDev := bits w0 63 50, dstDev := bits w0 49 36, layer := bits w0 35 20, srcCh := bits w0 19 12, dstCh := bits w0 11 4,
    row0 := fieldOf l 12 4, col0 := fieldOf l 8 4, nrows := fieldOf l 20 4, ncols := fieldOf l 16 4 }

/-- Codes of the region of a move. -/
def Move.codes (m : Move) : Nat := m.nrows * m.ncols

/-- The moves of a plan. -/
def movesOf (plan : List Byte) : List Move :=
  (List.range (fieldOf plan 4 4)).map fun i => moveOf (sliceOf plan (64 + 64 * i) 64)

/-- The moves of a PRISM: as read at its start, and before it as memory holds them. -/
def prismMoves (s : State) (c : Coll) : List Move :=
  movesOf (if c.started then c.plan else peekMem s c.src (64 + 64 * leNat (peekMem s (c.src + 4) 4)))

/-- The channels that a collective occupies at this package (R306, R320). DEDUCED: log entry 84. -/
def collChans (s : State) (j p : Nat) (c : Coll) : List Nat :=
  let me := (s.job j).desc.device
  if c.kind = 0 then []
  else if c.kind = 3 then
    (prismMoves s c).flatMap fun m =>
      (if m.srcDev = me ∧ m.dstDev ≠ me then [m.srcCh] else []) ++ if m.dstDev = me ∧ m.srcDev ≠ me then [m.dstCh] else []
  else
    let t := s.topo j
    let r := rolesOf t (t.path p) c
    r.1 ++ r.2

/-- The collectives of a path that may work: those whose work is not done, and none of whose channels an earlier one of these
occupies (R306). DEDUCED: log entry 84. -/
def freeColls (s : State) (j p : Nat) : List Nat → List Coll → List Coll
  | _, [] => []
  | used, c :: r =>
    if c.fin then freeColls s j p used r
    else
      let ch := collChans s j p c
      (if ch.any used.contains then [] else [c]) ++ freeColls s j p (used ++ ch) r

/-- A move of a PRISM that this package receives and has not received whole. -/
def openMove (s : State) (j : Nat) (c : Coll) (e : Move × Nat) : Bool :=
  e.1.dstDev == (s.job j).desc.device && lget 0 c.got e.2 != e.1.codes

/-- A started PRISM can go on: frames of a move that it receives are at hand, or every move has been performed (R320, R323). -/
def prismReady (s : State) (j : Nat) (c : Coll) : Bool :=
  let l := (movesOf c.plan).zipIdx.filter (openMove s j c)
  l.isEmpty || l.any fun e => inboxOf s j e.1.dstCh != []

/-- A collective can go on: its WAIT is met, or the frames that it needs next are at hand. DEDUCED: log entry 84. -/
def readyColl (s : State) (j p : Nat) (c : Coll) : Bool :=
  let t := s.topo j
  let inc := (rolesOf t (t.path p) c).1
  if !c.started then waitLooks s j c.waitAddr c.waitVal
  else if c.kind = 3 then prismReady s j c
  else inc.all fun ch => inboxOf s j ch != []

/-- The collective of a kind that is at work on a path: of those that may work, the oldest that can go on, or else the oldest.
DEDUCED: log entry 84. -/
def workingColl (s : State) (j p kind : Nat) : Option Coll :=
  let l := (freeColls s j p [] (collsOf s j p)).filter (·.kind == kind)
  (l.find? (readyColl s j p)).or l.head?

/-- Whether this package is a member of a REDUCE (R310). -/
def memberOf (j : Nat) (c : Coll) (s : State) : Except (Acc × Nat) Bool × State :=
  if c.kind ≠ 1 ∨ c.members = 0 then (.ok true, s)
  else
    let t := s.topo j
    match jobRead j c.members (ceilDiv t.n 8) s with
    | (.ok l, s) => (.ok (bit (fieldOf l (t.ownRank / 8) 1) (t.ownRank % 8)), s)
    | (g, s) => (.error (g.acc, c.members), s)

/-- A collective of the kind asked for starts once its WAIT is met (R306, R310); then `work` goes on with it. -/
def runColl (kind j p : Nat) (begin work : Coll → State → State) (s : State) : State :=
  match workingColl s j p kind with
  | none => s
  | some c =>
    if !pathWorks s j p then s
    else if c.started then work c s
    else match waitRead j c.waitAddr c.waitVal s with
      | (.error _, s) => colAccess j p c.waitAddr s
      | (.ok false, s) => s
      | (.ok true, s) =>
        match memberOf j c s with
        | (.error (_, a), s) => colAccess j p a s
        | (.ok m, s) =>
          let c := { c with started := true, member := m }
          begin c (putColl j p c s)

/-- The own work of a collective is done. -/
def finishColl (j p : Nat) (c : Coll) (s : State) : State := putColl j p { c with fin := true } s

/-- A NOP has no work (R305). -/
def doColNop (j p : Nat) (s : State) : State := runColl 0 j p (finishColl j p) (fun _ s => s) s

/-- COL_NOP (R305). -/
def execColNop (job path : Nat) (s : State) : Host.Outcome State Fault Refusal :=
  forUnit (Instr.wf (.colNop job path)) (doColNop job path s)

/-- A payload goes out on each channel, and the collective remembers where its frames end (R306, R307). -/
def sendOn (j : Nat) (l : List Nat) (payload : List Byte) (c : Coll) (s : State) : Coll × State :=
  l.foldl (fun x ch =>
    let s := sendData j ch (chanOf x.2 j ch).peer payload x.2
    ({ x.1 with ends := tput ch (tget 0 ch (s.job j).txSeq) x.1.ends }, s)) (c, s)

/-- A write into device memory that a collective makes (R372). -/
def colWrite (j a : Nat) (l : List Byte) (s : State) : Acc × State :=
  if protOk (s.job j).prots (·.write) a l.length && rangeOk s a l.length then (.ok, writeMem a l s) else (.access, s)

/-! ### REDUCE (R309 to R315) -/

/-- `rsh` of R312: an integer divided by 2^k, rounded to nearest, ties to even. -/
def rsh (v : Int) (k : Nat) : Int := roundInt .rne (scaleBy (-(k : Int)) (ofInt v))

/-- The elements of a transit block as integers. -/
def Block.ints (b : Block) : List Int := b.codes.map (signedOf 16)

/-- Poisoned (R46). -/
def Block.poisoned (b : Block) : Bool := scalePoisoned b.scale

/-- A sum lies in the range of a QR16 element. -/
def qr16Fits (i : Int) : Bool := decide (-32768 ≤ i) && decide (i ≤ 32767)

/-- A transit block from integers. -/
def blockOfInts (x : Nat) (l : List Int) (rescaled : Bool) : Block :=
  { codes := l.map (unsignedOf 16), scale := x, rescaled := rescaled, sat := false, nonfin := false }

/-- The combination of two transit blocks (R312). `rescaled` of the result says that step 5 raised the exponent. -/
def combine (a b : Block) : Block :=
  if a.poisoned || b.poisoned then poisonBlock 32 false false
  else
    let x := max a.scale b.scale
    let sums := List.zipWith (· + ·) (a.ints.map (rsh · (x - a.scale))) (b.ints.map (rsh · (x - b.scale)))
    if sums.all qr16Fits then blockOfInts x sums false
    else if x = 127 then poisonBlock 32 false false
    else blockOfInts (x + 1) (sums.map (rsh · 1)) true

/-- `make` of R311: 32 contribution elements as a transit block under a given exponent (R68). -/
def makeTransit (xt : Nat) (l : List FV) : Block :=
  convBlock codeQR16 (some xt) ((l ++ List.replicate (32 - l.length) (FV.fin false 0 0)).map fun v => (v, Rnd.rne))

/-- One block at one hop: the incoming blocks in order, then this package's own elements when it is a member (R311). It
answers the block and whether this package raised its exponent. -/
def hopBlock (agreed : Nat) (own : Option (List FV)) (l : List Block) : Block × Bool :=
  let f : Option (Block × Bool) → Block → Option (Block × Bool) := fun acc b => match acc with
    | none => some (b, false)
    | some (a, up) => let r := combine a b; some (r, up || r.rescaled)
  let r : Block × Bool := match l.foldl f none, own with
    | none, none => (blockOfInts agreed (List.replicate 32 0) false, false)
    | none, some v => let b := makeTransit agreed v; (b, b.rescaled)
    | some (a, up), none => (a, up)
    | some (a, up), some v =>
      if a.poisoned then (poisonBlock 32 false false, up)
      else
        let b := makeTransit a.scale v
        let r := combine a b
        (r, up || b.rescaled || r.rescaled)
  ({ r.1 with rescaled := !r.1.poisoned && decide (agreed < r.1.scale) }, r.2)

/-- First block and number of blocks of frame f of a REDUCE (R314). -/
def frameBlocks (c : Coll) (f : Nat) : Nat × Nat := (64 * f, min 64 (c.blocks - 64 * f))

/-- The contribution of this package to n blocks from block b0 on. -/
def contribution (j b0 n : Nat) (c : Coll) (s : State) : Except Nat (List FV) × State :=
  let k := min c.count (32 * (b0 + n)) - 32 * b0
  let a := c.src + 128 * b0
  if !c.member then (.ok [], s)
  else match jobRead j a (4 * k) s with
    | (.ok l, s) => (.ok ((List.range k).map fun i => decodeF b32 (fieldOf l (4 * i) 4)), s)
    | (_, s) => (.error a, s)

/-- The root writes blocks of its result (R315). -/
def writeResult (j lu a : Nat) (c : Coll) (l : List Byte) (s : State) : Acc × State :=
  if c.dstStage then (.ok, stagePut lu a l s) else colWrite j a l s

/-- The end of a REDUCE at the root: poisoned blocks are counted and reported once (R315). -/
def reportPoison (j p : Nat) (c : Coll) (s : State) : State :=
  if c.poisoned = 0 then s
  else post 0x3805 (pathSource s j p) j [(1, j), (1, p), (4, c.poisoned), (4, c.firstPoisoned)]
    (count 0x5873 (j + 1) c.poisoned s)

/-- The blocks of one frame at this hop: the result and the new state of the collective. -/
def hopFrame (j p b0 n : Nat) (c : Coll) (own : List FV) (frames : List (List Byte)) (s : State) : State :=
  let t := s.topo j
  let r := t.path p
  let roles := rolesOf t r c
  let one : Nat → Block × Bool := fun i =>
    hopBlock c.agreedX (if c.member then some ((own.drop (32 * i)).take 32) else none)
      (frames.map fun l => readTransit (sliceOf l (66 * i) 66))
  let l := (List.range n).map one
  let out := l.flatMap fun b => transitBlock b.1
  let s := count 0x5871 (j + 1) n s
  let up := (l.filter (·.2)).length
  let s := if up = 0 then s else count 0x5872 (j + 1) up s
  let bad := (List.range n).filter fun i => (lget (blockOfInts 0 [] false, false) l i).1.poisoned
  let root := t.ownRank == c.root
  let c := if root ∧ bad ≠ [] then
      { c with poisoned := c.poisoned + bad.length,
               firstPoisoned := if c.poisoned = 0 then b0 + bad.headD 0 else c.firstPoisoned }
    else c
  let w := if root then writeResult j r.lu (c.dst + 66 * b0) c out s else (.ok, s)
  if w.1 ≠ .ok then colAccess j p (c.dst + 66 * b0) w.2
  else
    let x := sendOn j roles.2 out { c with next := c.next + 1 } w.2
    if b0 + n = c.blocks then finishColl j p x.1 (reportPoison j p x.1 x.2) else putColl j p x.1 x.2

/-- One frame of a started REDUCE, once this hop holds it from every incoming channel (R308, R314). -/
def reduceStep (j p : Nat) (c : Coll) (s : State) : State :=
  let t := s.topo j
  let roles := rolesOf t (t.path p) c
  let b := frameBlocks c c.next
  let here := roles.1.filterMap fun ch => (inboxOf s j ch).head?.map (ch, ·)
  match here.find? fun e => e.2.length != 66 * b.2 with
  | some e => colShape j p e.1 (66 * b.2) e.2.length s
  | none => match heads s j roles.1 with
    | none => s
    | some l => match contribution j b.1 b.2 c (popInbox j roles.1 s) with
      | (.error a, s) => colAccess j p a s
      | (.ok own, s) => hopFrame j p b.1 b.2 c own l s

/-- Two ranges of bytes meet. -/
def rangesMeet (a n b m : Nat) : Bool := decide (a < b + m) && decide (b < a + n)

/-- A result of a REDUCE takes its place in staging SRAM, over what lay there (R357). DEDUCED: log entry 80. -/
def noteResult (u j off n : Nat) (s : State) : State :=
  let rest := s.stageResults.filter fun e => !(e.1 == u && rangesMeet e.2.2.1 e.2.2.2 off n)
  { s with stageResults := rest ++ [(u, j, off, n)] }

/-- A REDUCE starts: at the root, its result occupies staging SRAM where DST_STAGE asks for it. -/
def beginReduce (j p : Nat) (c : Coll) (s : State) : State :=
  let t := s.topo j
  if t.ownRank = c.root ∧ c.dstStage then noteResult (t.path p).lu j c.dst (66 * c.blocks) s else s

/-- REDUCE (R306, R309, R310): the collective starts. -/
def execReduce (job path : Nat) (s : State) : Host.Outcome State Fault Refusal :=
  forUnit (Instr.wf (.reduce job path)) (runColl 1 job path (beginReduce job path) (fun _ s => s) s)

/-- A started REDUCE handles its next frame. -/
def doReduceHop (j p : Nat) (s : State) : State :=
  match workingColl s j p 1 with
  | some c => if c.started ∧ pathWorks s j p then reduceStep j p c s else s
  | none => s

/-- REDUCE_HOP (R311, R314). -/
def execReduceHop (job path : Nat) (s : State) : Host.Outcome State Fault Refusal :=
  forUnit (Instr.wf (.reduceHop job path)) (doReduceHop job path s)

/-! ### Weight-place records and the inbound heartwood path (R162, R163) -/

/-- A weight-place record and its address. -/
structure WPlace where
  addr : Nat
  stored : Nat
  mirror : Nat
  rows : Nat
  cols : Nat
  rowOff : Nat
  colOff : Nat
  storedStride : Nat
  mirrorStride : Nat
  layer : Nat
  deriving DecidableEq, Repr

/-- A weight-place record from its 64 bytes. -/
def wplaceOf (addr : Nat) (l : List Byte) : WPlace :=
  { addr := addr, stored := fieldOf l 0 8, mirror := fieldOf l 8 8, rows := fieldOf l 20 4, cols := fieldOf l 16 4,
    rowOff := fieldOf l 28 4, colOff := fieldOf l 24 4, storedStride := fieldOf l 36 4, mirrorStride := fieldOf l 32 4,
    layer := fieldOf l 42 2 }

/-- A record that keeps to R162. MIRROR_STRIDE may hold anything where MIRROR_BASE is 0. DEDUCED: log entry 87. -/
def wplaceOk (l : List Byte) : Bool :=
  let w := wplaceOf 0 l
  fieldOf l 40 2 == 0 && zeroRange l 48 16 && w.stored % 64 == 0 && w.storedStride % 64 == 0
    && decide (2 * w.cols ≤ w.storedStride)
    && (w.mirror == 0 || (w.mirror % 64 == 0 && w.mirrorStride % 64 == 0 && decide (2 * w.rows ≤ w.mirrorStride)))

/-- The records of an array of n records that starts at a base. -/
def allPlaces (base n : Nat) (l : List Byte) : List WPlace :=
  (List.range n).map fun i => wplaceOf (base + 64 * i) (sliceOf l (64 * i) 64)

/-- Those of them that are well formed: the ones that codes can be written into. -/
def wplaces (base n : Nat) (l : List Byte) : List WPlace :=
  ((List.range n).filter fun i => wplaceOk (sliceOf l (64 * i) 64)).map fun i => wplaceOf (base + 64 * i) (sliceOf l (64 * i) 64)

/-- The weight-place records of a job, or the address that cannot be read. -/
def jobPlaces (j : Nat) (s : State) : Except Nat (List WPlace) × State :=
  let base := s.num 0x3C68 (j + 1)
  let n := s.num 0x3C69 (j + 1)
  if n = 0 then (.ok [], s)
  else match jobRead j base (64 * n) s with
    | (.ok l, s) => (.ok (wplaces base n l), s)
    | (_, s) => (.error base, s)

/-- The stores that place codes of global row `row` from global column `col` on into a record: a run of the stored order,
and the same codes in the mirror copy (R161, R163). -/
def placeRun (w : WPlace) (row col : Nat) (codes : List Nat) : List (Nat × List Byte) :=
  let lo := max col w.colOff
  let hi := min (col + codes.length) (w.colOff + w.cols)
  if row < w.rowOff ∨ w.rowOff + w.rows ≤ row ∨ hi ≤ lo then []
  else
    let run := (codes.drop (lo - col)).take (hi - lo)
    let main := (w.stored + (row - w.rowOff) * w.storedStride + 2 * (lo - w.colOff), run.flatMap (leBytes 2))
    main :: (if w.mirror = 0 then []
      else run.mapIdx fun i c => (w.mirror + (lo + i - w.colOff) * w.mirrorStride + 2 * (row - w.rowOff), leBytes 2 c))

/-- Codes in row-major order cut at the ends of rows of a width: each run with its row and first column. -/
def rowRuns (width : Nat) : Nat → Nat → List Nat → List (Nat × Nat × List Nat)
  | 0, _, _ => []
  | f + 1, k, l =>
    match l with
    | [] => []
    | _ =>
      let n := width - k % width
      (k / width, k % width, l.take n) :: rowRuns width f (k + n) (l.drop n)

/-- A store that the job may make and that can be performed. -/
def storeUsable (s : State) (j : Nat) (w : Nat × List Byte) : Bool :=
  protOk (s.job j).prots (·.write) w.1 w.2.length && rangeOk s w.1 w.2.length

/-- Stores of the inbound path: none is made unless every one can be, so that no copy is written without the other (R163,
R372). It answers the first address that cannot be written. -/
def placeStores (j : Nat) (l : List (Nat × List Byte)) (s : State) : Option Nat × State :=
  match l.find? fun w => !storeUsable s j w with
  | some w => (some w.1, s)
  | none => (none, l.foldl (fun s w => writeMem w.1 w.2 s) s)

/-- GEN of records is written (R163 step 3). -/
def writeGen (j gen : Nat) (l : List WPlace) (s : State) : Option Nat × State :=
  placeStores j (l.map fun w => (w.addr + 44, leBytes 4 gen)) s

/-- The QW16 codes of a payload. -/
def codesOf (l : List Byte) : List Nat := (List.range (l.length / 2)).map fun i => fieldOf l (2 * i) 2

/-- A frame of broadcast heartwood: its codes go to every record of the layer, and GEN follows the last frame (R163,
R318), but never in a record that reaches beyond the layer, since it is written in part only. It answers the first address that
cannot be read or written. DEDUCED: log entry 87. -/
def placeHeartwood (j : Nat) (c : Coll) (off : Nat) (l : List Byte) (s : State) : Option Nat × State :=
  match jobPlaces j s with
  | (.error a, s) => (some a, s)
  | (.ok places, s) =>
    let mine := places.filter (·.layer == c.layer)
    let codes := codesOf l
    let runs := rowRuns c.lcols codes.length (off / 2) codes
    match placeStores j (mine.flatMap fun w => runs.flatMap fun r => placeRun w r.1 r.2.1 r.2.2) s with
    | (some a, s) => (some a, s)
    | (none, s) =>
      let whole := mine.filter fun w => decide (w.rowOff + w.rows ≤ c.lrows) && decide (w.colOff + w.cols ≤ c.lcols)
      if off + l.length = c.count then writeGen j c.step whole s else (none, s)

/-! ### BROADCAST (R317, R318) -/

/-- The bytes of frame f of a BROADCAST at this package: read at the root, taken from the parent elsewhere. -/
def broadcastBytes (j n : Nat) (root : Bool) (inc : List Nat) (c : Coll) (s : State) :
    Except Nat (Option (List Byte)) × State :=
  let a := c.src + 4096 * c.next
  if root then
    match jobRead j a n s with
    | (.ok l, s) => (.ok (some l), s)
    | (_, s) => (.error a, s)
  else match heads s j inc with
    | some (l :: _) => (.ok (some l), popInbox j inc s)
    | _ => (.ok none, s)

/-- A frame is delivered at this package (R318). DEDUCED: log entry 116. -/
def deliverBroadcast (j off : Nat) (root : Bool) (c : Coll) (l : List Byte) (s : State) : Option Nat × State :=
  if c.dstHw then placeHeartwood j c off l s
  else if root then (none, s)
  else
    let r := colWrite j (c.dst + off) l s
    (if r.1 = .ok then none else some (c.dst + off), r.2)

/-- The frames of a started BROADCAST, as far as they are at hand (R308, R317). -/
def broadcastSteps (j p : Nat) : Nat → State → State
  | 0, s => s
  | k + 1, s =>
    match workingColl s j p 2 with
    | none => s
    | some c =>
      let t := s.topo j
      let roles := rolesOf t (t.path p) c
      let root := t.ownRank == c.root
      let off := 4096 * c.next
      let n := min 4096 (c.count - off)
      if !c.started ∨ !pathWorks s j p then s
      else match broadcastBytes j n root roles.1 c s with
        | (.error a, s) => colAccess j p a s
        | (.ok none, s) => s
        | (.ok (some l), s) =>
          if l.length ≠ n then colShape j p (roles.1.headD 0) n l.length s
          else match deliverBroadcast j off root c l s with
            | (some a, s) => colAccess j p a s
            | (none, s) =>
              let x := sendOn j roles.2 l { c with next := c.next + 1 } s
              if off + n = c.count then finishColl j p x.1 x.2 else broadcastSteps j p k (putColl j p x.1 x.2)

/-- Frames of a BROADCAST (R317). -/
def Coll.frames (c : Coll) : Nat := ceilDiv c.count 4096

/-- A BROADCAST starts, and works on the frames at hand. -/
def doBroadcast (j p : Nat) (s : State) : State :=
  let work : Coll → State → State := fun c s => broadcastSteps j p (c.frames - c.next) s
  runColl 2 j p work work s

/-- BROADCAST (R317, R318). -/
def execBroadcast (job path : Nat) (s : State) : Host.Outcome State Fault Refusal :=
  forUnit (Instr.wf (.broadcast job path)) (doBroadcast job path s)

/-! ### PRISM (R319 to R323) -/

/-- The plan keeps the form of R319: reserved fields 0, at least one move, no empty region. -/
def planForm (plan : List Byte) : Bool :=
  let n := fieldOf plan 4 4
  decide (1 ≤ n) && fieldOf plan 0 2 == 0 && fieldOf plan 8 4 == 0 && zeroRange plan 16 48
    && (List.range n).all fun i =>
      let l := sliceOf plan (64 + 64 * i) 64
      let m := moveOf l
      fieldOf l 0 1 % 16 == 0 && zeroRange l 24 40 && decide (1 ≤ m.nrows) && decide (1 ≤ m.ncols)
        && ((m.srcDev == m.dstDev) == (m.srcCh == 0xFF)) && ((m.srcDev == m.dstDev) == (m.dstCh == 0xFF))

/-- The record of a layer that contains the region of a move wholly (R320): the first of them, where there are several.
DESIGN CHOICE: log entry 142. -/
def holder (l : List WPlace) (m : Move) : Option WPlace :=
  l.find? fun w => w.layer == m.layer && decide (w.rowOff ≤ m.row0) && decide (m.row0 + m.nrows ≤ w.rowOff + w.rows)
    && decide (w.colOff ≤ m.col0) && decide (m.col0 + m.ncols ≤ w.colOff + w.cols)

/-- A move that names this package can be carried out (R321). -/
def moveOk (s : State) (j : Nat) (sources targets : List WPlace) (m : Move) : Bool :=
  let me := (s.job j).desc.device
  let out := m.srcDev == me
  let inn := m.dstDev == me
  let local_ := out && inn
  (!out || (holder sources m).isSome) && (!inn || (holder targets m).isSome)
    && (!out || local_ || (let c := chanOf s j m.srcCh; c.dir == 1 && c.peer == m.dstDev))
    && (!inn || local_ || (let c := chanOf s j m.dstCh; c.dir == 2 && c.peer == m.srcDev && c.sink == 3))

/-- The codes of a region, read from its source record row by row (R320). -/
def regionCodes (j : Nat) (w : WPlace) (m : Move) : Nat → State → Except Nat (List Nat) × State
  | 0, s => (.ok [], s)
  | k + 1, s =>
    let r := m.row0 + (m.nrows - (k + 1)) - w.rowOff
    let a := w.stored + r * w.storedStride + 2 * (m.col0 - w.colOff)
    match jobRead j a (2 * m.ncols) s with
    | (.ok l, s) => match regionCodes j w m k s with
      | (.ok t, s) => (.ok (codesOf l ++ t), s)
      | (.error e, s) => (.error e, s)
    | (_, s) => (.error a, s)

/-- Codes of a region from position k on are written into its target record, and counted (R320, R323). -/
def landCodes (j : Nat) (w : WPlace) (m : Move) (k : Nat) (codes : List Nat) (s : State) : Option Nat × State :=
  let runs := rowRuns m.ncols codes.length k codes
  placeStores j (runs.flatMap fun r => placeRun w (m.row0 + r.1) (m.col0 + r.2.1) r.2.2) s

/-- The progress of a PRISM after n codes of move i have been written into record t. -/
def Coll.landed (c : Coll) (i t n : Nat) : Coll :=
  { c with got := lset c.got i (lget 0 c.got i + n), cover := lset c.cover t (lget 0 c.cover t + n) }

/-- The position of a target record in the array that starts at DST. -/
def Coll.place (c : Coll) (w : WPlace) : Nat := (w.addr - c.dst) / 64

/-- Codes are written into a record, and counted as bytes: those of the stored order, and of the mirror copy where there is one
(R326). DEDUCED: log entry 136. -/
def landAndCount (j i : Nat) (c : Coll) (w : WPlace) (m : Move) (k : Nat) (codes : List Nat) (s : State) :
    Except Nat Coll × State :=
  match landCodes j w m k codes s with
  | (some a, s) => (.error a, s)
  | (none, s) => (.ok (c.landed i (c.place w) codes.length), count 0x5874 (j + 1) ((if w.mirror = 0 then 2 else 4) * codes.length) s)

/-- The sending side of one move, or the whole of a local one (R320). DEDUCED: log entry 136. -/
def sendMove (j i : Nat) (sources targets : List WPlace) (m : Move) (c : Coll) (s : State) : Except Nat Coll × State :=
  if m.srcDev ≠ (s.job j).desc.device then (.ok c, s)
  else match holder sources m with
    | none => (.ok c, s)
    | some w =>
      match regionCodes j w m m.nrows s with
      | (.error a, s) => (.error a, s)
      | (.ok codes, s) =>
        if m.dstDev = m.srcDev then
          match holder targets m with
          | some t => landAndCount j i c t m 0 codes s
          | none => (.ok c, s)
        else
          let r := (pieces codes.length 2048 codes).foldl (fun x l =>
            sendOn j [m.srcCh] (l.flatMap (leBytes 2)) x.1 x.2) (c, s)
          (.ok r.1, r.2)

/-- Every move that this package sends, in plan order. -/
def sendMoves (j : Nat) (sources targets : List WPlace) : List (Nat × Move) → Coll → State → Except Nat Coll × State
  | [], c, s => (.ok c, s)
  | (i, m) :: r, c, s =>
    match sendMove j i sources targets m c s with
    | (.ok c, s) => sendMoves j sources targets r c s
    | e => e

/-- How the receiving side of a PRISM ends for now. -/
inductive Landing where
  | ok (c : Coll)
  | access (a : Nat)
  | shape (ch want got : Nat)
  deriving DecidableEq, Repr

/-- Frames at hand of one move that this package receives (R320). -/
def landMove (j i : Nat) (t : WPlace) (m : Move) : Nat → Coll → State → Landing × State
  | 0, c, s => (.ok c, s)
  | f + 1, c, s =>
    let k := lget 0 c.got i
    let want := min 4096 (2 * (m.codes - k))
    match heads s j [m.dstCh] with
    | some (l :: _) =>
      if want = 0 then (.ok c, s)
      else if l.length ≠ want then (.shape m.dstCh want l.length, s)
      else match landAndCount j i c t m k (codesOf l) (popInbox j [m.dstCh] s) with
        | (.error a, s) => (.access a, s)
        | (.ok c, s) => landMove j i t m f c s
    | _ => (.ok c, s)

/-- The moves that this package receives, in plan order; a channel whose earlier move is not complete waits (R320). -/
def landMoves (j : Nat) (targets : List WPlace) : List (Nat × Move) → List Nat → Coll → State → Landing × State
  | [], _, c, s => (.ok c, s)
  | (i, m) :: r, held, c, s =>
    let me := (s.job j).desc.device
    match holder targets m with
    | none => landMoves j targets r held c s
    | some t =>
      if m.dstDev ≠ me ∨ m.srcDev = me ∨ held.contains m.dstCh then landMoves j targets r held c s
      else match landMove j i t m (ceilDiv (2 * m.codes) 4096) c s with
        | (.ok c, s) => landMoves j targets r (if lget 0 c.got i = m.codes then held else m.dstCh :: held) c s
        | e => e

/-- Every move that names this package as DST_DEV has been performed (R323). -/
def allLanded (s : State) (j : Nat) (c : Coll) : Bool :=
  ((movesOf c.plan).zipIdx).all fun e => e.1.dstDev != (s.job j).desc.device || lget 0 c.got e.2 == e.1.codes

/-- The end of a PRISM: the target records are covered and their GENs are written, or the job faults (R323). Of several records that are
not covered the first is reported, and then no GEN is written; the bytes of COL_PRISM_DONE count the codes of local moves too (R327).
DEDUCED: log entry 87. DESIGN CHOICE: log entry 142. -/
def endPrism (j p : Nat) (c : Coll) (s : State) : State :=
  let targets := allPlaces c.dst c.count c.places
  match targets.find? fun w => lget 0 c.cover (c.place w) != w.rows * w.cols with
  | some w =>
    jobFault j 0x16 w.layer noSubject
      (post 0x3806 (pathSource s j p) j [(1, j), (2, w.layer), (8, lget 0 c.cover (c.place w)), (8, w.rows * w.cols)] s)
  | none =>
    let gen := fieldOf c.plan 12 4
    match writeGen j gen targets s with
    | (some a, s) => colAccess j p a s
    | (none, s) =>
      finishColl j p c (post 0x3807 (pathSource s j p) j [(1, j), (4, gen), (8, 2 * c.got.sum)] s)

/-- The receiving side of a started PRISM goes on. -/
def prismStep (j p : Nat) (c : Coll) (s : State) : State :=
  let targets := wplaces c.dst c.count c.places
  match landMoves j targets (((movesOf c.plan).zipIdx).map fun e => (e.2, e.1)) [] c s with
  | (.access a, s) => colAccess j p a s
  | (.shape ch want got, s) => colShape j p ch want got s
  | (.ok c, s) => if allLanded s j c then endPrism j p c s else putColl j p c s

/-- A PRISM starts: its plan and records are read and checked, and this package's moves are sent (R319 to R321).
DEDUCED: log entry 73. -/
def prismBegin (j p : Nat) (c : Coll) (s : State) : State :=
  match jobRead j c.src 64 s with
  | (.ok h, s) =>
    match jobRead j c.src (64 + 64 * fieldOf h 4 4) s with
    | (.ok plan, s) =>
      match (if c.count = 0 then (.ok [], s) else jobRead j c.dst (64 * c.count) s) with
      | (.ok places, s) =>
        match jobPlaces j s with
        | (.ok sources, s) =>
          let targets := wplaces c.dst c.count places
          let moves := movesOf plan
          if !(planForm plan && fieldOf plan 2 2 == s.jobEpoch j && moves.all (moveOk s j sources targets)) then
            colMalformed j p c.index 8 s
          else
            let c := { c with plan := plan, places := places, got := List.replicate moves.length 0,
                              cover := List.replicate c.count 0 }
            match sendMoves j sources targets (moves.zipIdx.map fun e => (e.2, e.1)) c s with
            | (.error a, s) => colAccess j p a s
            | (.ok c, s) => prismStep j p c (putColl j p c s)
        | (.error a, s) => colAccess j p a s
      | (_, s) => colAccess j p c.dst s
    | (_, s) => colAccess j p c.src s
  | (_, s) => colAccess j p c.src s

/-- Every sequence slot of a job is free (R22). -/
def slotsFreeOf (s : State) (j : Nat) : Bool :=
  (List.range 32).all fun k => slotFree s k || slotBind s k % 16 != j

/-- LAST_SEQ of a job (R403). -/
def lastSeq (s : State) (j : Nat) : Nat := s.num (jobIx j 6) 3

/-- Step 9 of R391 is over, or there was no restart: the front end may accept new work (R399). -/
def replayDone (s : State) (j : Nat) : Bool :=
  let x := s.job j
  (x.plan == [] && !x.resumed) || decide (lastSeq s j < x.replaySeq + x.replayed)

/-- Step 2 of R22 is done here: every accepted request of the job, those that a restart has to replay among them, has been delivered,
and its slots are free. -/
def allDelivered (s : State) (j : Nat) : Bool :=
  let f := (s.job j).front
  replayDone s j && slotsFreeOf s j && f.opened == [] && f.results == [] && f.logged.all fun e => decide (e.1 < f.nextDeliver)

/-- A PRISM of a switch may begin: a serving job has delivered every accepted request and freed its slots; a training job has
completed the boundary step and written its checkpoint part (R21, R22). -/
def prismMay (s : State) (j : Nat) : Bool :=
  let x := s.job j
  match x.switching with
  | none => true
  | some (0, _) => allDelivered s j
  | some _ => x.partSent

/-- PRISM (R319 to R323). -/
def execPrism (job path : Nat) (s : State) : Host.Outcome State Fault Refusal :=
  forUnit (Instr.wf (.prism job path))
    (if prismMay s job then runColl 3 job path (prismBegin job path) (prismStep job path) s else s)

/-! ### Completion (R307) -/

/-- A frame of the collective has not been accepted by the first hop. -/
def framesHeld (s : State) (j : Nat) (c : Coll) : Bool :=
  (heldFrames s).any fun f => f.type == 1 && ownFrame s j f
    && c.ends.any fun e => e.1 == f.chan && seqCmp 32 f.seq e.2 == .earlier

/-- The oldest collective of a path completes once its work is done and its frames have been accepted: DONE of the path
advances (R307). -/
def completeColl (j p : Nat) (s : State) : State :=
  match collsOf s j p with
  | [] => s
  | c :: r =>
    if !c.fin || !pathWorks s j p || framesHeld s j c then s
    else
      let x := s.job j
      let v := add32 (lget 0 x.colDone p) 1
      let s := s.setJob j { x with colls := lset x.colls p r, colDone := lset x.colDone p v }
      colPut j (4 * p) v (count 0x5870 (j + 1) 1 s)

end Sys2Proof.Machine
end

