-- ==== Sys2Proof/Machine/Landing.lean ====
section
/-!
DEFINITION. Machine/Landing.lean: the landing units: layers (R328 to R331), the landing queue (R346 to R349), ORTHO (R335 to
R337), NORM (R360), UPDATE (R350 to R359), and completion.
-/

namespace Sys2Proof.Machine

/-! ### binary32 arithmetic of the update (R350) -/

/-- A binary32 operation on two codes, rounded to nearest even; a NaN is the canonical one (R350). -/
def f32two (op : FV → FV → VR) (a b : Nat) : Nat :=
  ((nanOfOps false [a, b]).getD (op (decodeF b32 a) (decodeF b32 b))).code

def addF32 (a b : Nat) : Nat := f32two (addV 0) a b
def mulF32 (a b : Nat) : Nat := f32two (mulV 0) a b
def divF32 (a b : Nat) : Nat := f32two (divV 0) a b

/-- The code with its sign changed. -/
def negF32 (a : Nat) : Nat := a ^^^ 0x80000000

def subF32 (a b : Nat) : Nat := addF32 a (negF32 b)

/-- a × b + c, rounded once. -/
def fmaF32 (a b c : Nat) : Nat :=
  ((nanOfOps false [a, b, c]).getD (fmaV 0 (decodeF b32 a) (decodeF b32 b) (decodeF b32 c))).code

def sqrtF32 (a : Nat) : Nat := ((nanOfOps false [a]).getD (sqrtV 0 (decodeF b32 a))).code

/-- A positive integer below 2^24 as binary32, which is exact. -/
def natF32 (n : Nat) : Nat := if n = 0 then 0 else (roundB32 0 false n 0).code

/-- 1.0. -/
def oneF32 : Nat := 0x3F800000

/-- A finite code. -/
def finF32 (a : Nat) : Bool := decide (a / 2 ^ 23 % 256 ≠ 255)

/-- A code above 0, and finite. -/
def posF32 (a : Nat) : Bool := decide (0 < a) && decide (a < 0x7F800000)

/-- One binary tree over a list, an odd last node passed up (R335). `f` bounds the number of levels. -/
def sumTree : Nat → List Nat → Nat
  | 0, l => l.headD 0
  | f + 1, l => match l with
    | [] => 0
    | [a] => a
    | _ => sumTree f (combinePairs addF32 l)

/-- The sums of the groups of 64 (R97, R335). -/
def groupSums : Nat → List Nat → List Nat
  | 0, _ => []
  | f + 1, l => match l with
    | [] => []
    | _ => sumTree 6 (l.take 64 ++ List.replicate (64 - (l.take 64).length) 0) :: groupSums f (l.drop 64)

/-- A fixed sum (R335). DEDUCED: log entry 90. -/
def fixedSum (l : List Nat) : Nat :=
  let g := groupSums l.length l
  sumTree g.length g

/-- `powt` of R352, from bit n - 1 of t down. -/
def powtBits (b t : Nat) : Nat → Nat → Nat
  | 0, p => p
  | n + 1, p =>
    let q := mulF32 p p
    powtBits b t n (if bit t n then mulF32 q b else q)

/-- `powt` (R352). -/
def powt (b t : Nat) : Nat := powtBits b t 32 oneF32

/-- A bias-correction factor (R352). DEDUCED: log entry 90. -/
def biasFactor (b t : Nat) : Nat := divF32 oneF32 (subF32 oneF32 (powt b t))

/-! ### Layers (R328 to R331) -/

/-- A layer descriptor (R328). -/
structure Layer where
  owner : Nat
  path : Nat
  split : Bool
  rank : Nat
  rows : Nat
  cols : Nat
  master : Nat
  sapwood : Nat
  mBase : Nat
  vBase : Nat
  hwOut : Nat
  basis : Nat
  stateAddr : Nat
  eta : Nat
  lambda : Nat
  beta1 : Nat
  beta2 : Nat
  eps : Nat
  trustMax : Nat
  deriving DecidableEq, Repr

/-- A layer descriptor from its 128 bytes. -/
def layerOf (l : List Byte) : Layer :=
  let w0 := fieldOf l 0 8
  { owner := bits w0 63 50, path := bits w0 49 46, split := bit w0 45, rank := bits w0 44 38, rows := fieldOf l 12 4,
    cols := fieldOf l 8 4, master := fieldOf l 16 8, sapwood := fieldOf l 24 8, mBase := fieldOf l 32 8,
    vBase := fieldOf l 40 8, hwOut := fieldOf l 48 8, basis := fieldOf l 56 8, stateAddr := fieldOf l 64 8,
    eta := fieldOf l 76 4, lambda := fieldOf l 72 4, beta1 := fieldOf l 84 4, beta2 := fieldOf l 80 4, eps := fieldOf l 92 4,
    trustMax := fieldOf l 88 4 }

/-- Finite and not negative. -/
def notNegF32 (a : Nat) : Bool := finF32 a && (!bit a 31 || a == 0x80000000)

/-- A layer descriptor that keeps to R328. -/
def layerOk (l : List Byte) : Bool :=
  let x := layerOf l
  let page : Nat → Bool := fun a => a % 4096 == 0
  bits (fieldOf l 0 8) 23 0 == 0 && zeroRange l 104 24 && decide (1 ≤ x.rank) && decide (x.rank ≤ 64)
    && decide (x.rank ≤ x.rows) && decide (x.rank ≤ x.cols) && x.rows % 64 == 0 && x.cols % 64 == 0
    && page x.master && page x.mBase && page x.vBase && page x.basis && x.stateAddr % 64 == 0
    && (if x.split then page x.sapwood && x.hwOut == 0 else x.sapwood == 0 && page x.hwOut)
    && notNegF32 x.eta && notNegF32 x.lambda && posF32 x.beta1 && decide (x.beta1 < oneF32) && posF32 x.beta2
    && decide (x.beta2 < oneF32) && posF32 x.eps && decide (0 < x.trustMax) && decide (x.trustMax ≤ 0x7F800000)

/-- Elements of a layer. -/
def Layer.elems (x : Layer) : Nat := x.rows * x.cols

/-- Bytes of a row of B (R337). -/
def Layer.rsb (x : Layer) : Nat := roundUp (2 * x.rank) 64

/-! ### Landing descriptors (R347) -/

def LuOp.w (o : LuOp) (k : Nat) : Nat := lget 0 o.words k
def LuOp.kind (o : LuOp) : Nat := bits (o.w 0) 63 60
def LuOp.layer (o : LuOp) : Nat := bits (o.w 0) 59 44
def LuOp.step (o : LuOp) : Nat := o.w 1
def LuOp.divisor (o : LuOp) : Nat := bits (o.w 2) 63 32
def LuOp.src (o : LuOp) : Nat := o.w 3
def LuOp.aux (o : LuOp) : Nat := o.w 4
def LuOp.waitAddr (o : LuOp) : Nat := o.w 5
def LuOp.waitVal (o : LuOp) : Nat := bits (o.w 6) 63 32

/-- STEP as a 32-bit count. -/
def LuOp.step32 (o : LuOp) : Nat := o.step % 2 ^ 32

/-- Elements of the factor sum that an operation reads: O × r for ORTHO, I × r for NORM and UPDATE. -/
def LuOp.sumElems (o : LuOp) (x : Layer) : Nat := x.rank * (if o.kind = 1 then x.rows else x.cols)

/-- The checks of a landing descriptor by itself, with byte offsets (R347). -/
def luChecks (layers : Nat) (o : LuOp) : List (Bool × Nat) :=
  let k := o.kind
  let nop := k == 0
  [(decide (3 < k), 7), (nop && o.layer != 0, 5), (!nop && decide (layers ≤ o.layer), 5), (bits (o.w 0) 43 0 != 0, 0),
   (nop && o.step != 0, 8), (decide (k ≤ 1) && o.divisor != 0, 20),
   (decide (2 ≤ k) && !(decide (1 ≤ o.divisor) && decide (o.divisor ≤ 16384)), 20), (bits (o.w 2) 31 0 != 0, 16),
   (nop && o.src != 0, 24), (o.src % 64 != 0, 24), (decide (k ≤ 1) && o.aux != 0, 32), (o.aux % 8 != 0, 32),
   (o.waitAddr % 4 != 0, 40), (bits (o.w 6) 31 0 != 0, 48), (o.w 7 != 0, 56)]

/-- A landing operation from 64 bytes, waiting. -/
def newLuOp (index : Nat) (raw : List Byte) : LuOp :=
  { index := index, words := (List.range 8).map fun k => fieldOf raw (8 * k) 8, lu := 0, done := false, completed := false,
    status := 0, detail := 0, addr := 0 }

/-- The first byte of the moment area of LUu (R357). DEDUCED: log entry 92. DESIGN CHOICE: log entry 128. -/
def momentStart (s : State) (u : Nat) : Nat := stageBytes - 2 ^ 20 * s.num 0x3811 (u + 1)

/-- The operation ends with MALFORMED at a field. -/
def LuOp.bad (o : LuOp) (off : Nat) : LuOp := { o with done := true, status := 1, detail := off }

/-- The operation ends with a failed access. -/
def LuOp.failed (o : LuOp) (a : Acc) (addr : Nat) : LuOp := { o with done := true, status := a.status, addr := addr }

/-- The layer descriptor of an operation (R328). -/
def layerAddr (s : State) (j : Nat) (o : LuOp) : Nat := s.num 0x3805 (j + 1) + 128 * o.layer

/-- The operation as it stands when it is taken: waiting on the landing unit that its layer's PATH names, or ended there at once (R330,
R347 to R349, R357): one that is malformed ends without its WAIT, and does not wait for earlier ones. DESIGN CHOICE: log entry 142. -/
def admitLu (j : Nat) (o : LuOp) (s : State) : LuOp × State :=
  let layers := s.num 0x3806 (j + 1)
  let bad := lowestBad (luChecks layers o)
  if o.kind = 0 ∨ layers ≤ o.layer then (match bad with | some off => o.bad off | none => o, s)
  else match jobRead j (layerAddr s j o) 128 s with
    | (.ok l, s) =>
      let x := layerOf l
      let p := (s.topo j).path x.path
      let known := layerOk l && x.owner == (s.job j).desc.device && p.kind != 0
      let o := if p.kind = 0 then o else { o with lu := p.lu }
      match bad with
      | some off => (o.bad off, s)
      | none =>
        if !known then (o.bad 5, s)
        else if momentStart s p.lu < o.src + 66 * ceilDiv (o.sumElems x) 32 then (o.bad 24, s)
        else (o, s)
    | (g, s) => (match bad with | some off => o.bad off | none => o.failed g.acc (layerAddr s j o), s)

/-! ### The landing queue (R346, R348) -/

/-- The landing queue has a size that R364 allows. -/
def luQueueOn (s : State) (j : Nat) : Bool :=
  let b := s.num 0x3807 (j + 1) % 32
  decide (6 ≤ b) && decide (b ≤ 16)

/-- Slots of the landing queue, its base, and the landing shadow. -/
def luSlots (s : State) (j : Nat) : Nat := 2 ^ (s.num 0x3807 (j + 1) % 32)
def luBase (s : State) (j : Nat) : Nat := s.num 0x3807 (j + 1) / 4096 * 4096
def luShadow (s : State) (j : Nat) : Nat := s.num 0x3808 (j + 1)

/-- The landing queue runs. DEDUCED: log entry 89. -/
def luRunning (s : State) (j : Nat) : Bool := s.num 0x3812 (j + 1) % 4 == 1

/-- A structure of the landing queue that cannot be read or written: the queue stops, and the job faults (R588). -/
def luQueueFail (j : Nat) (a : Acc) (addr : Nat) (s : State) : State := accessFault j a addr (stopLanding j a.status s)

/-- A write into the landing shadow (R346, R588). -/
def luPut (j off v : Nat) (s : State) : State :=
  let a := luShadow s j + off
  match putStruct j a (leBytes 4 v) s with
  | (.ok, s) => s
  | (e, s) => luQueueFail j e a s

/-- A queue that stops is reported (R346, R349). -/
def luStopped (j lu index status off : Nat) (s : State) : State :=
  if luRunning s j then
    post 0x3821 (src 5 lu) j [(1, j), (4, index), (1, status), (2, off)] (stopLanding j status s)
  else s

/-- The job of a landing queue that has stopped faults where STATE could not be written (R588). `was` is the state before. -/
def luStateFault (j : Nat) (was s : State) : State :=
  let a := luShadow was j + 8
  if luRunning was j && !structOk was j a 4 then accessFault j .access a s else s

/-- One descriptor is taken: CONS advances, and its operation joins the queue (R348). -/
def takeLuOne (j : Nat) (s : State) : State :=
  let x := s.job j
  let a := luBase s j + 64 * (x.luCons % luSlots s j)
  match jobRead j a 64 s with
  | (.ok l, s) =>
    let r := admitLu j (newLuOp x.luCons l) s
    let v := add32 x.luCons 1
    let s := r.2.setJob j { r.2.job j with luCons := v, luOps := (r.2.job j).luOps ++ [r.1] }
    luPut j 0 v s
  | (g, s) => luQueueFail j g.acc a s

/-- Descriptors announced are taken in queue order, while the job takes work and the queue runs. -/
def takeLu (j : Nat) : Nat → State → State
  | 0, s => s
  | n + 1, s =>
    if takesWork s j && luRunning s j && luQueueOn s j && (s.job j).luProd != (s.job j).luCons then takeLu j n (takeLuOne j s)
    else s

/-- Every descriptor announced is taken. DEDUCED: log entry 92. -/
def takeLuAll (j : Nat) (s : State) : State := takeLu j (sub32 (s.job j).luProd (s.job j).luCons) s

/-- A landing doorbell (R135, R346). -/
def ringLu (j value : Nat) (s : State) : State :=
  let x := s.job j
  let p := value % 2 ^ 32
  if !(isRunning s j && luQueueOn s j && luRunning s j) then s
  else if luSlots s j < sub32 p x.luCons then luStateFault j s (luStopped j 0 x.luCons 1 0 s)
  else takeLuAll j (s.setJob j { x with luProd := p })

/-- LU_DOORBELL (R346). -/
def execLuDoorbell (job value : Nat) (s : State) : Host.Outcome State Fault Refusal :=
  forUnit (Instr.wf (.luDoorbell job value)) (ringLu job value s)

/-- The state with a landing operation replaced. -/
def putLu (j : Nat) (o : LuOp) (s : State) : State :=
  let x := s.job j
  s.setJob j { x with luOps := x.luOps.map fun p => if p.index = o.index then o else p }

/-- The operation that a landing unit has reached in the queue of a job: the first that has not completed (R348). -/
def luHead (s : State) (j u : Nat) : Option LuOp := (s.job j).luOps.find? fun o => o.lu == u && !o.completed

/-- The operation of a kind that a landing unit may start: it has been reached and has not ended, and the queue runs. Where
both units have reached one, it is one whose WAIT is met (R348). -/
def luReady (s : State) (j kind : Nat) : Option LuOp :=
  if takesWork s j && luRunning s j then
    let l := ((List.range 2).filterMap (luHead s j)).filter fun o => o.kind == kind && !o.done
    (l.find? fun o => waitLooks s j o.waitAddr o.waitVal).or l.head?
  else none

/-- An operation of a kind runs once its WAIT is met (R138, R348, R349). DEDUCED: log entry 89. -/
def runLu (kind j : Nat) (work : LuOp → State → State) (s : State) : State :=
  let s := takeLuAll j s
  match luReady s j kind with
  | none => s
  | some o => match waitRead j o.waitAddr o.waitVal s with
    | (.error a, s) => putLu j (o.failed a o.waitAddr) s
    | (.ok true, s) => work o s
    | (.ok false, s) => s

/-- An operation has done its work. -/
def endLu (j : Nat) (o : LuOp) (s : State) : State := putLu j { o with done := true } s

/-- LU_NOP (R347). -/
def execLuNop (job : Nat) (s : State) : Host.Outcome State Fault Refusal :=
  forUnit (Instr.wf (.luNop job)) (runLu 0 job (endLu job) s)

/-! ### Operands -/

/-- How the work of an operation ends when it cannot go on. -/
structure LuBad where
  acc : Acc
  addr : Nat
  /-- The field that makes it malformed, instead of a failed access. -/
  field : Option Nat
  deriving DecidableEq, Repr

/-- Master weights and moments of a layer are unspecified (R215, R359). DEDUCED: log entry 70. -/
def spoilLayer (j : Nat) (x : Layer) (s : State) : State :=
  let n := x.elems
  spoil j ((if x.split then [(x.master, 2 * n), (x.sapwood, 2 * n)] else [(x.master, 4 * n)])
    ++ [(x.mBase, 4 * n), (x.vBase, 4 * n)]) s

/-- The operation ends as the failure says; poisoned data leaves the layer's memory unspecified (R215).
DEDUCED: log entry 70. -/
def failLu (j : Nat) (o : LuOp) (e : LuBad) (s : State) : State :=
  let s := if e.field.isNone ∧ e.acc = .poison then spoilLayer j (layerOf (peekMem s (layerAddr s j o) 128)) s else s
  putLu j (match e.field with | some off => o.bad off | none => o.failed e.acc e.addr) s

/-- A read that a landing operation makes. -/
def luRead (j a n : Nat) (s : State) : Except LuBad (List Byte) × State :=
  match jobRead j a n s with
  | (.ok l, s) => (.ok l, s)
  | (g, s) => (.error ⟨g.acc, a, none⟩, s)

/-- The writes of a landing operation, in order; none is made unless every one can be (R372). DEDUCED: log entry 89. -/
def luWrite (j : Nat) (l : List (Nat × List Byte)) (s : State) : Option LuBad × State :=
  match placeStores j l s with
  | (none, s) => (none, s)
  | (some a, s) => (some ⟨.access, a, none⟩, s)

/-- The layer of an operation as it now stands, read for its work. DEDUCED: log entry 91. -/
def luLayer (j : Nat) (o : LuOp) (s : State) : Except LuBad Layer × State :=
  match luRead j (layerAddr s j o) 128 s with
  | (.ok l, s) =>
    if layerOk l && (layerOf l).owner == (s.job j).desc.device then (.ok (layerOf l), s) else (.error ⟨.ok, 0, some 5⟩, s)
  | (.error e, s) => (.error e, s)

/-- The blocks of the factor sum of an operation (R309). -/
def sumBlocks (s : State) (o : LuOp) (n : Nat) : List Block :=
  let l := stageRead s o.lu o.src (66 * ceilDiv n 32)
  (List.range (ceilDiv n 32)).map fun b => readTransit (sliceOf l (66 * b) 66)

/-- The highest exponent field of the blocks (R331). -/
def topExp (l : List Block) : Nat := (l.map fun b => b.scale % 128).foldl max 0

/-- The n elements of blocks as binary32 codes, with exponents counted from a base (R336, R350). -/
def sumCodes (base : Int) (n : Nat) (l : List Block) : List Nat :=
  (l.flatMap fun b => b.codes.map fun c =>
    (encodeF b32 .rne (scaleBy ((b.scale % 128 : Nat) - base) (ofInt (signedOf 16 c)))).code).take n

/-- A list cut into rows of a width. -/
def rowsOf (width : Nat) : Nat → List Nat → List (List Nat)
  | 0, _ => []
  | k + 1, l => l.take width :: rowsOf width k (l.drop width)

/-- A QW16 code read exactly as binary32 (R350). -/
def qwToB32 (c : Nat) : Nat := (encodeF b32 .rne (decodeF qw16 c)).code

/-- Column k of a matrix given by its rows. -/
def columnOf (k : Nat) (rows : List (List Nat)) : List Nat := rows.map fun r => lget 0 r k

/-- ORTHO recorded the layer as void for this step (R356). -/
def orthoVoid (s : State) (j : Nat) (o : LuOp) : Bool := (s.job j).luVoid.contains (o.layer, o.step)

/-! ### ORTHO (R336, R337) -/

/-- One column of the basis: made orthogonal to the earlier ones, and divided by its length (R336). Columns are QW16
codes. -/
def orthoColumn (done : List (List Nat)) (p : List Nat) : List Nat :=
  let p := done.foldl (fun p b =>
    let b := b.map qwToB32
    let d := negF32 (fixedSum (List.zipWith mulF32 b p))
    List.zipWith (fun x y => fmaF32 d x y) b p) p
  let t := fixedSum (p.map fun x => mulF32 x x)
  if posF32 t then
    let r := sqrtF32 t
    p.map fun x => (encodeF qw16 .rne (decodeF b32 (divF32 x r))).code
  else List.replicate p.length 0

/-- The columns of the basis (R336). -/
def orthoColumns (cols : List (List Nat)) : List (List Nat) := cols.foldl (fun l p => l ++ [orthoColumn l p]) []

/-- The bytes of the basis: B by rows padded to its stride, then BT (R337). -/
def basisBytes (x : Layer) (cols : List (List Nat)) : List Byte :=
  ((List.range x.rows).flatMap fun o => padTo (cols.flatMap fun c => leBytes 2 (lget 0 c o)) x.rsb)
    ++ cols.flatMap fun c => c.flatMap (leBytes 2)

/-- ORTHO is done: the void record of its layer follows (R336, R356). DEDUCED: log entry 91. -/
def noteVoid (j : Nat) (o : LuOp) (void : Bool) (s : State) : State :=
  let x := s.job j
  let rest := x.luVoid.filter fun e => e.1 != o.layer
  s.setJob j { x with luVoid := if void then rest ++ [(o.layer, o.step)] else rest }

/-- The work of an ORTHO. -/
def orthoWork (j : Nat) (o : LuOp) (s : State) : State :=
  match luLayer j o s with
  | (.error e, s) => failLu j o e s
  | (.ok x, s) =>
    let n := x.rows * x.rank
    let blocks := sumBlocks s o n
    let void := blocks.any Block.poisoned
    let xmax := topExp blocks
    let rows := rowsOf x.rank x.rows (sumCodes xmax n blocks)
    let cols := if void then List.replicate x.rank (List.replicate x.rows 0)
      else orthoColumns ((List.range x.rank).map fun k => columnOf k rows)
    let record : List (Nat × List Byte) :=
      (if void then [(x.stateAddr + 12, leBytes 1 1)] else []) ++ [(x.stateAddr + 13, leBytes 1 xmax)]
    match luWrite j ((x.basis, basisBytes x cols) :: record ++ [(x.stateAddr + 4, leBytes 4 o.step32)]) s with
    | (some e, s) => failLu j o e s
    | (none, s) => endLu j o (noteVoid j o void s)

/-- ORTHO (R336). -/
def execOrtho (job : Nat) (s : State) : Host.Outcome State Fault Refusal :=
  forUnit (Instr.wf (.ortho job)) (runLu 1 job (orthoWork job) s)

/-! ### The rebuilt gradient (R351) -/

/-- The rows of B as binary32 (R337, R351). -/
def readBasis (j : Nat) (x : Layer) (s : State) : Except LuBad (List (List Nat)) × State :=
  match luRead j x.basis (x.rows * x.rsb) s with
  | (.ok l, s) =>
    (.ok ((List.range x.rows).map fun o => (List.range x.rank).map fun k => qwToB32 (fieldOf l (o * x.rsb + 2 * k) 2)), s)
  | (.error e, s) => (.error e, s)

/-- One element of the gradient: (Σ B[o][k] × QS[i][k] / M) × c (R351). -/
def gradElem (m c : Nat) (b q : List Nat) : Nat :=
  mulF32 (divF32 ((List.zip b q).foldl (fun a e => fmaF32 e.1 e.2 a) 0) m) c

/-- The gradient in row-major order. -/
def gradients (m c : Nat) (basis qs : List (List Nat)) : List Nat := basis.flatMap fun b => qs.map fun q => gradElem m c b q

/-- The second-factor sum: its rows as exact binary32 (R350). -/
def secondSum (x : Layer) (blocks : List Block) : List (List Nat) :=
  rowsOf x.rank x.cols (sumCodes 63 (x.cols * x.rank) blocks)

/-! ### NORM (R360) -/

/-- The squared norm of the gradient with c 1.0, or +0 for a void layer. -/
def normValue (j : Nat) (o : LuOp) (x : Layer) (s : State) : Except LuBad Nat × State :=
  let blocks := sumBlocks s o (x.cols * x.rank)
  if blocks.any Block.poisoned || orthoVoid s j o then (.ok 0, s)
  else match readBasis j x s with
    | (.error e, s) => (.error e, s)
    | (.ok b, s) =>
      (.ok (fixedSum ((gradients (natF32 o.divisor) oneF32 b (secondSum x blocks)).map fun g => mulF32 g g)), s)

/-- The work of a NORM: the norm word and GNORM2 (R347, R360). -/
def normWork (j : Nat) (o : LuOp) (s : State) : State :=
  match luLayer j o s with
  | (.error e, s) => failLu j o e s
  | (.ok x, s) => match normValue j o x s with
    | (.error e, s) => failLu j o e s
    | (.ok t, s) =>
      match luWrite j [(x.stateAddr + 20, leBytes 4 t), (o.aux, leBytes 4 t ++ leBytes 4 o.step32)] s with
      | (some e, s) => failLu j o e s
      | (none, s) => endLu j o s

/-- NORM (R360). -/
def execNorm (job : Nat) (s : State) : Host.Outcome State Fault Refusal :=
  forUnit (Instr.wf (.norm job)) (runLu 2 job (normWork job) s)

/-! ### UPDATE (R350 to R359) -/

/-- The clip factor: 1.0 without a clip word, and else its value, when its step is the step of the operation (R349,
R351). -/
def clipFactor (j : Nat) (o : LuOp) (s : State) : Except LuBad Nat × State :=
  if o.aux = 0 then (.ok oneF32, s)
  else match luRead j o.aux 8 s with
    | (.ok l, s) => (if fieldOf l 4 4 = o.step32 then .ok (fieldOf l 0 4) else .error ⟨.ok, 0, some 32⟩, s)
    | (.error e, s) => (.error e, s)

/-- n numbers of a width from an address. -/
def readCodes (j width a n : Nat) (s : State) : Except LuBad (List Nat) × State :=
  match luRead j a (width * n) s with
  | (.ok l, s) => (.ok ((List.range n).map fun i => fieldOf l (width * i) width), s)
  | (.error e, s) => (.error e, s)

/-- The master weights as QW32 codes, from either layout (R42). -/
def readMaster (j : Nat) (x : Layer) (s : State) : Except LuBad (List Nat) × State :=
  if x.split then
    match readCodes j 2 x.master x.elems s with
    | (.error e, s) => (.error e, s)
    | (.ok hi, s) => match readCodes j 2 x.sapwood x.elems s with
      | (.error e, s) => (.error e, s)
      | (.ok lo, s) => (.ok (List.zipWith (fun h l => h * 2 ^ 16 + l) hi lo), s)
  else readCodes j 4 x.master x.elems s

/-- What one element of pass 1 forms (R351): m1, v1, wf and u. -/
structure Formed where
  m1 : Nat
  v1 : Nat
  wf : Nat
  u : Nat
  deriving DecidableEq, Repr

/-- One element: its gradient, master weight and moments, under the bias factors (R351). -/
def formElem (x : Layer) (bc1 bc2 g w m v : Nat) : Formed :=
  let m1 := fmaF32 (subF32 oneF32 x.beta1) g (mulF32 x.beta1 m)
  let v1 := fmaF32 (subF32 oneF32 x.beta2) (mulF32 g g) (mulF32 x.beta2 v)
  let wf := (encodeF b32 .rne (decodeF qw32 w)).code
  { m1 := m1, v1 := v1, wf := wf,
    u := fmaF32 x.lambda wf (divF32 (mulF32 m1 bc1) (addF32 (sqrtF32 (mulF32 v1 bc2)) x.eps)) }

/-- Every element, in row-major order. -/
def formAll (x : Layer) (bc1 bc2 : Nat) : List Nat → List Nat → List Nat → List Nat → List Formed
  | g :: gs, w :: ws, m :: ms, v :: vs => formElem x bc1 bc2 g w m v :: formAll x bc1 bc2 gs ws ms vs
  | _, _, _, _ => []

/-- The trust ratio (R353). -/
def trustRatio (x : Layer) (w2 u2 : Nat) : Nat :=
  if posF32 w2 && posF32 u2 then
    let r := divF32 (sqrtF32 w2) (sqrtF32 u2)
    if r ≤ x.trustMax then r else x.trustMax
  else oneF32

/-- The largest finite QW32 code, with a sign. DEDUCED: log entry 90. -/
def qw32Max (neg : Bool) : Nat := b2n neg * 2 ^ 31 + 0x7EFFFFFF

/-- The new master weight, and whether it saturated (R354). A d that is infinite saturates it, and a NaN is written as the
canonical one (R350). DEDUCED: log entry 90. -/
def newWeight (w d : Nat) : Nat × Bool :=
  match decodeF qw32 w, decodeF b32 d with
  | .fin a m e, .fin b n f =>
    if m = 0 ∧ n = 0 then (b2n (a && !b) * 2 ^ 31, false)
    else
      let x := ((FV.fin a m e).toX).plus (FV.fin (!b) n f).toX
      if x.i = 0 then (0, false)
      else
        let c := (encodeF qw32 .rne x.toF).code
        if decodeF qw32 c = .inf (decide (x.i < 0)) then (qw32Max (decide (x.i < 0)), true) else (c, false)
  | _, .inf b => (qw32Max (!b), true)
  | _, _ => (nanOf qw32, false)

/-- The bytes written for the master weights (R40, R42, R358). -/
def masterWrites (x : Layer) (l : List Nat) : List (Nat × List Byte) :=
  let hi := l.flatMap fun c => leBytes 2 (c / 2 ^ 16)
  if x.split then [(x.master, hi), (x.sapwood, l.flatMap (leBytes 2))]
  else [(x.master, l.flatMap (leBytes 4)), (x.hwOut, hi)]

/-- The main path is open to an UPDATE (R357). -/
def mainPath (s : State) (o : LuOp) (x : Layer) : Bool :=
  o.aux == 0 && decide (8 * x.elems ≤ 2 ^ 20 * s.num 0x3811 (o.lu + 1))

/-- The fall-back path is counted (R365). DEDUCED: log entry 93. -/
def countFallback (j : Nat) (main : Bool) (s : State) : State := if main then s else count 0x5876 (j + 1) 1 s

/-- A void UPDATE (R356): under policy FAULT the job faults; otherwise STATUS, UPDATE_DONE, and the heartwood of unchanged
weights in layout 0. DEDUCED: log entry 91. -/
def voidUpdate (j : Nat) (o : LuOp) (x : Layer) (cause xq : Nat) (main : Bool) (master : List Nat) (flags : Nat)
    (s : State) : State :=
  if s.num 0x380E (j + 1) = 2 then jobFault j 0x18 (s.job j).desc.device noSubject s
  else
    let heart := if x.split then [] else [(x.hwOut, master.flatMap fun c => leBytes 2 (c / 2 ^ 16))]
    let record := [(x.stateAddr + 12, leBytes 1 cause), (x.stateAddr + 14, leBytes 1 xq),
      (x.stateAddr + 15, leBytes 1 (flags / 4 % 2 * 4 + b2n (!main)))]
    match luWrite j (heart ++ record ++ [(x.stateAddr + 8, leBytes 4 o.step32)]) s with
    | (some e, s) => failLu j o e s
    | (none, s) =>
      endLu j o (post 0x3822 (src 5 o.lu) j [(1, j), (2, o.layer), (8, o.step), (1, cause)]
        (countFallback j main (count 0x5877 (j + 1) 1 s)))

/-- The second pass of an UPDATE that is applied (R354, R355, R358); one that is interrupted leaves the layer's memory
unspecified (R359). -/
def applyUpdate (j : Nat) (o : LuOp) (x : Layer) (t xq : Nat) (main : Bool) (master : List Nat) (formed : List Formed)
    (trust flags : Nat) (s : State) : State :=
  let scale := mulF32 x.eta trust
  let new := List.zipWith (fun w f => newWeight w (mulF32 scale f.u)) master formed
  let sat := new.any (·.2)
  let stuck := decide (t = 0xFFFFFFFF)
  let t1 := if stuck then t else t + 1
  let fl := (b2n (stuck || bit flags 2)) * 4 + b2n sat * 2 + b2n (!main)
  let record := [(x.stateAddr, leBytes 4 t1), (x.stateAddr + 12, leBytes 1 0), (x.stateAddr + 14, leBytes 1 xq),
    (x.stateAddr + 15, leBytes 1 fl), (x.stateAddr + 16, leBytes 4 trust)]
  let moments := [(x.mBase, formed.flatMap fun f => leBytes 4 f.m1), (x.vBase, formed.flatMap fun f => leBytes 4 f.v1)]
  match luWrite j (masterWrites x (new.map (·.1)) ++ moments ++ record ++ [(x.stateAddr + 8, leBytes 4 o.step32)]) s with
  | (some e, s) => failLu j o e (spoilLayer j x s)
  | (none, s) =>
    let s := countFallback j main (count 0x5875 (j + 1) 1 s)
    let s := if sat then post 0x3823 (src 5 o.lu) j [(1, j), (2, o.layer), (8, o.step)] s else s
    let s := if stuck && !bit flags 2 then post 0x3824 (src 5 o.lu) j [(1, j), (2, o.layer)] s else s
    endLu j o s

/-- The main path keeps m1 and then v1 in the moment area of its landing unit between the passes (R357, R358).
DESIGN CHOICE: log entry 128. -/
def keepMoments (u : Nat) (formed : List Formed) (s : State) : State :=
  stagePut u (momentStart s u) ((formed.flatMap fun f => leBytes 4 f.m1) ++ formed.flatMap fun f => leBytes 4 f.v1) s

/-- The first pass: the elements formed, W2 and U2 decide whether the step is void (R353, R356). -/
def firstPass (j : Nat) (o : LuOp) (x : Layer) (c xq : Nat) (main : Bool) (master st : List Nat) (s : State) : State :=
  let t := lget 0 st 0
  let flags := lget 0 st 3 / 2 ^ 24
  let t1 := if t = 0xFFFFFFFF then t else t + 1
  match readBasis j x s with
  | (.error e, s) => failLu j o e s
  | (.ok b, s) => match readCodes j 4 x.mBase x.elems s with
    | (.error e, s) => failLu j o e s
    | (.ok ms, s) => match readCodes j 4 x.vBase x.elems s with
      | (.error e, s) => failLu j o e s
      | (.ok vs, s) =>
        let g := gradients (natF32 o.divisor) c b (secondSum x (sumBlocks s o (x.cols * x.rank)))
        let formed := formAll x (biasFactor x.beta1 t1) (biasFactor x.beta2 t1) g master ms vs
        let w2 := fixedSum (formed.map fun f => mulF32 f.wf f.wf)
        let u2 := fixedSum (formed.map fun f => mulF32 f.u f.u)
        let s := if main then keepMoments o.lu formed s else s
        if finF32 w2 && finF32 u2 && formed.all (fun f => finF32 f.u) then
          applyUpdate j o x t xq main master formed (trustRatio x w2 u2) flags s
        else voidUpdate j o x 2 xq main master flags s

/-- The work of an UPDATE. -/
def updateWork (j : Nat) (o : LuOp) (s : State) : State :=
  match luLayer j o s with
  | (.error e, s) => failLu j o e s
  | (.ok x, s) => match clipFactor j o s with
    | (.error e, s) => failLu j o e s
    | (.ok c, s) => match readCodes j 4 x.stateAddr 16 s with
      | (.error e, s) => failLu j o e s
      | (.ok st, s) => match readMaster j x s with
        | (.error e, s) => failLu j o e s
        | (.ok master, s) =>
          let blocks := sumBlocks s o (x.cols * x.rank)
          let xq := topExp blocks
          let main := mainPath s o x
          let flags := lget 0 st 3 / 2 ^ 24
          if blocks.any Block.poisoned || orthoVoid s j o then voidUpdate j o x 1 xq main master flags s
          else if !finF32 c then voidUpdate j o x 2 xq main master flags s
          else firstPass j o x c xq main master st s

/-- UPDATE (R351). -/
def execUpdate (job : Nat) (s : State) : Host.Outcome State Fault Refusal :=
  forUnit (Instr.wf (.update job)) (runLu 3 job (updateWork job) s)

/-! ### Completion (R346, R349) -/

/-- What a status does to the queue and the job (R349, R557). DEDUCED: log entry 92. -/
def luEffect (j : Nat) (o : LuOp) (s : State) : State :=
  if 1 ≤ o.status ∧ o.status ≤ 3 then
    let off := if o.status = 1 then o.detail else 0
    luStateFault j s
      (jobFault j (0x20 + o.status) (if o.status = 1 then off else o.addr / 64) noSubject (luStopped j o.lu o.index o.status off s))
  else s

/-- The leading completed operations leave the queue; it answers how many. -/
def retireLu : List LuOp → Nat → List LuOp × Nat
  | o :: r, k => if o.completed then retireLu r (k + 1) else (o :: r, k)
  | [], k => ([], k)

/-- The result that an ORTHO or an UPDATE has read gives its staging bytes back (R357). DEDUCED: log entry 80. -/
def dropResult (j : Nat) (o : LuOp) (s : State) : State :=
  if o.kind = 1 ∨ o.kind = 3 then
    let rest := s.stageResults.filter fun e => !(e.1 == o.lu && e.2.1 == j && e.2.2.1 == o.src)
    { s with stageResults := rest }
  else s

/-- The oldest operation whose work has ended completes: RETIRED advances over the leading completed ones (R346). -/
def completeLu (j : Nat) (s : State) : State :=
  match (s.job j).luOps.find? fun o => o.done && !o.completed with
  | none => s
  | some o =>
    let s := luEffect j o (dropResult j o (putLu j { o with completed := true } s))
    let x := s.job j
    let x := if o.kind = 3 ∧ o.status = 0 then { x with lastStep := max x.lastStep o.step } else x
    let r := retireLu x.luOps 0
    let v := add32 x.luRetired r.2
    let s := s.setJob j { x with luOps := r.1, luRetired := v }
    if r.2 = 0 then s else luPut j 4 v s

/-- LANDING_OPERATION_COMPLETE (R346). -/
def execLandingOperationComplete (job : Nat) (s : State) : Host.Outcome State Fault Refusal :=
  forUnit (Instr.wf (.landingOperationComplete job)) (completeLu job s)

end Sys2Proof.Machine
end

