-- ==== Sys2Proof/Machine/Journal.lean ====
section
/-!
DEFINITION. Machine/Journal.lean: the journal of a job: its records and shadow (R393 to R396), the peer mirror (R566 to R568),
the repair at a restart (R564), and the READY that follows it (R391).
-/

namespace Sys2Proof.Machine

/-! ### Records (R393) -/

/-- Bytes of a record with a payload of len bytes. -/
def recLen (len : Nat) : Nat := 64 + roundUp len 64

/-- W0 to W2 of a record. -/
def recHead (seq kind len source : Nat) : List Byte :=
  leBytes 8 seq ++ leBytes 8 (kind * 2 ^ 56 + len) ++ leBytes 8 (source * 2 ^ 50)

/-- A record: header with its CRC, and the payload padded with 0 (R393). -/
def recBytes (seq kind source : Nat) (payload : List Byte) : List Byte :=
  let h := recHead seq kind payload.length source
  padTo (padTo (h ++ leBytes 8 (crc32 (h ++ payload) * 2 ^ 32)) 64 ++ payload) (recLen payload.length)

/-- The record of a sequence number stands at an offset: its length, when the header names it, it lies in the ring, and its
CRC is good. `look` gives bytes from an offset of the ring, or nothing where they cannot be used. -/
def recAt (look : Nat → Nat → Option (List Byte)) (size seq off : Nat) : Option Nat :=
  match look off 64 with
  | none => none
  | some h =>
    let len := fieldOf h 8 4
    if fieldOf h 0 8 = seq ∧ fieldOf h 15 1 ≠ 0 ∧ off + recLen len ≤ size then
      match look (off + 64) (roundUp len 64) with
      | none => none
      | some p => if crc32 (h.take 24 ++ p.take len) = fieldOf h 28 4 then some (recLen len) else none
    else none

/-- The first of n offsets, 64 bytes apart, at which a test succeeds. DEDUCED: log entry 101. -/
def searchFrom {α : Type} (p : Nat → Option α) : Nat → Nat → Option (Nat × α)
  | 0, _ => none
  | f + 1, i => match p (64 * i) with
    | some v => some (64 * i, v)
    | none => searchFrom p f (i + 1)

/-- Where the record of a sequence number stands in a ring: its offset and length. -/
def findRec (look : Nat → Nat → Option (List Byte)) (size seq : Nat) : Option (Nat × Nat) :=
  searchFrom (recAt look size seq) (size / 64) 0

/-- Bytes of a ring in device memory, when they can be read and are not poisoned. -/
def ringLook (s : State) (base off n : Nat) : Option (List Byte) :=
  let a := base + off
  if rangeOk s a n && (List.range ((a % 64 + n + 63) / 64)).all (fun i =>
      let line := (a / 64 + i) * 64
      match latestHeld s line with
      | some d => !d.2
      | none => !isPoisoned s line)
  then some (peekMem s a n) else none

/-! ### Shadow and trim point (R395, R396) -/

/-- Bytes of each copy of the journal of job j. DESIGN CHOICE: log entry 27. -/
def journalSize (s : State) (j : Nat) : Nat := 2 ^ (s.job j).desc.journalLog2

/-- ACKED_SEQ of a job (R403). -/
def ackedSeq (s : State) (j : Nat) : Nat := s.num (jobIx j 6) 4

/-- TRIM_SEQ (R396). -/
def trimSeq (s : State) (j : Nat) : Nat := min (s.num (jobIx j 6) 2) (ackedSeq s j)

/-- The journal shadow is written (R395). -/
def putJournalShadow (j : Nat) (s : State) : State :=
  let x := (s.job j).front
  (placeStores j [((s.job j).desc.journalShadow,
    padTo (leBytes 8 x.appended ++ leBytes 8 x.trimmed ++ leBytes 8 (lastSeq s j) ++ leBytes 8 (trimSeq s j)) 64)] s).2

/-- Records at or below TRIM_SEQ give their space back (R396). -/
def trimJournal (j : Nat) (s : State) : State :=
  let x := s.job j
  let gone := x.front.records.filter fun r => decide (r.1 ≤ trimSeq s j)
  let rest := x.front.records.filter fun r => !decide (r.1 ≤ trimSeq s j)
  let t := match gone.getLast? with
    | some r => r.2.1 + r.2.2
    | none => x.front.trimmed
  s.setJob j { x with front := { x.front with records := rest, trimmed := t } }

/-! ### Mirror (R566 to R568) -/

/-- The peer mirror of a job is on, and the peer's device index (R566). -/
def mirrorOn (s : State) (j : Nat) : Bool := s.num (jobIx j 8) 1 % 2 ^ 14 != 0x3FFF
def mirrorDev (s : State) (j : Nat) : Nat := s.num (jobIx j 8) 1 % 2 ^ 14
def mirrorBase (s : State) (j : Nat) : Nat := s.num (jobIx j 8) 2

/-- Bytes from an address, cut at the ends of pages of 4096 bytes (R274). -/
def pageCuts : Nat → Nat → List Byte → List (Nat × List Byte)
  | 0, _, _ => []
  | f + 1, a, l => match l with
    | [] => []
    | _ =>
      let n := 4096 - a % 4096
      (a, l.take n) :: pageCuts f (a + n) (l.drop n)

/-- Journal bytes written to the mirror at a ring offset (R567). -/
def mirrorPut (j off : Nat) (l : List Byte) (s : State) : State :=
  if mirrorOn s j then
    (pageCuts (l.length / 4096 + 2) (mirrorBase s j + off) l).foldl (fun s c =>
      sendRemote (.mirror j) j (mirrorDev s j) 4 c.1 c.2.length c.2 s) s
  else s

/-- The whole mirror is read by RD_REQ frames (R564, R568). -/
def mirrorRead (j : Nat) (s : State) : State :=
  (List.range (journalSize s j / 4096)).foldl (fun s i =>
    sendRemote (.mirror j) j (mirrorDev s j) 2 (mirrorBase s j + 4096 * i) 4096 [] s) s

/-- Mirror requests of a job: reads or writes. -/
def mirrorReqs (s : State) (j : Nat) (reads : Bool) : List Remote :=
  s.fab.remotes.filter fun r => r.owner == .mirror j && r.isRead == reads

/-- Bytes of the mirror as its reads brought them, where none is poisoned. DEDUCED: log entry 101. -/
def mirrorLook (s : State) (j off n : Nat) : Option (List Byte) :=
  let byte : Nat → Option Byte := fun o =>
    match (mirrorReqs s j true).find? fun r => r.addr == mirrorBase s j + o / 4096 * 4096 with
    | some r => match r.answer with
      | some (true, l, m) => if bit m (o % 4096 / 64) then none else l[o % 4096]?
      | _ => none
    | none => none
  ((List.range n).map (off + ·)).mapM byte

/-! ### Appending a record (R393, R395, R396, R567) -/

/-- The padding before a record of n bytes, so that it does not wrap (R284, R393). -/
def padBefore (size at_ n : Nat) : Nat := if size < at_ % size + n then size - at_ % size else 0

/-- A record of n bytes fits in the ring space above TRIM_SEQ (R396). -/
def journalFits (s : State) (j n : Nat) : Bool :=
  let x := (s.job j).front
  let size := journalSize s j
  decide (x.appended + padBefore size x.appended n + n ≤ x.trimmed + size)

/-- Bytes written at a ring offset of both copies and of the mirror; it answers the address that cannot be written. -/
def journalPut (j off : Nat) (l : List Byte) (s : State) : Option Nat × State :=
  let d := (s.job j).desc
  match placeStores j [(d.journalA + off, l), (d.journalB + off, l)] s with
  | (none, s) => (none, mirrorPut j off l s)
  | e => e

/-- A pad record that fills the ring to its end (R284, R393). DEDUCED: log entry 101. -/
def padRecord (n : Nat) : List Byte := padTo (recBytes 0 0 0 []) n

/-- A record is appended; it answers the address that cannot be written. -/
def appendRecord (j seq : Nat) (l : List Byte) (s : State) : Option Nat × State :=
  let size := journalSize s j
  let pos := (s.job j).front.appended
  let pad := padBefore size pos l.length
  let r := if pad = 0 then (none, s) else journalPut j (pos % size) (padRecord pad) s
  match r with
  | (some a, s) => (some a, s)
  | (none, s) => match journalPut j ((pos + pad) % size) l s with
    | (some a, s) => (some a, s)
    | (none, s) =>
      let x := s.job j
      (none, s.setJob j { x with front := { x.front with
        appended := pos + pad + l.length, records := x.front.records ++ [(seq, pos + pad, l.length)] } })

/-- Every record of the journal is in both copies and in the mirror: LAST_SEQ is the highest of them (R395, R567), and a
mirror that was being rebuilt is in step (R568). DEDUCED: log entry 97. -/
def settleLast (j : Nat) (s : State) : State :=
  if (mirrorReqs s j false).any (·.answer.isNone) then s
  else
    let top := ((s.job j).front.records.map (·.1)).foldl max (lastSeq s j)
    let s := s.setNum (jobIx j 6) 3 top
    let s := if s.num (jobIx j 8) 3 = 2 ∧ (s.jobState j = 2 ∨ s.jobState j = 3) then s.setNum (jobIx j 8) 3 1 else s
    putJournalShadow j s

/-- Records that wait for their mirror writes are no part of the journal: a failed write leaves them out (R395, R567).
DEDUCED: log entry 101. -/
def dropUnjournaled (j : Nat) (s : State) : State :=
  let x := s.job j
  let kept := x.front.records.filter fun r => decide (r.1 ≤ lastSeq s j)
  s.setJob j { x with front := { x.front with records := kept } }

/-- A remote request was answered with OK. -/
def Remote.fine (r : Remote) : Bool := match r.answer with
  | some a => a.1
  | none => false

/-- Mirror writes that have been answered: the bytes written are counted (R570); a failed write faults the job; otherwise the records
that waited are journaled (R567). -/
def settleMirrorWrites (j : Nat) (s : State) : State :=
  let done := (mirrorReqs s j false).filter (·.answer.isSome)
  if done = [] then s
  else
    let n := ((done.filter (·.fine)).map (·.len)).sum
    let keep : Remote → Bool := fun r => !(r.owner == .mirror j && !r.isRead && r.answer.isSome)
    let dev := mirrorDev s j
    let s := { s with fab := { s.fab with remotes := s.fab.remotes.filter keep } }
    let s := if n = 0 then s else count 0x5887 (j + 1) n s
    if done.all (·.fine) then settleLast j s else jobFault j 0x25 dev dev (dropUnjournaled j s)

/-! ### Repair at a restart (R564) -/

/-- The record of a sequence number in one copy of the journal, read there: its offset and bytes. -/
def readRec (base size seq : Nat) (s : State) : Option (Nat × List Byte) × State :=
  match findRec (ringLook s base) size seq with
  | none => (none, s)
  | some (off, n) => match tryRead (base + off) n s with
    | (some (l, false), s) => (some (off, l), s)
    | (_, s) => (none, s)

/-- The record of a sequence number, from copy A, copy B or the mirror (R564). -/
def sourceRec (j seq : Nat) (s : State) : Option (Nat × List Byte) × State :=
  let d := (s.job j).desc
  let size := journalSize s j
  match readRec d.journalA size seq s with
  | (some r, s) => (some r, s)
  | (none, s) => match readRec d.journalB size seq s with
    | (some r, s) => (some r, s)
    | (none, s) =>
      match findRec (mirrorLook s j) size seq with
      | some (off, n) => ((mirrorLook s j off n).map (off, ·), s)
      | none => (none, s)

/-- A record that a restart found takes its place in the list of records, if it has none yet. -/
def noteRecord (size seq off n : Nat) (x : Front) : Front :=
  if x.records.any (·.1 == seq) then x
  else
    let q := x.appended / size * size + off
    let p := if q < x.appended then q + size else q
    { x with appended := p + n, records := x.records ++ [(seq, p, n)], trimmed := if x.records = [] then p else x.trimmed }

/-- The repair of one record: it is written over each copy that failed the check. It answers whether any was. -/
def repairRec (j off : Nat) (l : List Byte) (s : State) : Bool × State :=
  let d := (s.job j).desc
  let bad := [d.journalA, d.journalB].filter fun b => ringLook s b off l.length != some l
  let r := bad.foldl (fun (x : Bool × State) b =>
    match placeStores j [(b + off, l)] x.2 with
    | (none, s) => (true, s)
    | (some _, s) => (x.1, s)) (false, s)
  (r.1, if r.1 then count 0x5888 (j + 1) 1 r.2 else r.2)

/-- The check from a sequence number upward, with the number of records written so far and the first of them. -/
def repairSteps (j : Nat) : Nat → Nat → Nat → Nat → State → (Nat × Nat × Nat) × State
  | 0, seq, written, first, s => ((seq, written, first), s)
  | f + 1, seq, written, first, s =>
    match sourceRec j seq s with
    | (none, s) => ((seq, written, first), s)
    | (some (off, l), s) =>
      let r := repairRec j off l s
      let x := r.2.job j
      let s := r.2.setJob j { x with front := noteRecord (journalSize s j) seq off l.length x.front }
      repairSteps j f (seq + 1) (if r.1 then written + 1 else written) (if r.1 ∧ written = 0 then seq else first) s

/-- LAST_SEQ of the journal shadow, as memory holds it (R395). -/
def shadowLast (s : State) (j : Nat) : Nat := leNat (peekMem s ((s.job j).desc.journalShadow + 16) 8)

/-- The lowest sequence number from which every one up to q has a property; the first number bounds the search. -/
def lowestHeld (p : Nat → Bool) : Nat → Nat → Nat
  | 0, q => q
  | _, 0 => 0
  | f + 1, q + 1 => if p q then lowestHeld p f q else q + 1

/-- Where the check of a restart begins: at REPLAY_SEQ, and in a package that has just taken the rank at the first of the records below it
that the mirror holds, all of which it writes into its own copies (R564, R568). DEDUCED: log entry 101. -/
def repairFrom (s : State) (j : Nat) : Nat :=
  let x := s.job j
  let size := journalSize s j
  if x.tookRank then lowestHeld (fun q => (findRec (mirrorLook s j) size q).isSome) (size / 64) x.replaySeq else x.replaySeq

/-- The journal is checked from REPLAY_SEQ upward (R564). A package that has just taken the rank has no shadow of it (R568). -/
def repairJournal (j : Nat) (s : State) : State :=
  let from_ := repairFrom s j
  let r := repairSteps j (journalSize s j / 64) from_ 0 0 s
  let keep : Remote → Bool := fun x => !(x.owner == .mirror j && x.isRead)
  let s := { r.2 with fab := { r.2.fab with remotes := r.2.fab.remotes.filter keep } }
  let s := if r.1.2.1 = 0 then s else post 0x400C (src 9 j) j [(1, j), (4, r.1.2.1), (8, r.1.2.2)] s
  if r.1.1 ≤ shadowLast s j ∧ !(s.job j).tookRank then jobFault j 0x1C r.1.1 noSubject s
  else putJournalShadow j (s.setNum (jobIx j 6) 3 (r.1.1 - 1))

/-- Step 5 of R391: READY, with the hash of the accepted plan, to the coordinator that the plan names.
DEDUCED: log entry 101. -/
def sendReady (j : Nat) (s : State) : State :=
  let x := s.job j
  let s := s.setJob j { x with readySent := true }
  sendCtrl j (fieldOf x.plan 24 2 % 2 ^ 14) (ctrlMsg s j 0x23 64 ([0, 0] ++ sha384 x.plan)) s

/-- Steps 4 and 5 of R391, once every source of the journal can be read. -/
def repairAndReady (j : Nat) (s : State) : State :=
  let s := repairJournal j s
  if s.jobState j = 5 then sendReady j s else s

/-- Step 4 of R391 repairs the journal: the mirror, when it is on, is read first (R564, R568).
DEDUCED: log entry 101. -/
def beginRepair (j : Nat) (s : State) : State :=
  if mirrorOn s j then mirrorRead j s else repairAndReady j s

/-- Mirror reads that have all been answered: the repair goes on; what a failed one was to bring, the mirror does not hold, and it faults
the job where the mirror is the only source (R288, R564, R568). -/
def settleMirrorReads (j : Nat) (s : State) : State :=
  let l := mirrorReqs s j true
  if l = [] ∨ l.any (·.answer.isNone) ∨ s.jobState j ≠ 5 then s
  else if (s.job j).tookRank && !l.all (·.fine) then
    let keep : Remote → Bool := fun x => !(x.owner == .mirror j && x.isRead)
    let dev := mirrorDev s j
    jobFault j 0x25 dev dev { s with fab := { s.fab with remotes := s.fab.remotes.filter keep } }
  else repairAndReady j s

/-- Answers to mirror requests are taken (R567, R568). -/
def settleMirror (s : State) : State :=
  (List.range 16).foldl (fun s j => settleMirrorReads j (settleMirrorWrites j s)) s

/-- Before step 9 of R391, every record above TRIM_SEQ is copied into a mirror that is being rebuilt (R568). -/
def rebuildMirror (j : Nat) (s : State) : State :=
  if mirrorOn s j && s.num (jobIx j 8) 3 == 2 then
    let x := s.job j
    let s := (x.front.records.filter fun r => !decide (r.1 ≤ trimSeq s j)).foldl (fun s r =>
      let off := r.2.1 % journalSize s j
      mirrorPut j off (peekMem s (x.desc.journalA + off) r.2.2) s) s
    if (mirrorReqs s j false) = [] then s.setNum (jobIx j 8) 3 1 else s
  else s

end Sys2Proof.Machine
end

