-- ==== Sys2Proof/Machine/Delivery.lean ====
section
/-!
DEFINITION. Machine/Delivery.lean: what a link die does with the frames that wait at it: routing and forwarding (R275 to R278),
the checks at the destination (R280 to R283), memory rings (R284), remote load and store (R285 to R288), control rings (R339), fell
notices (R402), stalled lanes (R277), and the send rings (R289).
-/

namespace Sys2Proof.Machine

/-! ### Lanes -/

/-- The key of a lane: port * 4 + VL, with 24 for frames that the package itself originates. -/
def laneKey (port : Option Nat) (vl : Nat) : Nat := port.getD 24 * 4 + vl % 4

/-- The subindex of a drop counter: the ingress port, or 0x19 (R296). -/
def ingressSub : Option Nat → Nat
  | some p => p + 1
  | none => 0x19

/-- SOURCE of an event about a frame: its ingress port, or for a frame that no port carried link die 0. DESIGN CHOICE: log entry 141. -/
def ingressSrc : Option Nat → Nat
  | some p => src 4 p
  | none => src 5 0

/-- The first frame of a lane leaves it. A frame from a port leaves its receive buffer, whose credits go back (R268); one of the
package's own leaves the list of those awaiting routing, and CONS follows (R289). -/
def leaveLane (port : Option Nat) (vl : Nat) (f : Frame) (s : State) : State :=
  let gone := s.fab.taken.filter (· != laneKey port vl)
  let s := { s with fab := { s.fab with taken := gone } }
  match port with
  | some p =>
    let x := s.port p
    returnCredits p vl f (s.setPort p { x with rx := lset x.rx vl (lget [] x.rx vl).tail })
  | none => settleSends { s with fab := { s.fab with localq := s.fab.localq.erase f } }

/-- What becomes of a frame at its destination: it leaves its lane, it waits there for room, or the ring it goes to cannot be
used (R284). -/
inductive Sunk where
  | taken
  | waits
  | failed (a : Acc) (addr : Nat)
  deriving DecidableEq, Repr

/-! ### Memory rings (R284) -/

/-- The record of a frame: header and payload, padded to a multiple of 64. -/
def frameRecord (f : Frame) : List Byte := padTo (f.header ++ f.payload) (roundUp (32 + f.payload.length) 64)

/-- A pad header, TYPE 0 and LEN 0, and the rest of the ring to its end: zeros, of which R284 gives only TYPE and LEN.
DESIGN CHOICE: log entry 138. -/
def padFill (n : Nat) : List Byte := List.replicate n 0

/-- Bytes are written at the written count, if they fit, and the count advances. -/
def ringPut (j base size counts written consumed : Nat) (l : List Byte) (s : State) : Sunk × State :=
  if size < sub32 written consumed + l.length then (.waits, s)
  else match putStruct j (base + written % size) l s with
    | (.ok, s) => match putStruct j counts (leBytes 4 (add32 written l.length)) s with
      | (.ok, s) => (.taken, s)
      | (e, s) => (.failed e counts, s)
    | (e, s) => (.failed e (base + written % size), s)

/-- A ring ends in a pad that the consumed count has not passed. DEDUCED: log entry 126. -/
def padWaits (x : Job) (counts written consumed : Nat) : Bool :=
  tget 0 counts x.padded == written + 1 && written != consumed

/-- A frame is written into a memory ring as a record. One that would wrap first writes a pad to the ring's end, and waits until
the consumed count has passed it. DEDUCED: log entry 126. -/
def ringRecord (j base log2 counts : Nat) (f : Frame) (s : State) : Sunk × State :=
  match jobRead j counts 8 s with
  | (.ok l, s) =>
    let size := 2 ^ log2
    let written := fieldOf l 0 4
    let consumed := fieldOf l 4 4
    let rec_ := frameRecord f
    let pad := padBefore size written rec_.length
    if padWaits (s.job j) counts written consumed then (.waits, s)
    else if pad = 0 then ringPut j base size counts written consumed rec_ s
    else match ringPut j base size counts written consumed (padFill pad) s with
      | (.taken, s) =>
        let x := s.job j
        (.waits, s.setJob j { x with padded := tset 0 counts (add32 written pad + 1) x.padded })
      | r => r
  | (g, s) => (.failed g.acc counts, s)

/-! ### Sinks of DATA and CTRL frames -/

/-- Received bytes that the landing unit u holds and has not combined (R314). DEDUCED: log entry 80. -/
def stagedBytes (s : State) (u : Nat) : Nat :=
  (List.range 16).foldl (fun n j =>
    (s.job j).inbox.foldl (fun n e => if (chanOf s j e.1).sink = u + 1 then n + (e.2.map (·.length)).sum else n) n) 0

/-- Room for received frames in the staging SRAM of a landing unit, beside its moment area and the results that it holds
(R314, R357). DEDUCED: log entry 80. -/
def stageRoom (s : State) (u : Nat) : Nat :=
  stageBytes - 2 ^ 20 * s.num 0x3811 (u + 1) - ((s.stageResults.filter (·.1 == u)).map (·.2.2.2)).sum

/-- A DATA frame that has passed its checks goes to the sink of its channel. DEDUCED: log entry 80. -/
def sinkData (j : Nat) (f : Frame) (s : State) : Sunk × State :=
  let c := chanOf s j f.chan
  let put : State → State := fun s =>
    let x := s.job j
    s.setJob j { x with inbox := tset [] f.chan (tget [] f.chan x.inbox ++ [f.payload]) x.inbox }
  if c.sink = 0 then ringRecord j c.ringBase c.ringLog2 c.countAddr f s
  else if c.sink = 3 then (.taken, put s)
  else if stagedBytes s (c.sink - 1) + f.payload.length ≤ stageRoom s (c.sink - 1) then (.taken, put s)
  else (.waits, s)

/-- The control ring of a job is set: 2^13 to 2^24 bytes (R339, R366). DEDUCED: log entry 81. -/
def ctrlRingOn (s : State) (j : Nat) : Bool :=
  let b := s.num 0x3809 (j + 1) % 32
  decide (13 ≤ b) && decide (b ≤ 24)

/-- Byte 0 of a CTRL payload is a message code that R339 lists. DEDUCED: log entry 127. -/
def ctrlCodeKnown (c : Nat) : Bool := decide (1 ≤ c ∧ c ≤ 3) || decide (0x20 ≤ c)

/-- A control message that is malformed, or of an unknown code, is dropped and counted (R9, R339). DEDUCED: log entry 132. -/
def dropCtrl (j : Nat) (s : State) : State := s.setJob j { s.job j with badCtrl := (s.job j).badCtrl + 1 }

/-- The handler of a CTRL record drops one whose message code is none that R339 lists, and counts it.
DEDUCED: log entry 127. -/
def countCode (j : Nat) (f : Frame) (s : State) : State :=
  if ctrlCodeKnown (fieldOf f.payload 0 1) then s else dropCtrl j s

/-- A CTRL frame goes to the control ring; with no ring, or in a context that a STOP has made IDLE, it is consumed.
DEDUCED: log entry 81. -/
def sinkCtrl (j : Nat) (f : Frame) (s : State) : Sunk × State :=
  if s.jobState j = 0 then (.taken, s)
  else
    let r := if ctrlRingOn s j then
        ringRecord j (s.num 0x3809 (j + 1) / 4096 * 4096) (s.num 0x3809 (j + 1) % 32) (s.num 0x380A (j + 1)) f s
      else (.taken, s)
    if r.1 = .taken then (.taken, countCode j f r.2) else r

/-- A lane holds a frame of the job that the link dies have taken and not delivered yet (R281).
DEDUCED: log entry 79. -/
def takenOf (s : State) (j : Nat) : Bool :=
  s.fab.taken.any fun k => match laneHead s k with
    | some f => f.jobId == (s.job j).desc.jobId
    | none => false

/-- The link dies apply a job's epoch once they have delivered every frame of the job that they have taken; the receive
sequence numbers return to 0, and what was received under the earlier epoch goes (R281). DEDUCED: log entry 79. -/
def applyEpoch (j : Nat) (s : State) : State :=
  let x := s.job j
  if x.linkEpoch = s.jobEpoch j ∨ takenOf s j then s
  else s.setJob j { x with linkEpoch := s.jobEpoch j, rxSeq := [], inbox := [] }

/-- A frame that has passed its checks goes to its sink, and a ring that cannot be used faults the job (R284, R588). -/
def sinkFrame (port : Option Nat) (vl j : Nat) (f : Frame) (s : State) : State :=
  match if f.type = 1 then sinkData j f s else sinkCtrl j f s with
  | (.taken, s) => applyEpoch j (leaveLane port vl f (if port.isNone then noteSent f s else s))
  | (.waits, s) =>
    let now := insNat (laneKey port vl) s.fab.taken
    { s with fab := { s.fab with taken := now } }
  | (.failed a addr, s) => accessFault j a addr (applyEpoch j (leaveLane port vl f s))

/-! ### Remote load and store (R285, R286) -/

/-- Lines read one after the other: their bytes, and the mask of those that are poisoned. -/
def readMasked : Nat → Nat → Nat → State → (List Byte × Nat) × State
  | 0, _, _, s => (([], 0), s)
  | k + 1, i, line, s =>
    let r := cohReadLine line s
    let q := readMasked k (i + 1) (line + 64) r.2
    ((r.1.1 ++ q.1.1, b2n r.1.2 * 2 ^ i + q.1.2), q.2)

/-- STATUS of a remote request: 1 where it breaks R274, meets no device memory or lies outside the protections that other
members may use; 3 where the memory is off or failed (R285, R372). DEDUCED: log entry 79. -/
def remoteStatus (s : State) (j : Nat) (f : Frame) : Nat :=
  let n := if f.type = 2 then f.rlen else if f.type = 4 then f.payload.length else 64
  let a := f.w2
  let right : Prot → Bool := fun p => p.remote && (if f.type = 2 then p.read else p.write)
  if n < 64 ∨ 4096 < n ∨ n % 64 ≠ 0 ∨ a % 64 ≠ 0 ∨ 2 ^ 48 ≤ a ∨ 4096 < a % 4096 + n then 1
  else if !(List.range (n / 64)).all (fun i => isDevice s (a + 64 * i)) then 1
  else if !protOk (s.job j).prots right a n then 1
  else if !rangeOk s a n then 3
  else 0

/-- The answer to a remote request (R285). -/
def answerRemote (j type status mask : Nat) (f : Frame) (payload : List Byte) (s : State) : State :=
  sendFrame j (mkFrame s { type := type, jobId := f.jobId, epoch := s.jobEpoch j, src := (s.job j).desc.device, dst := f.src,
                           addr := mask, tag := f.tag, status := status, payload := payload }) s

/-- A remote request is served at the homes of its lines. DEDUCED: log entry 79. -/
def serveRemote (j : Nat) (f : Frame) (s : State) : State :=
  let st := remoteStatus s j f
  if f.type = 2 then
    if st ≠ 0 then answerRemote j 3 st 0 f [] s
    else
      let r := readMasked (f.rlen / 64) 0 f.w2 s
      answerRemote j 3 0 r.1.2 f r.1.1 r.2
  else
    let s := if st ≠ 0 then s
      else if f.type = 4 then writeMem f.w2 f.payload s
      else cohWriteLine f.w2 (fieldOf f.payload 0 8) (sliceOf f.payload 8 64) s
    answerRemote j 5 st 0 f [] s

/-- An answer reaches the request whose TAG it carries (R286). A RD_RSP whose length is not that of its request breaks
R274. DEDUCED: log entry 67. -/
def takeAnswer (port : Option Nat) (j : Nat) (f : Frame) (s : State) : State :=
  let mine : Remote → Bool := fun r =>
    r.tag == f.tag && r.dst == f.src && r.job == j && r.answer.isNone && r.isRead == (f.type == 3)
  match s.fab.remotes.find? mine with
  | none => s
  | some r =>
    if f.type = 3 ∧ f.payload.length ≠ (if f.status = 0 then r.len else 0) then count 0x5866 (ingressSub port) 1 s
    else
      let put : Remote → Remote := fun x =>
        if mine x then { x with answer := some (f.status == 0, f.payload, if f.type = 3 then f.w2 else 0) } else x
      settleMirror (issueRemotes { s with fab := { s.fab with remotes := s.fab.remotes.map put } })

/-! ### Fell notices (R402) -/

/-- A message of n bytes verifies with the signature that follows it, under the coordinator's key (R375). -/
def signedOk (s : State) (j : Nat) (l : List Byte) (n : Nat) : Bool :=
  ecdsaOk (s.oct (jobIx j 2) 1) (sliceOf l 0 n) (sliceOf l n 96)

/-- A signed message that fails is counted and reported (R375, R402). DEDUCED: log entry 83. -/
def badSig (j code sender : Nat) (s : State) : State :=
  post 0x4005 (src 9 j) j [(1, j), (1, code), (2, sender)] (count 0x5883 (j + 1) 1 s)

/-- Every byte of a message in some ranges is 0: its reserved fields (R9). A range is an offset and a length. -/
def clearRanges (l : List Byte) (r : List (Nat × Nat)) : Bool := r.all fun e => zeroRange l e.1 e.2

/-- The checks of R402. DEDUCED: log entries 95, 132. -/
def fellOk (s : State) (j : Nat) (f : Frame) : Bool :=
  let d := (s.job j).desc.device
  let gap := (fieldOf f.payload 0 2 + 65536 - s.jobEpoch j) % 65536
  f.dst == d && fieldOf f.payload 2 2 == d && signedOk s j f.payload 64 && decide (1 ≤ gap) && decide (gap ≤ 32767)

/-- A fell notice reaches a job context: one that fails R402 is counted there, and a malformed one is dropped and counted (R9).
DEDUCED: log entries 95, 132. -/
def takeFell (j : Nat) (f : Frame) (s : State) : State :=
  if !fellOk s j f then badSig j 0 f.src s
  else if !clearRanges f.payload [(5, 59)] then dropCtrl j s
  else if s.jobState j = 0 ∨ s.jobState j = 7 then s
  else
    let new := fieldOf f.payload 0 2
    let old := s.jobEpoch j
    let s := setJobState j 6 (releaseSlots j (stopWork j (issueRemotes (closeJob j new 0 s))))
    post 0x400A (src 9 j) j [(1, j), (2, old), (2, new), (1, fieldOf f.payload 4 1)]
      (s.setJob j { s.job j with
        watchdog := false, switching := none, switchOpen := (s.job j).switchOpen && fieldOf f.payload 4 1 == 2 })

/-! ### The checks at the destination (R280 to R283) -/

/-- The member's program reports the source of a stale frame to the coordinator (R376, R401). -/
def sendSnag (j : Nat) (f : Frame) (s : State) : State :=
  sendCtrl j (coordDev s j) (ctrlMsg s j 0x29 64 ([0, 0] ++ leBytes 2 f.src ++ leBytes 2 f.epoch)) s

/-- A frame of an earlier or later epoch is dropped, and its source is reported once in each epoch (R280, R401).
DEDUCED: log entry 79. -/
def staleFrame (port : Option Nat) (j : Nat) (f : Frame) (s : State) : State :=
  let cur := (s.job j).linkEpoch
  let s := count 0x5868 (j + 1) 1 s
  if s.fab.staleSeen.contains (j, cur, f.src) then s
  else
    let seen := s.fab.staleSeen ++ [(j, cur, f.src)]
    sendSnag j f (post 0x3006 (ingressSrc port) j [(2, f.jobId), (2, f.src), (2, f.epoch), (2, cur)]
      { s with fab := { s.fab with staleSeen := seen } })

/-- A DATA frame is compared with its channel, and with the next sequence number expected there (R282, R283).
DESIGN CHOICE: log entry 141. -/
def takeData (port : Option Nat) (vl j : Nat) (f : Frame) (s : State) : State :=
  let c := chanOf s j f.chan
  let x := s.job j
  let want := tget 0 f.chan x.rxSeq
  if c.dir ≠ 2 ∨ c.peer ≠ f.src then leaveLane port vl f (count 0x5865 (ingressSub port) 1 s)
  else match seqCmp 32 f.seq want with
    | .expected => sinkFrame port vl j f (s.setJob j { x with rxSeq := tset 0 f.chan (add32 want 1) x.rxSeq })
    | .earlier => leaveLane port vl f (count 0x5869 (j + 1) 1 s)
    | .later =>
      let s := post 0x3007 (ingressSrc port) j [(2, f.jobId), (1, f.chan), (2, f.src), (4, want), (4, f.seq)] s
      jobFault j 0x11 f.src f.src (leaveLane port vl f s)

/-- A frame for this package is checked and delivered (R280). DEDUCED: log entry 78. DESIGN CHOICE: log entry 141. -/
def deliverFrame (port : Option Nat) (vl j : Nat) (f : Frame) (s : State) : State :=
  if f.crcOf ≠ f.crc then
    let s := count 0x5867 (ingressSub port) 1 (leaveLane port vl f s)
    jobFault j 0x12 f.src f.src (post 0x3008 (ingressSrc port) j [(2, f.jobId), (2, f.src), (1, port.getD 0xFF)] s)
  else if f.type = 6 then sinkFrame port vl j f s
  else if f.type = 7 then takeFell j f (leaveLane port vl f s)
  else if (s.job j).closedPorts then count 0x5868 (j + 1) 1 (leaveLane port vl f s)
  else if f.epoch ≠ (s.job j).linkEpoch then staleFrame port j f (leaveLane port vl f s)
  else if f.type = 1 then takeData port vl j f s
  else if f.type = 3 ∨ f.type = 5 then takeAnswer port j f (leaveLane port vl f s)
  else serveRemote j f (leaveLane port vl f s)

/-! ### Routing (R276, R278) -/

/-- A frame with no route or no hops left is dropped; a frame that no port carried has 0xFF as its port. DESIGN CHOICE: log entry 141. -/
def dropRoute (port : Option Nat) (vl : Nat) (f : Frame) (s : State) : State :=
  let s := count 0x5865 (ingressSub port) 1 (leaveLane port vl f s)
  post 0x3004 (ingressSrc port) (match jobOfId s f.jobId with | some j => j | none => 0x1F)
    [(1, port.getD 0xFF), (2, f.jobId), (2, f.src), (2, f.dst)] s

/-- HOPS decremented; the end-to-end CRC, which the package does not check here, moves with the header, so that a good one
stays good and a bad one stays bad (R273, R276, R278). DEDUCED: log entry 78. -/
def hoppedFrame (f : Frame) : Frame :=
  let g := { f with w3 := f.w3 - 2 ^ 32 }
  { g with crc := f.crc ^^^ f.crcOf ^^^ g.crcOf }

/-- The first frame of a lane is forwarded on a port. A frame of the package's own keeps the HOPS its sender set. -/
def forwardFrame (port : Option Nat) (vl p : Nat) (f : Frame) (s : State) : State :=
  match port with
  | some _ =>
    if f.hops = 0 then dropRoute port vl f s else leaveLane port vl f (enqueue p (hoppedFrame f) s)
  | none => leaveLane none vl f (enqueue p f s)

/-- A link die takes the first frame of a lane: it delivers, forwards or drops it. DEDUCED: log entry 78. -/
def routeFrame (port : Option Nat) (vl : Nat) (f : Frame) (s : State) : State :=
  if !frameOk f then count 0x5866 (ingressSub port) 1 (leaveLane port vl f s)
  else match frameJob s f.jobId with
    | none => dropRoute port vl f s
    | some j =>
      if s.fab.taken.contains (laneKey port vl) then sinkFrame port vl j f s
      else match routeOf j f.dst s with
        | (.here, s) => deliverFrame port vl j f s
        | (.port p, s) => forwardFrame port vl p f s
        | (.none, s) => dropRoute port vl f s
        | (.unread a, s) => accessFault j a (s.num 0x3020 (j + 1) + f.dst) (dropRoute port vl f s)

/-- The first frame of a lane is taken, if there is one that the command names. -/
def takeLane (port : Option Nat) (vl : Nat) (want : State → Frame → Bool) (s : State) : State :=
  match laneHead s (laneKey port vl) with
  | some f => if want s f then routeFrame port (vl % 4) f s else s
  | none => s

/-- A frame of a TYPE that this package is to deliver. -/
def forHere (type : Nat) (s : State) (f : Frame) : Bool :=
  f.type == type && match frameJob s f.jobId with
    | some j => routePeek s j f.dst == .here
    | none => false

/-- FRAME_ROUTE (R276). -/
def execFrameRoute (port : Option Nat) (vl : Nat) (s : State) : Host.Outcome State Fault Refusal :=
  forUnit (Instr.wf (.frameRoute port vl)) (takeLane port vl (fun _ _ => true) s)

/-- DATA (R282). -/
def execData (port : Option Nat) (s : State) : Host.Outcome State Fault Refusal :=
  forUnit (Instr.wf (.data port)) (takeLane port 2 (forHere 1) s)

/-- RD_REQ (R285). -/
def execRdReq (port : Option Nat) (s : State) : Host.Outcome State Fault Refusal :=
  forUnit (Instr.wf (.rdReq port)) (takeLane port 0 (forHere 2) s)

/-- RD_RSP (R286). -/
def execRdRsp (port : Option Nat) (s : State) : Host.Outcome State Fault Refusal :=
  forUnit (Instr.wf (.rdRsp port)) (takeLane port 1 (forHere 3) s)

/-- WR_REQ (R285). -/
def execWrReq (port : Option Nat) (s : State) : Host.Outcome State Fault Refusal :=
  forUnit (Instr.wf (.wrReq port)) (takeLane port 0 (forHere 4) s)

/-- WR_PART (R285). -/
def execWrPart (port : Option Nat) (s : State) : Host.Outcome State Fault Refusal :=
  forUnit (Instr.wf (.wrPart port)) (takeLane port 0 (forHere 9) s)

/-- WR_ACK (R286). -/
def execWrAck (port : Option Nat) (s : State) : Host.Outcome State Fault Refusal :=
  forUnit (Instr.wf (.wrAck port)) (takeLane port 1 (forHere 5) s)

/-- CTRL (R339). -/
def execCtrl (port : Option Nat) (s : State) : Host.Outcome State Fault Refusal :=
  forUnit (Instr.wf (.ctrl port)) (takeLane port 3 (forHere 6) s)

/-- FELL_NOTICE (R402). -/
def execFellNotice (port : Option Nat) (s : State) : Host.Outcome State Fault Refusal :=
  forUnit (Instr.wf (.fellNotice port)) (takeLane port 3 (forHere 7) s)

/-- A lane whose first frame waits for room tries again (R284). -/
def retryLane (port : Option Nat) (vl : Nat) (s : State) : State :=
  if s.fab.taken.contains (laneKey port vl) then takeLane port vl (fun _ _ => true) s else s

/-- RING_RECORD_WRITE (R284): DATA frames wait in VL2, CTRL frames in VL3. -/
def execRingRecordWrite (port : Option Nat) (s : State) : Host.Outcome State Fault Refusal :=
  forUnit (Instr.wf (.ringRecordWrite port)) (retryLane port 3 (retryLane port 2 s))

/-- No response has come to a remote request (R288). -/
def timeoutRemote (tag : Nat) (s : State) : State :=
  let fail : Remote → Remote := fun r => if r.tag = tag ∧ r.answer = none then { r with answer := some (false, [], 0) } else r
  settleMirror (issueRemotes { s with fab := { s.fab with remotes := s.fab.remotes.map fail } })

/-- REMOTE_TIMEOUT (R288). DESIGN CHOICE: log entry 109. DEDUCED: log entry 54. -/
def execRemoteTimeout (tag : Nat) (s : State) : Host.Outcome State Fault Refusal :=
  forUnit (Instr.wf (.remoteTimeout tag)) (if timeRuns s then timeoutRemote tag s else s)

/-- A lane of a port holds a frame that it cannot send: every job with a frame in it faults (R277). -/
def stallLane (p vl : Nat) (s : State) : State :=
  let x := s.port p
  let l := lget [] x.rx vl ++ lget [] x.tx vl
  if l = [] then s
  else
    let hit : Nat → Bool := fun j => s.jobState j != 0 && l.any fun f => f.jobId == (s.job j).desc.jobId
    let jobs := runningJobs s hit
    let s := post 0x3005 (src 4 p) 0x1F [(1, p), (1, vl), (2, maskOf jobs)] s
    jobs.foldl (fun s j => jobFault j 0x10 (p * 4 + vl) noSubject s) s

/-- VL_STALL (R277). DEDUCED: log entry 54. -/
def execVlStall (port vl : Nat) (s : State) : Host.Outcome State Fault Refusal :=
  forUnit (Instr.wf (.vlStall port vl)) (if timeRuns s then stallLane port vl s else s)

/-! ### The send ring (R289) -/

/-- The send ring of a job is set: 2^6 to 2^16 descriptors. -/
def sendRingOn (s : State) (j : Nat) : Bool :=
  let b := s.num 0x3023 (j + 1) % 32
  decide (6 ≤ b) && decide (b ≤ 16)

/-- Descriptors of the send ring, and its base. -/
def sendSlots (s : State) (j : Nat) : Nat := 2 ^ (s.num 0x3023 (j + 1) % 32)
def sendBase (s : State) (j : Nat) : Nat := s.num 0x3023 (j + 1) / 4096 * 4096

/-- The index of the next descriptor to take: those taken and not yet counted as sent wait in `sendWait`. -/
def sendNext (x : Job) : Nat := add32 x.sendCons x.sendWait.length

/-- A malformed descriptor stops the ring (R289). -/
def sendMalformed (j index off : Nat) (s : State) : State :=
  post 0x300A (src 5 0) j [(1, j), (4, index), (2, off)] (s.setJob j { s.job j with sendStopped := true })

/-- A doorbell of a send ring (R289). A producer index more than the ring's size beyond CONS stops it, as one of a descriptor queue
does, and is reported at offset 0. DEDUCED: log entry 81. -/
def ringSend (j value : Nat) (s : State) : State :=
  let x := s.job j
  if isRunning s j && sendRingOn s j && !x.sendStopped then
    if sendSlots s j < sub32 (value % 2 ^ 32) x.sendCons then sendMalformed j (sendNext x) 0 s
    else s.setJob j { x with sendProd := value % 2 ^ 32 }
  else s

/-- SEND_DOORBELL (R289). -/
def execSendDoorbell (job value : Nat) (s : State) : Host.Outcome State Fault Refusal :=
  forUnit (Instr.wf (.sendDoorbell job value)) (ringSend job value s)

/-- Channels that the used paths of the topology name (R302). -/
def pathChannel (t : Topo) (c : Nat) : Bool :=
  t.paths.any fun p => p.kind != 0 && (pathLinks t.n t.ownRank p).any fun l => l.ch == c

/-- The first field of a send descriptor that breaks R289, as its byte offset. DEDUCED: log entry 81. -/
def sendBad (s : State) (j : Nat) (l : List Byte) : Option Nat :=
  let w := fieldOf l 0 8
  let type := bits w 63 60
  let ch := bits w 59 52
  let c := chanOf s j ch
  let a := fieldOf l 8 8
  let chOk := if type = 1 then c.dir == 1 && !pathChannel (s.topo j) ch else ch == 0
  let tail := (List.range 6).map fun k => (!zeroRange l (16 + 8 * k) 8, 16 + 8 * k)
  lowestBad ([(!(type == 1 || type == 6), 7), (!chOk, 6), (type == 1 && bits w 51 38 != 0, 4), (bits w 37 13 != 0, 1),
    (decide (4224 < bits w 12 0), 0), (a % 64 != 0, 8)] ++ tail)

/-- The frame of a well-formed descriptor is handed over, and the descriptor waits until the frame is accepted.
DEDUCED: log entry 81. -/
def sendOne (j : Nat) (l payload : List Byte) (s : State) : State :=
  let w := fieldOf l 0 8
  let ch := bits w 59 52
  let x := s.job j
  let q := tget 0 ch x.txSeq
  let data := bits w 63 60 == 1
  let f := mkFrame s { type := bits w 63 60, jobId := x.desc.jobId, epoch := s.jobEpoch j, chan := ch,
                       seq := if data then q else 0, src := x.desc.device,
                       dst := if data then (chanOf s j ch).peer else bits w 51 38, payload := payload }
  let seqs := if data then tset 0 ch (add32 q 1) x.txSeq else x.txSeq
  sendFrame j f (s.setJob j { x with sendWait := x.sendWait ++ [(f, false)], txSeq := seqs })

/-- One descriptor of the send ring is taken. -/
def takeSend (j : Nat) (s : State) : State :=
  let x := s.job j
  let i := sendNext x
  if isRunning s j && sendRingOn s j && !x.sendStopped && i != x.sendProd then
    let a := sendBase s j + 64 * (i % sendSlots s j)
    match jobRead j a 64 s with
    | (.ok l, s) => match sendBad s j l with
      | some o => sendMalformed j i o s
      | none => match jobRead j (fieldOf l 8 8) (fieldOf l 0 8 % 2 ^ 13) s with
        | (.ok p, s) => sendOne j l p s
        | (g, s) => accessFault j g.acc (fieldOf l 8 8) (s.setJob j { s.job j with sendStopped := true })
    | (g, s) => accessFault j g.acc a (s.setJob j { s.job j with sendStopped := true })
  else s

/-- SEND_DESCRIPTOR (R289). -/
def execSendDescriptor (job : Nat) (s : State) : Host.Outcome State Fault Refusal :=
  forUnit (Instr.wf (.sendDescriptor job)) (takeSend job s)

end Sys2Proof.Machine
end

