-- ==== Sys2Proof/Machine/Jobs.lean ====
section
/-!
DEFINITION. Machine/Jobs.lean: the job descriptor and the checks of a start (R370 to R373, R383, R384, R394, R566), the structures that
a start opens, JOB_CTRL (R368, R369), the watchdog (R378), and what a package does at a restart (R390, R391, R400).
-/

namespace Sys2Proof.Machine

/-! ### The descriptor (R370, R371) -/

/-- A job descriptor from its 128 bytes. DESIGN CHOICE: log entry 27. -/
def descOf (l : List Byte) : Desc :=
  let w0 := fieldOf l 0 8
  let w1 := fieldOf l 8 8
  { jobId := bits w0 63 52, kind := bits w0 51 48, device := bits w0 47 34, epoch := bits w0 33 18, dieMask := bits w1 63 56,
    spareDieMask := bits w1 55 48, slotMask := bits w1 47 16, journalA := fieldOf l 32 8, journalB := fieldOf l 40 8,
    journalShadow := fieldOf l 48 8, journalLog2 := fieldOf l 56 8 % 32, teacherTable := fieldOf l 64 8,
    teacherCount := fieldOf l 78 2, retainBase := fieldOf l 80 8, retainBytes := fieldOf l 88 8, stage := fieldOf l 102 2,
    stages := fieldOf l 100 2, mbInflight := fieldOf l 98 2 }

/-- The lowest offset of a field of a job descriptor that breaks R370. DESIGN CHOICE: log entry 27. -/
def descBad (l : List Byte) : Option Nat :=
  let d := descOf l
  let n := fieldOf l 30 2
  let distill := d.kind == 2
  lowestBad [(d.jobId == 0, 6), (decide (2 < d.kind), 6), (d.epoch == 0, 2), (bits (fieldOf l 0 8) 17 0 != 0, 0),
    (d.dieMask &&& d.spareDieMask != 0, 14), (fieldOf l 8 2 != 0, 8), (fieldOf l 16 8 % 64 != 0, 16),
    (decide (n = 0 ∨ 256 < n), 30), (!zeroRange l 24 6, 24), (d.journalA % 4096 != 0, 32), (d.journalB % 4096 != 0, 40),
    (d.journalShadow % 64 != 0, 48), (bits (fieldOf l 56 8) 63 5 != 0, 56),
    (decide (d.journalLog2 < 16 ∨ 34 < d.journalLog2), 56), (!distill && d.teacherTable != 0, 64),
    (distill == (d.teacherCount == 0), 78), (!zeroRange l 72 6, 72), (d.retainBytes % 4096 != 0, 88),
    (decide (d.stages ≤ d.stage), 102), (d.stages == 0, 100), (fieldOf l 96 2 != 0, 96), (fieldOf l 104 8 != 0, 104),
    (fieldOf l 112 8 != 0, 112), (fieldOf l 120 8 != 0, 120)]

/-- A protection entry from its 32 bytes. -/
def protOf (l : List Byte) : Prot :=
  let f := fieldOf l 16 1
  { base := fieldOf l 0 8, bytes := fieldOf l 8 8, shared := bit f 3, remote := bit f 2, write := bit f 1, read := bit f 0 }

/-- The lowest offset of a field of a protection entry that breaks R371. -/
def protBad (l : List Byte) : Option Nat :=
  let p := protOf l
  lowestBad [(p.base % 4096 != 0, 0), (p.bytes % 4096 != 0 || p.bytes == 0, 8), (bits (fieldOf l 16 8) 63 4 != 0, 16),
    (fieldOf l 24 8 != 0, 24)]

/-- The first bad entry of a protection table of n entries, as an offset in the table. -/
def protsBad (l : List Byte) (n : Nat) : Option Nat :=
  ((List.range n).filterMap fun i => (protBad (sliceOf l (32 * i) 32)).map (32 * i + ·)).head?

/-- The descriptor and the protection table are read: they, or the offset of the first wrong field. -/
def readDesc (j : Nat) (s : State) : Except Nat (Desc × List Prot) × State :=
  match plainRead (s.num (jobIx j 0) 1) 128 s with
  | (.ok l, s) => match descBad l with
    | some o => (.error o, s)
    | none =>
      let n := fieldOf l 30 2
      match plainRead (fieldOf l 16 8) (32 * n) s with
      | (.ok t, s) => match protsBad t n with
        | some o => (.error o, s)
        | none => (.ok (descOf l, (List.range n).map fun i => protOf (sliceOf t (32 * i) 32)), s)
      | (_, s) => (.error 16, s)
  | (_, s) => (.error 0, s)

/-! ### The checks of a start (R373) -/

/-- Another context that is not IDLE carries the JOB_ID (code 0x02). -/
def idInUse (s : State) (j : Nat) : Option Nat :=
  if (List.range 16).any fun k => k != j && s.jobState k != 0 && (s.job k).desc.jobId == (s.job j).desc.jobId then some 0
  else none

/-- The domain of a required unit of die n that cannot be used (R24). -/
def unitOut (s : State) (j n : Nat) : Option Nat :=
  if needsUncore s j n && !s.on (domUncore n) then some (domUncore n)
  else if needsCanopy s j n && !placeOk s (.canopy n 0) then some (domCanopy n)
  else if needsGroup s j n && s.memState n != 2 then some (domGroup n)
  else none

/-- The route table of a job, when it can be read. -/
def routeTable (s : State) (j : Nat) : Option (List Byte) :=
  let a := s.num 0x3020 (j + 1)
  match (plainRead a 16384 s).1 with
  | .ok l => some l
  | _ => none

/-- A port that is off or failed. DEDUCED: log entry 94. -/
def portOut (s : State) (p : Nat) : Bool := portState s p == 0 || portState s p == 6 || !s.on (domOfPort p)

/-- A unit that the job requires, or a port that its route table names, is off or failed (code 0x03).
DEDUCED: log entry 94. -/
def unitsOut (s : State) (j : Nat) : Option Nat :=
  match (List.range 8).filterMap (unitOut s j) with
  | d :: _ => some d
  | [] => match routeTable s j with
    | some t => allPorts.find? fun p => portOut s p && t.any fun b => b.toNat == p
    | none => none

/-- The route table breaks R275 (code 0x04). -/
def routesBad (s : State) (j : Nat) : Option Nat :=
  match routeTable s j with
  | none => some 0
  | some t =>
    match t.findIdx? fun b => !(decide (b.toNat < 24) || b.toNat == 0xFE || b.toNat == 0xFF) with
    | some i => some i
    | none => if (lget 0 t (s.job j).desc.device).toNat = 0xFE then none else some (s.job j).desc.device

/-- The lowest offset of a field of a channel-table entry that breaks R283. -/
def chnBad (l : List Byte) : Option Nat :=
  let c := chnOf l
  let ring := c.dir == 2 && c.sink == 0
  lowestBad [(bits (fieldOf l 0 8) 43 0 != 0, 0), (c.dir == 3, 6), (if c.dir = 2 then decide (3 < c.sink) else c.sink != 0, 5),
    (if ring then c.ringBase % 4096 != 0 else c.ringBase != 0, 8), (bits (fieldOf l 16 8) 63 5 != 0, 16),
    (if ring then !(decide (13 ≤ c.ringLog2) && decide (c.ringLog2 ≤ 30)) else c.ringLog2 != 0, 16),
    (if ring then c.countAddr % 8 != 0 else c.countAddr != 0, 24)]

/-- The first wrong field of the channel table, as an offset in the table; 0 where it cannot be read.
DEDUCED: log entry 81. -/
def chansBad (s : State) (j : Nat) : Option Nat :=
  let n := s.num 0x3022 (j + 1)
  match (plainRead (s.num 0x3021 (j + 1)) (32 * n) s).1 with
  | .ok l => ((List.range n).filterMap fun i => (chnBad (sliceOf l (32 * i) 32)).map (32 * i + ·)).head?
  | _ => some 0

/-- The topology record of a job is read and checked (R298 to R301); the offset of its first wrong field otherwise. -/
def readTopo (j : Nat) (s : State) : Except Nat (Option Topo) × State :=
  let a := s.num 0x3800 (j + 1)
  if a = 0 then (.ok none, s)
  else match plainRead a 8 s with
    | (.ok h, s) =>
      let n := bits (leNat h) 63 48
      match plainRead a (1088 + 2 * n) s with
      | (.ok l, s) => match topoOf s j (s.job j).desc.device l with
        | .ok t => (.ok (some t), s)
        | .error o => (.error o, s)
      | (_, s) => (.error 0, s)
    | (_, s) => (.error 0, s)

/-- The path that an offset in a topology record lies in, or 0xFF. -/
def offsetPath (o : Nat) : Nat := if 64 ≤ o ∧ o < 1088 then (o - 64) / 64 else 0xFF

/-- The channel table, the topology record and the control path (code 0x05); a good topology is kept. -/
def topologyBad (j : Nat) (s : State) : Option Nat × State :=
  match chansBad s j with
  | some o => (some o, s)
  | none => match readTopo j s with
    | (.error o, s) => (some o, post 0x3801 (src 5 0) j [(1, j), (1, offsetPath o), (2, o)] s)
    | (.ok none, s) => (none, s)
    | (.ok (some t), s) =>
      let p := s.num 0x3813 (j + 1)
      if (t.path p).kind = 0 then (some (64 + 64 * p), s) else (none, s.setJob j { s.job j with topo := some t })

/-- JOB_PARTNER: the partner's context and JOB_ID (R386). -/
def partnerOf (s : State) (j : Nat) : Nat × Nat :=
  let v := s.num (jobIx j 4) 2
  (v / 4096, v % 4096)

/-- A context is the partner of job j. -/
def isPartner (s : State) (j k : Nat) : Bool :=
  s.num (jobIx j 4) 2 != 0 && (partnerOf s j).1 == k && (s.job k).desc.jobId == (partnerOf s j).2 && s.jobState k != 0

/-- The first WRITE entry that overlaps one of another context, as an offset in the protection table (code 0x06). -/
def protsClash (s : State) (j : Nat) : Option Nat :=
  let ps := (s.job j).prots
  let clash : Prot → Bool := fun p => p.write && (List.range 16).any fun k =>
    k != j && s.jobState k != 0 && (s.job k).prots.any fun q =>
      q.write && q.meets p.base p.bytes && !(isPartner s j k && p.shared && q.shared)
  (ps.findIdx? clash).map (32 * ·)

/-- A range is covered by entries with a right, from its start up; the number bounds the entries used. -/
def covered (l : List Prot) (right : Prot → Bool) : Nat → Nat → Nat → Bool
  | 0, a, e => decide (e ≤ a)
  | f + 1, a, e =>
    if e ≤ a then true
    else match l.find? fun p => p.has right a with
      | some p => covered l right f (p.base + p.bytes) e
      | none => false

/-- The die in whose die-local range a range lies wholly (R194, R394). -/
def localDie (s : State) (a n : Nat) : Option Nat :=
  if a < 0xF000000000 ∧ a % 0x1E00000000 + n ≤ (120 - s.merr.effG) * gib then some (a / 0x1E00000000) else none

/-- A journal copy lies on a die of DIE_MASK within WRITE entries; the die. -/
def copyDie (s : State) (j a : Nat) : Option Nat :=
  let x := s.job j
  let n := 2 ^ x.desc.journalLog2
  match localDie s a n with
  | some d => if bit x.desc.dieMask d && covered x.prots (·.write) (x.prots.length + 1) a (a + n) then some d else none
  | none => none

/-- The journal copies and the mirror (code 0x07; R394, R566). -/
def journalBad (s : State) (j : Nat) : Option Nat :=
  let d := (s.job j).desc
  match copyDie s j d.journalA, copyDie s j d.journalB with
  | none, _ => some 32
  | _, none => some 40
  | some a, some b =>
    if a = b then some 40
    else if mirrorOn s j && (mirrorDev s j == d.device || !((s.topo j).members.contains (mirrorDev s j))
        || mirrorBase s j % 4096 != 0) then some 0
    else none

/-- MB_INFLIGHT and SLOT_MASK (code 0x08). -/
def slotsBad (s : State) (j : Nat) : Option Nat :=
  let d := (s.job j).desc
  if popCount d.slotMask 32 < d.mbInflight then some 98
  else if (List.range 16).any fun k => k != j && isRunning s k && (s.job k).desc.slotMask &&& d.slotMask != 0 then some 10
  else none

/-- The partner context is running (code 0x09). -/
def partnerRuns (s : State) (j : Nat) : Option Nat :=
  if (List.range 16).any fun k => isPartner s j k && isRunning s k then some 0 else none

/-- JOB_COORD_PUBKEY is all 0 (code 0x0A). -/
def keyMissing (s : State) (j : Nat) : Option Nat := if (s.oct (jobIx j 2) 1).all (· == 0) then some 0 else none

/-- The lowest offset of a field of a teacher-place record that breaks R383. -/
def teacherBad (l : List Byte) : Option Nat :=
  let fmt := bits (fieldOf l 47 1) 7 4
  let blk := bits (fieldOf l 47 1) 3 2
  let ok := decide (fmt ≤ 1) && (blk == 1 || blk == 2)
  let cols := fieldOf l 16 4
  lowestBad [(fieldOf l 0 8 % 64 != 0, 0), (ok && fieldOf l 24 4 % blockLen blk != 0, 24),
    (ok && (fieldOf l 36 4 % 64 != 0 || decide (fieldOf l 36 4 < rowBytes fmt cols)), 36),
    (ok && decide (fieldOf l 32 4 < ceilDiv cols (blockLen blk)), 32), (!ok, 47),
    (bits (fieldOf l 40 8) 57 48 != 0, 46), (bits (fieldOf l 40 8) 31 0 != 0, 40), (fieldOf l 48 8 != 0, 48),
    (fieldOf l 56 8 != 0, 56)]

/-- Every byte that a teacher-place record names lies in entries with READ 1 and WRITE 0 (R384). -/
def teacherKept (ps : List Prot) (l : List Byte) : Bool :=
  let fmt := bits (fieldOf l 47 1) 7 4
  let blk := bits (fieldOf l 47 1) 3 2
  let cols := fieldOf l 16 4
  let right : Prot → Bool := fun p => p.read && !p.write
  let inside : Nat → Nat → Bool := fun a n => covered ps right (ps.length + 1) a (a + n)
  (List.range (fieldOf l 20 4)).all fun r =>
    inside (fieldOf l 0 8 + r * fieldOf l 36 4) (rowBytes fmt cols)
      && inside (fieldOf l 8 8 + r * fieldOf l 32 4) (ceilDiv cols (blockLen blk))

/-- The teacher records of a DISTILL job (code 0x0B). -/
def teachersBad (s : State) (j : Nat) : Option Nat :=
  let x := s.job j
  if x.desc.kind ≠ 2 then none
  else if x.desc.teacherTable % 64 ≠ 0 then some 64
  else match (plainRead x.desc.teacherTable (64 * x.desc.teacherCount) s).1 with
    | .ok l =>
      ((List.range x.desc.teacherCount).filterMap fun i =>
        let t := sliceOf l (64 * i) 64
        match teacherBad t with
        | some o => some (64 * i + o)
        | none => if teacherKept x.prots t then none else some (64 * i)).head?
    | _ => some 64

/-- The first check of a list that fails: its code and detail. -/
def firstFail (l : List (Nat × Option Nat)) : Option (Nat × Nat) :=
  (l.filterMap fun e => e.2.map (e.1, ·)).head?

/-- In the stages FAILED_CORE and FAILED_PLATFORM no job starts (R511): a start is refused as one whose unit cannot be used, and its unit is
HD0.CL0, where no hart runs. DESIGN CHOICE: log entry 143. -/
def bootFailed (s : State) : Option Nat := if 0xF0 ≤ s.num 0x5400 1 then some (domCluster 0 0) else none

/-- The checks of R373, after those of the descriptor itself. A SPARE context is held to the first alone, and to R511.
DEDUCED: log entry 94. DESIGN CHOICE: log entry 143. -/
def startChecks (spare : Bool) (j : Nat) (s : State) : Option (Nat × Nat) × State :=
  match idInUse s j, spare with
  | some d, _ => (some (2, d), s)
  | none, true => (firstFail [(3, bootFailed s)], s)
  | none, false =>
    match firstFail [(3, bootFailed s), (3, unitsOut s j), (4, routesBad s j)] with
    | some e => (some e, s)
    | none => match topologyBad j s with
      | (some d, s) => (some (5, d), s)
      | (none, s) => (firstFail [(6, protsClash s j), (7, journalBad s j), (8, slotsBad s j), (9, partnerRuns s j),
          (0x0A, keyMissing s j), (0x0B, teachersBad s j)], s)

/-! ### Opening and stopping -/

/-- A structure of the job is written; a failure faults the job (R588). -/
def mustPut (j a : Nat) (l : List Byte) (s : State) : State :=
  match putStruct j a l s with
  | (.ok, s) => s
  | (e, s) => accessFault j e a s

/-- A start of a job, or a new epoch: the send numbers of its channels return to 0, and the link dies apply the epoch (R281). -/
def newEpoch (j : Nat) (s : State) : State :=
  let s := s.setJob j { s.job j with closedPorts := false, txSeq := [] }
  applyEpoch j s

/-- The rings and queues of a job that starts or restarts: indices and shadows return to 0 (R289, R303, R346). -/
def openJob (j : Nat) (s : State) : State :=
  let x := s.job j
  let s := s.setJob j { x with
    closedPorts := false, sendProd := 0, sendCons := 0, sendStopped := !sendRingOn s j,
    sendWait := [], colProd := 0, colls := List.replicate 16 [], colDone := List.replicate 16 0, luProd := 0, luCons := 0,
    luRetired := 0, luOps := [], luVoid := [] }
  let s := ((s.setNum 0x3803 (j + 1) 0).setNum 0x3804 (j + 1) 0).setNum 0x3812 (j + 1) (b2n (luQueueOn s j))
  let s := if colQueueOn s j then mustPut j (colShadow s j) (List.replicate 128 0) s else s
  let s := if luQueueOn s j then
      mustPut j (luShadow s j) (List.replicate 8 0 ++ leBytes 4 1 ++ List.replicate 52 0) s else s
  if sendRingOn s j then mustPut j (s.num 0x3024 (j + 1)) (leBytes 4 0) s else s

/-- The descriptor of a context is kept from its last start, or from the restart that reads it again (R370). -/
def refuseStart (j code detail : Nat) (s : State) : State :=
  post 0x4001 (src 9 j) j [(1, j), (1, code), (4, detail)] (setJobStatus j code detail s)

/-- The control block of a job that starts: nothing in the log, nothing acknowledged (R449, R451).
DEDUCED: log entry 106. -/
def resetControl (j : Nat) (s : State) : State :=
  if s.num 0x2C20 (j + 1) = 0 then s else (tryWrite (s.num 0x2C20 (j + 1)) (List.replicate 16 0) s).2

/-- The front end of a job that starts: delivery goes on where the attachment of its link left the host ring, whose records so far
are of an earlier job (R452, R454). DEDUCED: log entry 106. -/
def freshFront (old : Front) : Front :=
  { Front.init with delivering := old.delivering, hostOff := old.hostOff, hostEnds := [(0, old.hostOff)] }

/-- A context that passes its checks waits for START, or stands by as a spare (R368, R373): in its descriptor's first epoch, or in the one
given. DEDUCED: log entries 94, 97. -/
def enterJobAt (epoch : Option Nat) (spare : Bool) (j : Nat) (s : State) : State :=
  let s := resetControl j s
  let s := (s.setNum (jobIx j 1) 3 (epoch.getD (s.job j).desc.epoch)).setNum (jobIx j 6) 4 0
  let s := s.setNum (jobIx j 8) 3 (b2n (mirrorOn s j && !spare))
  let fresh := s.fab.staleSeen.filter fun e => e.1 != j
  let s := newEpoch j { s with fab := { s.fab with staleSeen := fresh } }
  if spare then setJobState j 7 s
  else
    let s := openJob j (setJobState j 1 s)
    sendCtrl j (coordDev s j) (ctrlMsg s j 0x23 64 []) s

/-- The same, in the descriptor's first epoch. -/
def enterJob (spare : Bool) (j : Nat) (s : State) : State := enterJobAt none spare j s

/-- A start, in IDLE. DEDUCED: log entry 97. -/
def startJobAt (epoch : Option Nat) (spare : Bool) (j : Nat) (s : State) : State :=
  match readDesc j s with
  | (.error o, s) => refuseStart j 1 o s
  | (.ok (d, ps), s) =>
    let old := s.job j
    match startChecks spare j (s.setJob j { Job.init with desc := d, prots := ps, front := freshFront old.front }) with
    | (some e, s) => refuseStart j e.1 e.2 (s.setJob j old)
    | (none, s) => enterJobAt epoch spare j s

/-- JOB_CTRL START or SPARE, in IDLE. -/
def startJob (spare : Bool) (j : Nat) (s : State) : State := startJobAt none spare j s

/-- The mirror of a context that ends is OFF (R569). -/
def mirrorOff (j : Nat) (s : State) : State := s.setNum (jobIx j 8) 3 0

/-- JOB_CTRL STOP (R369). DEDUCED: log entry 95. -/
def stopJob (j : Nat) (s : State) : State :=
  if s.jobState j = 0 then s
  else
    let s := releaseSlots j (stopWork j s)
    let s := issueRemotes (closeJob j (s.jobEpoch j) 1 s)
    mirrorOff j (setJobState j 0 (s.setJob j { s.job j with watchdog := false }))

/-- A write of JOB_CTRL (R403). -/
def applyJobCtrl (j v : Nat) (s : State) : Nat × State :=
  if v = 2 then (stOk, stopJob j s)
  else if v = 1 ∨ v = 3 then
    if s.jobState j ≠ 0 then (stBusy, s) else (stOk, startJob (v == 3) j s)
  else (stValue, s)

/-! ### Watchdog (R378, R403) -/

/-- The watchdog interval runs from here, where one is set. DEDUCED: log entry 100. -/
def armWatchdog (j : Nat) (s : State) : State :=
  let on := (s.jobState j == 2 || s.jobState j == 3) && s.num (jobIx j 3) 3 != 0
  s.setJob j { s.job j with watchdog := on }

/-- A write of JOB_KICK. -/
def applyJobKick (j v : Nat) (s : State) : Nat × State := if v = 1 then (stOk, armWatchdog j s) else (stValue, s)

/-- The watchdog interval of a job has passed. -/
def watchdogOut (j : Nat) (s : State) : State :=
  if (s.job j).watchdog ∧ s.num (jobIx j 3) 3 ≠ 0 then jobFault j 0x0D 0 noSubject s else s

/-- WATCHDOG_EXPIRY (R378). DESIGN CHOICE: log entry 109. -/
def execWatchdogExpiry (job : Nat) (s : State) : Host.Outcome State Fault Refusal :=
  forUnit (Instr.wf (.watchdogExpiry job)) (if timeRuns s then watchdogOut job s else s)

/-! ### Messages of the coordinator (R375 to R377) -/

/-- Sender of a control message. -/
def msgSender (l : List Byte) : Nat := fieldOf l 4 2 % 2 ^ 14

/-- EPOCH of a control message. -/
def msgEpoch (l : List Byte) : Nat := fieldOf l 2 2

/-- The reserved ranges of a control message, by its code (R376). DEDUCED: log entry 132. -/
def ctrlReserved (code : Nat) : List (Nat × Nat) :=
  match code with
  | 0x20 => [(6, 2), (16, 48)]
  | 0x21 => [(10, 54)]
  | 0x22 => [(28, 4)]
  | 0x23 => [(6, 2), (56, 8)]
  | 0x24 => [(6, 2), (16, 48)]
  | 0x25 => [(6, 2), (58, 6)]
  | 0x26 => [(7, 1), (16, 48)]
  | 0x27 => [(7, 1), (16, 48)]
  | 0x28 => [(6, 2), (24, 40)]
  | 0x29 => [(6, 2), (12, 52)]
  | _ => []

/-- The reserved fields of a control message are 0; a message in which one is not is malformed, and is dropped (R9, R376).
DEDUCED: log entry 132. -/
def ctrlClear (l : List Byte) : Bool :=
  let code := fieldOf l 0 1
  zeroRange l 1 1 && decide (fieldOf l 4 2 < 2 ^ 14) && clearRanges l (ctrlReserved code)
    && (if code = 0x21 ∨ code = 0x29 then decide (fieldOf l 8 2 < 2 ^ 14)
        else if code = 0x22 then decide (fieldOf l 24 2 < 2 ^ 14) && decide (fieldOf l 26 2 ≤ 64)
          && (List.range 64).all fun k => decide (fieldOf l (32 + 4 * k) 4 < (if k < fieldOf l 26 2 then 2 ^ 28 else 1))
        else if code = 0x25 then decide (fieldOf l 56 2 < 2 ^ 12) else true)

/-- A signed message for a member reaches its job: one whose signature fails is dropped and counted, a malformed one too, and one of
another epoch is dropped (R9, R375, R377). DEDUCED: log entry 132. -/
def signedMsg (j code len : Nat) (l : List Byte) (act : State → State) (s : State) : State :=
  if s.jobState j = 0 ∨ fieldOf l 0 1 ≠ code then s
  else if l.length ≠ len ∨ !signedOk s j l (len - 96) then badSig j code (msgSender l) s
  else if msgEpoch l ≠ s.jobEpoch j ∨ s.jobState j = 6 ∨ s.jobState j = 7 then s
  else if !ctrlClear l then dropCtrl j s
  else act s

/-! ### START (R377, R387, R391) -/

/-- The job runs from here. -/
def enterRunning (j : Nat) (s : State) : State := armWatchdog j (setJobState j 2 s)


/-- A journal copy that the program moved to another base is rebuilt whole from the other copy (R564). -/
def rebuildCopy (j from_ to_ size : Nat) (s : State) : State :=
  (List.range (size / 4096)).foldl (fun s i =>
    match jobRead j (from_ + 4096 * i) 4096 s with
    | (.ok l, s) => (placeStores j [(to_ + 4096 * i, l)] s).2
    | (_, s) => s) s

/-- The copies that moved since the last descriptor was read. DEDUCED: log entry 101. -/
def rebuildCopies (j : Nat) (old : Desc) (s : State) : State :=
  let d := (s.job j).desc
  let size := journalSize s j
  let s := if d.journalA = old.journalA then s else rebuildCopy j d.journalB d.journalA size s
  if d.journalB = old.journalB then s else rebuildCopy j d.journalA d.journalB size s

/-- The BROADCAST descriptor of a layer's heartwood (R305, R362): k is the layer's number, and `root` the owner's rank. -/
def heartDesc (x : Layer) (k root step : Nat) (own : Bool) : List Byte :=
  padTo (leBytes 8 (2 * 2 ^ 60 + x.path * 2 ^ 56 + root * 2 ^ 42 + 2 ^ 40 + k)
    ++ leBytes 8 (if own then (if x.split then x.master else x.hwOut) else 0) ++ leBytes 8 0
    ++ leBytes 8 (2 * x.elems * 2 ^ 32 + step % 2 ^ 32) ++ leBytes 8 (x.rows * 2 ^ 32 + x.cols)) 64

/-- The owner of a layer in layout 0 writes the heartwood of its restored master weights to HW_OUT, which is no part of a
checkpoint (R362, R397). -/
def restoreHeart (j : Nat) (x : Layer) (s : State) : State :=
  if x.split then s
  else match readMaster j x s with
    | (.ok l, s) => (placeStores j [(x.hwOut, l.flatMap fun c => leBytes 2 (c / 2 ^ 16))] s).2
    | (.error _, s) => s

/-- The collective queue of a job has room for one more descriptor. -/
def colRoom (s : State) (j : Nat) : Bool :=
  colQueueOn s j && decide (sub32 (s.job j).colProd (s.num 0x3804 (j + 1)) < colSlots s j)

/-- A job program writes a descriptor into the job's collective queue, and rings the doorbell (R304). -/
def postColl (j : Nat) (desc : List Byte) (s : State) : State :=
  let p := (s.job j).colProd
  ringCol j (add32 p 1) (tryWrite (colBase s j + 64 * (p % colSlots s j)) desc s).2

/-- The heartwood BROADCAST of layer k is posted in the job's collective queue (R391 step 8). -/
def postHeart (j k : Nat) (s : State) : State :=
  let r := jobRead j (s.num 0x3805 (j + 1) + 128 * k) 128 s
  let x := layerOf r.1.bytes
  let s := r.2
  let own := x.owner == (s.job j).desc.device
  let root := (s.topo j).members.findIdx (· == x.owner)
  if !layerOk r.1.bytes then s
  else
    let s := if own then restoreHeart j x s else s
    postColl j (heartDesc x k root (s.job j).restoreStep own) s

/-- Step 8 of R391: the BROADCASTs of the layers from the next one on, as far as the collective queue has room.
DESIGN CHOICE: log entry 129. -/
def postHearts (j : Nat) : Nat → State → State
  | 0, s => s
  | n + 1, s =>
    let x := s.job j
    match x.rebroadcast with
    | none => s
    | some k =>
      if s.num 0x3806 (j + 1) ≤ k then s.setJob j { x with rebroadcast := none }
      else if s.jobState j ≠ 2 ∨ !colRoom s j then s
      else postHearts j n (postHeart j k (s.setJob j { x with rebroadcast := some (k + 1) }))

/-- Step 8 for every layer. DESIGN CHOICE: log entry 129. -/
def postAllHearts (j : Nat) (s : State) : State := postHearts j (s.num 0x3806 (j + 1) + 1) s

/-- A first start: a serving job assigns sequence numbers from the one given, and a training job runs from the step given. One that
was started because a switch was abandoned posts the heartwood of its checkpoint (R389). -/
def firstRun (j from_ : Nat) (s : State) : State :=
  let x := s.job j
  if x.desc.kind = 0 then enterRunning j (s.setNum (jobIx j 6) 3 (from_ - 1))
  else postAllHearts j (enterRunning j (s.setJob j { x with lastStep := from_ - 1, restoreStep := from_ - 1 }))

/-- A restart reaches RUNNING (R391 step 7), and posts the heartwood of a training job (step 8).
DEDUCED: log entry 97. -/
def restartRuns (j : Nat) (s : State) : State :=
  let s := if s.jobState j = 5 then openJob j s else s
  if s.jobState j = 5 then
    let x := s.job j
    let s := s.setJob j { x with lastStep := if x.desc.kind = 0 then x.lastStep else x.restoreStep, tookRank := false,
                                 front := { x.front with closed := false } }
    let s := s.setNum (jobIx j 8) 3 (if !mirrorOn s j then 0 else if s.num (jobIx j 8) 3 = 0 then 1 else s.num (jobIx j 8) 3)
    let s := post 0x4003 (src 9 j) j [(1, j), (2, s.jobEpoch j), (8, x.restoreStep), (4, x.nsub)]
      (count 0x5881 (j + 1) 1 s)
    let s := rebuildMirror j (enterRunning j s)
    if x.desc.kind = 0 then s else postAllHearts j (s.setJob j { s.job j with rebroadcast := some 0 })
  else s

/-- What the program rewrote in step 3 of a restart is read again, once, and a journal copy that moved is rebuilt (R370, R391, R564). The
job keeps its identity. DEDUCED: log entries 97, 101. -/
def rereadJob (j : Nat) (s : State) : State :=
  match readDesc j s with
  | (.error o, s) => jobFault j 0x21 o noSubject s
  | (.ok (d, ps), s) =>
    let x := s.job j
    let d := { d with jobId := x.desc.jobId, kind := x.desc.kind, device := x.desc.device, epoch := x.desc.epoch }
    match readTopo j (s.setJob j { x with desc := d, prots := ps }) with
    | (.error o, s) => jobFault j 0x13 (offsetPath o) noSubject s
    | (.ok t, s) => rebuildCopies j x.desc (s.setJob j { s.job j with topo := t })

/-- A verified START: of a restart, once this member has sent its READY. DEDUCED: log entry 97. -/
def takeStart (j : Nat) (l : List Byte) (s : State) : State :=
  if s.jobState j = 1 then firstRun j (fieldOf l 8 8) s
  else if s.jobState j = 5 ∧ (s.job j).readySent then restartRuns j s
  else s

/-- START (R377). -/
def execStart (job : Nat) (payload : List Byte) (s : State) : Host.Outcome State Fault Refusal :=
  forUnit (Instr.wf (.start job payload)) (signedMsg job 0x24 160 payload (takeStart job payload) s)

/-! ### EPOCH_PLAN (R390, R391, R400) -/

/-- The substitutions of a plan: rank and new device index. -/
def planSubs (l : List Byte) : List (Nat × Nat) :=
  (List.range (min (fieldOf l 26 2) 64)).map fun k =>
    let w := fieldOf l (32 + 4 * k) 4
    (bits w 27 14, bits w 13 0)

/-- A plan is accepted in the state its context is in (R390). DEDUCED: log entry 98. -/
def planFits (s : State) (j : Nat) (l : List Byte) : Bool :=
  let st := s.jobState j
  if st = 7 then (planSubs l).any fun e => e.2 == (s.job j).desc.device
  else decide (2 ≤ st ∧ st ≤ 5) && fieldOf l 2 2 == s.jobEpoch j && fieldOf l 6 2 == nextEpoch (s.jobEpoch j)

/-- The die that a domain number in JOB_STATUS names. -/
def domDie (d : Nat) : Option Nat := if d < 48 then some (d / 6) else if 70 ≤ d ∧ d < 78 then some (d - 70) else none

/-- Every entry lies in die-local ranges or Canopy windows of the dies of a mask (R400). DEDUCED: log entry 98. -/
def protsLocal (s : State) (ps : List Prot) (mask : Nat) : Bool :=
  ps.all fun p => (List.range 8).any fun n => bit mask n &&
    (localDie s p.base p.bytes == some n
      || (decide (0x20000000000 + n * 0x80000000 ≤ p.base) && decide (p.base + p.bytes ≤ 0x20000000000 + n * 0x80000000 + 0x60000000)))

/-- The journal copies survive the loss of die n: the other copy can be read, and so can this one unless it lies on n (R400).
DEDUCED: log entry 98. -/
def journalSurvives (s : State) (j n : Nat) : Bool :=
  let live : Nat → Bool := fun a => match copyDie s j a with
    | some d => d == n || s.memState d == 2
    | none => false
  let d := (s.job j).desc
  live d.journalA && live d.journalB && (copyDie s j d.journalA != some n || copyDie s j d.journalB != some n)

/-- The die that the detail of a failed unit names: that of the domain, and for a memory package the die of the job whose group it took
with it (R218, R557, R565). DEDUCED: log entry 98. -/
def failedDie (s : State) (j detail : Nat) : Option Nat :=
  if detail = 0xFFFFFF then (bitList (s.job j).desc.dieMask 8).find? fun n => s.memState n == 3 else domDie detail

/-- The failed die of a job, and the spare die that takes its place (R400). DEDUCED: log entry 98. -/
def dieSubst (s : State) (j : Nat) : Option (Nat × Nat) :=
  let x := s.job j
  let st := s.num (jobIx j 1) 2
  if st / 2 ^ 24 ≠ 0x0E then none
  else match failedDie s j (st % 2 ^ 24), (bitList x.desc.spareDieMask 8).head? with
    | some n, some k =>
      if bit x.desc.dieMask n && protsLocal s x.prots (x.desc.dieMask ||| x.desc.spareDieMask) && journalSurvives s j n
          && !x.splitUsed then some (n, k) else none
    | _, _ => none

/-- JOB_DIE_MAP after die n is replaced by die k: the nibble that holds n. -/
def mapDie (map n k : Nat) : Nat :=
  leNat ((List.range 4).map fun i =>
    let nib : Nat → Nat := fun b => let d := map / 16 ^ b % 16; if d = n then k else d
    BitVec.ofNat 8 (nib (2 * i) + 16 * nib (2 * i + 1)))

/-- Die substitution, where it is available (R400). DEDUCED: log entry 98. -/
def substDie (j : Nat) (s : State) : State :=
  match dieSubst s j with
  | some (n, k) =>
    post 0x4004 (src 9 j) j [(1, j), (1, n), (1, k)] (s.setNum (jobIx j 5) 1 (mapDie (s.num (jobIx j 5) 1) n k))
  | none => s

/-- The rank of this package under a plan: the one that a substitution gives its device, or its own. -/
def planRank (s : State) (j : Nat) (plan : List Byte) : Nat :=
  match (planSubs plan).find? fun e => e.2 == (s.job j).desc.device with
  | some e => e.1
  | none => (s.topo j).ownRank

/-- What the store gave as the manifest and parts of a rank are not those of the checkpoint that a plan names: another job, rank or step, or
another digest (R398). DESIGN CHOICE: log entry 130. -/
def restoreWrong (s : State) (j : Nat) (m : PlanMessage) : Bool :=
  let w := fieldOf m.manifest 0 8
  m.manifest != [] && !(bits w 63 52 == (s.job j).desc.jobId && bits w 35 22 == planRank s j m.payload
    && fieldOf m.manifest 8 8 == fieldOf m.payload 8 8 && sliceOf m.manifest 32 48 == m.digest)

/-- A plan is accepted: the context is RESTARTING under the new epoch, its slots released and its stash chains freed (R281,
R391 step 2). What its program restores from is the manifest of its rank and parts of a digest (R398). DEDUCED: log entry 98.
DESIGN CHOICE: log entry 130. -/
def acceptPlan (j : Nat) (m : PlanMessage) (s : State) : State :=
  let l := m.payload
  let spare := s.jobState j == 7
  let ne := fieldOf l 6 2
  let coord := fieldOf l 24 2 % 2 ^ 14
  let s := if s.jobState j = 2 ∨ s.jobState j = 3 then jobFaultWith false j 0x1A ne noSubject s else s
  let s := substDie j s
  let s := freeChains j (releaseSlots j ((setJobState j 5 s).setNum (jobIx j 1) 3 ne))
  let x := s.job j
  let keep := { Coord.init with acting := x.coord.acting && coord == x.desc.device, plan := x.coord.plan,
                                replaced := x.coord.replaced, switchDue := x.coord.switchDue }
  let bad := restoreWrong s j m
  let front := { x.front with opened := [], results := [] }
  newEpoch j (s.setJob j { x with
    plan := sliceOf l 0 288, restoreStep := fieldOf l 8 8,
    replaySeq := fieldOf l 16 8, nsub := fieldOf l 26 2, accepted := x.accepted ++ [(ne, coord)], replayed := 0,
    switching := none, partSent := false, readySent := false, coord := keep, repairDue := some spare, restoreBad := bad,
    rebroadcast := none, tookRank := spare || x.tookRank, resumed := false, front := front })

/-- Step 4 of R391, once the job program has had step 3: a restored part whose digest is wrong faults the job (R398), what the program
rewrote is read, and the journal is checked. DESIGN CHOICE: log entries 129, 130. -/
def stepFour (j : Nat) (s : State) : State :=
  let x := s.job j
  if x.repairDue = none then s
  else
    let s := s.setJob j { x with repairDue := none }
    if s.jobState j ≠ 5 then s
    else if x.restoreBad then jobFault j 0x1B (planRank s j x.plan) noSubject s
    else
      let s := rereadJob j s
      if s.jobState j = 5 then beginRepair j s else s

/-- An epoch plan reaches a context (R375, R390). DEDUCED: log entry 98. -/
def takePlan (j : Nat) (m : PlanMessage) (s : State) : State :=
  let l := m.payload
  if s.jobState j = 0 ∨ fieldOf l 0 1 ≠ 0x22 then s
  else if l.length ≠ 384 ∨ !signedOk s j l 288 then badSig j 0x22 (msgSender l) s
  else if !ctrlClear l then dropCtrl j s
  else match (s.job j).accepted.find? fun e => e.1 == fieldOf l 6 2 with
    | some e =>
      post 0x4006 (src 9 j) j [(1, j), (2, e.1), (2, e.2), (2, fieldOf l 24 2 % 2 ^ 14)] (count 0x5884 (j + 1) 1 s)
    | none => if planFits s j l then acceptPlan j m s else s

/-- EPOCH_PLAN (R390). -/
def execEpochPlan (job : Nat) (plan : PlanMessage) (s : State) : Host.Outcome State Fault Refusal :=
  forUnit (Instr.wf (.epochPlan job plan)) (takePlan job plan s)

end Sys2Proof.Machine
end

