-- ==== Sys2Proof/Machine/Coordinator.lean ====
section
/-!
DEFINITION. Machine/Coordinator.lean: the coordinator task of a job and the messages it exchanges with the members: stem records
and member lists (R339 to R345), clipping (R360), heartbeats, dead members, plans and fell notices (R376 to R379, R391, R401,
R558, R559), checkpoints (R398), and the daily switch (R387).
-/

namespace Sys2Proof.Machine

/-! ### The task -/

/-- This package coordinates job j: it is COL_COORD_DEV, or the standby that has taken over (R374, R379). -/
def isCoord (s : State) (j : Nat) : Bool :=
  s.jobState j != 0 && s.jobState j != 6 && s.jobState j != 7
    && ((s.job j).desc.device == coordDev s j || (s.job j).coord.acting)

/-- The state with what the coordinator task of a job keeps replaced. -/
def setCoord (j : Nat) (c : Coord) (s : State) : State := s.setJob j { s.job j with coord := c }

/-- Members of the current epoch by rank: those of the topology record, with the accepted plan's substitutions while the job
restarts (R391 step 3). -/
def membersOf (s : State) (j : Nat) : List Nat :=
  let m := (s.topo j).members
  if s.jobState j = 5 then (planSubs (s.job j).plan).foldl (fun l e => lset l e.1 e.2) m else m

/-- A message body with the coordinator's signature (R343, R375). -/
def signed (j : Nat) (body : List Byte) (s : State) : List Byte × State :=
  let d := s.draw
  (body ++ sliceOf (Config.sign (s.oct (jobIx j 2) 1) d.1 body) 0 96, d.2)

/-- A signed control message goes to each of a list of devices (R376). -/
def sendSigned (j code len : Nat) (rest : List Byte) (to_ : List Nat) (s : State) : State :=
  let r := signed j (ctrlMsg s j code (len - 96) rest) s
  to_.foldl (fun s d => sendCtrl j d r.1 s) r.2

/-- This package hears heartbeats and fault reports of job j: the coordinator, and the standby (R376). -/
def hears (s : State) (j : Nat) : Bool :=
  isCoord s j || (s.jobState j != 0 && s.jobState j != 6 && s.jobState j != 7 && (s.job j).desc.device == standbyDev s j)

/-- A record that a job program handles, where it is one for this package: of the current epoch, and well formed; a malformed one is dropped
and counted (R9, R339). DEDUCED: log entry 132. -/
def taskMsg (mine : Bool) (j code : Nat) (l : List Byte) (act : State → State) (s : State) : State :=
  if mine ∧ fieldOf l 0 1 = code ∧ msgEpoch l = s.jobEpoch j then (if ctrlClear l then act s else dropCtrl j s) else s

/-- A record for the coordinator. -/
def coordMsg (j code : Nat) (l : List Byte) (act : State → State) (s : State) : State := taskMsg (isCoord s j) j code l act s

/-! ### Fell notices and the end of a job (R401, R558) -/

/-- A fell notice to a device. DEDUCED: log entry 83. -/
def sendFell (j dev new reason : Nat) (s : State) : State :=
  let d := (s.job j).desc
  let r := signed j (padTo (leBytes 2 new ++ leBytes 2 dev ++ leBytes 1 reason) 64) s
  let f := mkFrame r.2 { type := 7, jobId := d.jobId, epoch := s.jobEpoch j, src := d.device, dst := dev, payload := r.1 }
  count 0x5885 (j + 1) 1 (sendFrame j f r.2)

/-- The program of a member starts a training job from its last checkpoint as a restart does: under the epoch that follows its last one,
with its journal checked, replay from JSEQ + 1, and the heartwood of the checkpoint posted at START (R389, R391 steps 4, 8 and 9).
DESIGN CHOICE: log entry 88. -/
def resumeTraining (k : Nat) (s : State) : State :=
  if s.jobState k ≠ 0 then s
  else
    let s := startJobAt (some (nextEpoch (s.jobEpoch k))) false k s
    if s.jobState k = 1 ∧ (s.job k).desc.kind ≠ 0 then
      repairJournal k (s.setJob k { s.job k with rebroadcast := some 0, resumed := true, replaySeq := s.num (jobIx k 6) 2 + 1 })
    else s

/-- A switch whose outgoing job cannot restart is abandoned: once the fell notice has ended that job here, this package's program starts
the training job, as those of the other members do (R389, R558). DESIGN CHOICE: log entry 88. -/
def abandonSwitch (j : Nat) (s : State) : State :=
  let x := s.job j
  if x.coord.switchDue then s.setJob j { x with switchOpen := true, coord := { x.coord with switchDue := false } } else s

/-- The coordinator ends the job: a fell notice to every member (R558). -/
def endJob (j code detail : Nat) (s : State) : State :=
  let e := s.jobEpoch j
  let s := setCoord j { (s.job j).coord with stopped := true } s
  let s := (membersOf s j).foldl (fun s d => sendFell j d (nextEpoch e) 2 s) s
  abandonSwitch j (post 0x400B (src 9 j) j [(1, j), (1, code), (2, e)] (setJobStatus j code detail s))

/-! ### Epoch plans (R391, R559) -/

/-- Codes of class Stop (R557). -/
def stopClass (c : Nat) : Bool :=
  [0x0C, 0x13, 0x14, 0x18, 0x19, 0x1B, 0x1C, 0x1D, 0x21, 0x22].contains c

/-- How many other members blame a device (R379); reports are (device, code, cause in the sender, SUBJECT).
DEDUCED: log entry 99. -/
def blamers (c : Coord) (dev : Nat) : Nat :=
  ((c.reports.filter fun r => !r.2.2.1 && r.2.2.2 == dev && r.1 != dev).map (·.1)).dedup.length

/-- This package, as a member of its own job, reports a failed unit for which R400 leaves it no spare die (R379).
DEDUCED: log entry 99. -/
def noSpareDie (s : State) (j dev : Nat) : Bool := dev == (s.job j).desc.device && (dieSubst s j).isNone

/-- Another member reports a failed unit of its own: whether R400 leaves it a spare die depends on its dies, protections and journal, which
its report does not carry and only the coordinator's program knows. It is free, and where none is left the member is dead (R379).
DESIGN CHOICE: log entry 145. -/
def judgeDie (j dev : Nat) (s : State) : State :=
  let d := s.draw
  let c := (s.job j).coord
  if d.1 % 2 = 1 then setCoord j { c with dead := c.dead ++ [dev] } d.2 else d.2

/-- Devices that the reports make dead (R379): this one, where it reports a failed unit and has no spare die, those found so when their
report came, and one that two other members blame. DEDUCED: log entry 99. -/
def deadBy (s : State) (j : Nat) : List Nat :=
  let x := s.job j
  (membersOf s j).filter fun d => x.coord.dead.contains d || decide (2 ≤ blamers x.coord d)
    || x.coord.reports.any fun r => r.1 == d && r.2.2.1 && r.2.1 == 0x0E && noSpareDie s j d

/-- The first device index from x on that is none of a list; the number bounds the search.
DESIGN CHOICE: log entry 61. -/
def freeDevice (used : List Nat) : Nat → Nat → Nat
  | 0, x => x
  | f + 1, x => if used.contains x then freeDevice used f ((x + 1) % noSubject) else x

/-- Spare packages for dead members: the coordinator's choice among the job's SPARE contexts, which no member and no other dead
member's spare is (R391). DESIGN CHOICE: log entry 61. -/
def chooseSpares (used : List Nat) : List Nat → State → List Nat × State
  | [], s => ([], s)
  | _ :: r, s =>
    let d := s.draw
    let x := freeDevice used (used.length + 1) (d.1 % noSubject)
    let q := chooseSpares (x :: used) r d.2
    (x :: q.1, q.2)

/-- The plan of the next epoch goes to every member that it has (R391 step 1). DEDUCED: log entry 99. -/
def issuePlan (j : Nat) (s : State) : State :=
  let n := s.num (jobIx j 9) 2
  if s.num (jobIx j 9) 1 < n + 1 then endJob j 0x1D n s
  else
    let m := membersOf s j
    let dead := (deadBy s j).take 64
    let r := chooseSpares m dead s
    let subs := (dead.map fun d => m.findIdx (· == d)).zip r.1
    let own := (s.job j).desc.device
    let rest := leBytes 2 (nextEpoch (s.jobEpoch j)) ++ leBytes 8 (s.num (jobIx j 6) 1) ++ leBytes 8 (s.num (jobIx j 6) 2 + 1)
      ++ leBytes 2 own ++ leBytes 2 subs.length ++ leBytes 4 0 ++ subs.flatMap fun e => leBytes 4 (e.1 * 2 ^ 14 + e.2)
    let q := signed j (ctrlMsg r.2 j 0x22 288 rest) r.2
    let to_ := subs.foldl (fun l e => lset l e.1 e.2) m
    let s := to_.foldl (fun s d => sendCtrl j d q.1 s) q.2
    let s := s.setNum (jobIx j 9) 2 (min 255 (n + 1))
    let c := (s.job j).coord
    setCoord j { c with plan := sliceOf q.1 0 288, planned := true, readies := [], replaced := c.replaced ++ dead } s

/-- What the gathered reports call for: the end of the job, whose JOB_STATUS keeps the detail that this package found itself, or a plan
(R557, R558). A report that blames one peer waits for another, or for `now`. DEDUCED: log entry 99. -/
def actOnReports (now : Bool) (j : Nat) (s : State) : State :=
  let c := (s.job j).coord
  if c.planned || c.stopped then s
  else match c.reports.find? fun r => stopClass r.2.1 with
    | some r =>
      let st := s.num (jobIx j 1) 2
      endJob j r.2.1 (if st / 2 ^ 24 = r.2.1 then st % 2 ^ 24 else 0) s
    | none =>
      let lone := c.reports.all fun r => !r.2.2.1 && r.2.2.2 != noSubject && blamers c r.2.2.2 == 1
      if (c.reports == [] && c.dead == []) || (lone && c.dead == [] && !now) then s else issuePlan j s

/-- A member reports a fault: the coordinator and the standby keep the report, and the coordinator acts on it (R376, R379, R558).
DEDUCED: log entry 99. DESIGN CHOICE: log entry 145. -/
def takeReport (j : Nat) (l : List Byte) (s : State) : State :=
  let c := (s.job j).coord
  let r := (msgSender l, fieldOf l 6 1, fieldOf l 7 1 == 1, fieldOf l 8 2 % 2 ^ 14)
  if c.planned || c.reports.contains r || !((membersOf s j).contains (msgSender l)) then s
  else
    let s := setCoord j { c with reports := c.reports ++ [r] } s
    let s := if r.2.2.1 && r.2.1 == 0x0E && r.1 != (s.job j).desc.device then judgeDie j r.1 s else s
    if isCoord s j then actOnReports false j s else s

/-- FAULT_REPORT (R558). -/
def execFaultReport (job : Nat) (payload : List Byte) (s : State) : Host.Outcome State Fault Refusal :=
  forUnit (Instr.wf (.faultReport job payload)) (taskMsg (hears s job) job 0x21 payload (takeReport job payload) s)

/-- No frame from a member for JOB_DEAD_MS: the coordinator declares it dead, and the standby takes over from a dead coordinator
(R379). -/
def deadOut (j dev : Nat) (s : State) : State :=
  let own := (s.job j).desc.device
  let c := (s.job j).coord
  let busy := s.jobState j != 0 && s.jobState j != 6 && s.jobState j != 7
  if dev = own ∨ !((membersOf s j).contains dev) ∨ c.dead.contains dev then s
  else if isCoord s j then actOnReports true j (setCoord j { c with dead := c.dead ++ [dev] } s)
  else if busy ∧ standbyDev s j = own ∧ dev = coordDev s j then
    actOnReports true j (setCoord j { c with acting := true, dead := c.dead ++ [dev] } s)
  else s

/-- DEAD_TIMEOUT (R379). -/
def execDeadTimeout (job device : Nat) (s : State) : Host.Outcome State Fault Refusal :=
  forUnit (Instr.wf (.deadTimeout job device)) (if timeRuns s then deadOut job device s else s)

/-- The restart has not been reached in time: a further plan for the following epoch (R391). -/
def restartOut (j : Nat) (s : State) : State :=
  if isCoord s j ∧ s.jobState j = 5 ∧ !(s.job j).coord.stopped then
    issuePlan j (setCoord j { (s.job j).coord with planned := false } s)
  else s

/-- RESTART_TIMEOUT (R391). -/
def execRestartTimeout (job : Nat) (s : State) : Host.Outcome State Fault Refusal :=
  forUnit (Instr.wf (.restartTimeout job)) (if timeRuns s then restartOut job s else s)

/-! ### READY and START (R373, R377, R391) -/

/-- The step or sequence number from which the job runs (R376, R387, R391). -/
def startFrom (s : State) (j : Nat) : Nat :=
  let x := s.job j
  if s.jobState j = 5 then x.restoreStep + 1
  else if x.desc.kind = 0 then s.num (jobIx j 6) 3 + 1
  else s.num (jobIx j 6) 1 + 1

/-- The hash that a READY must carry: of the coordinator's own plan, or zeros at a first start. -/
def readyHash (s : State) (j : Nat) : List Byte :=
  if s.jobState j = 5 then sha384 (s.job j).coord.plan else List.replicate 48 0

/-- A member is ready; when every member is, START goes out. -/
def takeReady (j : Nat) (l : List Byte) (s : State) : State :=
  let c := (s.job j).coord
  let m := membersOf s j
  let dev := msgSender l
  if (s.jobState j = 1 ∨ s.jobState j = 5) ∧ m.contains dev ∧ !(c.readies.contains dev) ∧ sliceOf l 8 48 = readyHash s j then
    let all := c.readies ++ [dev]
    let s := setCoord j { c with readies := all } s
    if m.all all.contains then sendSigned j 0x24 160 ([0, 0] ++ leBytes 8 (startFrom s j)) m s else s
  else s

/-- READY (R391). -/
def execReady (job : Nat) (payload : List Byte) (s : State) : Host.Outcome State Fault Refusal :=
  forUnit (Instr.wf (.ready job payload)) (coordMsg job 0x23 payload (takeReady job payload) s)

/-! ### Heartbeats (R376, R379) -/

/-- A heartbeat is noted by the coordinator and the standby. -/
def takeHeartbeat (j : Nat) (l : List Byte) (s : State) : State :=
  s.setJob j { s.job j with heard := tput (msgSender l) (fieldOf l 8 8) (s.job j).heard }

/-- HEARTBEAT (R376). -/
def execHeartbeat (job : Nat) (payload : List Byte) (s : State) : Host.Outcome State Fault Refusal :=
  forUnit (Instr.wf (.heartbeat job payload)) (taskMsg (hears s job) job 0x20 payload (takeHeartbeat job payload) s)

/-- What a heartbeat carries, and to whom it goes: a member's to the coordinator and the standby, the coordinator's to the standby;
a coordinator with reports that wait acts on them. -/
def sendBeat (j : Nat) (s : State) : State :=
  let x := s.job j
  if 1 ≤ s.jobState j ∧ s.jobState j ≤ 5 then
    let v := if x.desc.kind = 0 then x.front.nextDeliver - 1 else x.lastStep
    let msg := ctrlMsg s j 0x20 64 ([0, 0] ++ leBytes 8 v)
    if isCoord s j then
      let s := if standbyDev s j = noSubject ∨ standbyDev s j = x.desc.device then s else sendCtrl j (standbyDev s j) msg s
      actOnReports true j s
    else sendBoth j msg s
  else s

/-! ### Stem records and member lists (R340 to R345) -/

/-- Bytes of the bitmap of a list over n ranks. -/
def bitmapBytes (n : Nat) : Nat := ceilDiv n 512 * 64

/-- The bitmap of a set of devices by their ranks. -/
def bitmapOf (m devs : List Nat) : List Byte :=
  leBytes (bitmapBytes m.length) (maskOf ((List.range m.length).filter fun r => devs.contains (lget 0 m r)))

/-- COL_NONFINITE (R342, R345). DEDUCED: log entries 91, 93. -/
def postNonfinite (j step round n first : Nat) (s : State) : State :=
  post 0x3808 (src 9 j) j [(1, j), (8, step), (1, round), (4, n), (2, first)] s

/-- The BROADCAST descriptor of n bytes at an address on the control path, from this package (R305, R343). -/
def listDesc (s : State) (j addr n : Nat) : List Byte :=
  padTo (leBytes 8 (2 * 2 ^ 60 + s.num 0x3813 (j + 1) % 16 * 2 ^ 56 + (s.topo j).ownRank * 2 ^ 42) ++ leBytes 8 addr ++ leBytes 8 0
    ++ leBytes 8 (n * 2 ^ 32)) 64

/-- The BROADCASTs of the member lists that wait are posted, as far as the collective queue has room (R343).
DESIGN CHOICE: log entry 129. -/
def postLists (j : Nat) : Nat → State → State
  | 0, s => s
  | n + 1, s => match (s.job j).coord.listsDue with
    | [] => s
    | e :: r =>
      if colRoom s j then
        postLists j n (postColl j (listDesc s j e.1 e.2) (setCoord j { (s.job j).coord with listsDue := r } s))
      else s

/-- A member list goes into memory where the program has its place, and its BROADCAST is posted (R343). -/
def sendList (j addr : Nat) (l : List Byte) (s : State) : State :=
  let s := mustPut j addr l s
  let c := (s.job j).coord
  postLists j (c.listsDue.length + 1) (setCoord j { c with listsDue := c.listsDue ++ [(addr, l.length)] } s)

/-- The member list of a step is issued (R341 to R343): policy 0 drops non-finite contributors, 1 skips the step, 2 faults the
job and issues none. -/
def issueList (j step addr : Nat) (s : State) : State :=
  let c := (s.job j).coord
  let m := membersOf s j
  let recs := (c.stems.filter (·.1 == step)).map (·.2)
  let bad := (recs.filter fun r => !r.2).map (·.1)
  let good := (recs.filter (·.2)).map (·.1)
  let policy := s.num 0x380E (j + 1)
  let told := bad == [] || c.nonfinite.contains step
  let c := if told then c else { c with nonfinite := c.nonfinite ++ [step] }
  let s := if told then s else postNonfinite j step 1 bad.length (bad.headD 0) (setCoord j c s)
  if policy = 2 ∧ bad ≠ [] then jobFault j 0x18 (bad.headD 0) noSubject s
  else
    let devs := if policy = 1 ∧ bad ≠ [] then [] else good
    let released := m.length - recs.length
    let body := leBytes 8 step ++ leBytes 2 (s.jobEpoch j) ++ leBytes 1 (b2n (devs == [])) ++ leBytes 1 0 ++ leBytes 4 devs.length
      ++ leBytes 4 m.length ++ leBytes 4 released ++ leBytes 4 bad.length
    let r := signed j (padTo body 64 ++ bitmapOf m devs) s
    let s := setCoord j { c with stems := c.stems.filter (decide <| step < ·.1), listed := some step, list := r.1 } r.2
    let s := if bad = [] then s else count 0x5878 (j + 1) bad.length s
    let s := sendList j addr r.1 s
    if released = 0 then s
    else post 0x3809 (src 9 j) j [(1, j), (8, step), (4, released)] (count 0x5879 (j + 1) released s)

/-- A round-1 record, each device counted once; a late one is counted (R341). -/
def stemOne (j step dev addr : Nat) (finite : Bool) (s : State) : State :=
  let c := (s.job j).coord
  let m := membersOf s j
  let late : Bool := match c.listed with
    | some n => decide (step ≤ n)
    | none => false
  if late then count 0x587A (j + 1) 1 s
  else if !(m.contains dev) || c.stems.any (fun r => r.1 == step && r.2.1 == dev) then s
  else
    let stems := c.stems ++ [(step, dev, finite)]
    let s := setCoord j { c with stems := stems } s
    if (stems.filter (·.1 == step)).length = m.length then issueList j step addr s else s

/-- A stem record (R340, R345). -/
def takeStem (j : Nat) (l : List Byte) (addr : Nat) (s : State) : State :=
  let dev := fieldOf l 6 2 % 2 ^ 14
  let step := fieldOf l 8 8
  let finite := bit (fieldOf l 2 1) 0
  if fieldOf l 1 1 = 1 then stemOne j step dev addr finite s
  else if fieldOf l 1 1 = 2 ∧ !finite then
    let s := postNonfinite j step 2 1 dev s
    if s.num 0x380E (j + 1) = 2 then jobFault j 0x18 dev noSubject s else s
  else s

/-- The reserved fields of a stem record, a norm report or a clip record are 0 (R9, R340, R360). DEDUCED: log entry 132. -/
def updateClear (l : List Byte) : Bool :=
  let code := fieldOf l 0 1
  if code = 1 then clearRanges l [(3, 1), (18, 46)] && decide (fieldOf l 2 1 < 2) && decide (fieldOf l 6 2 < 2 ^ 14)
  else if code = 2 then clearRanges l [(1, 3), (18, 2), (24, 40)] && decide (fieldOf l 6 2 < 2 ^ 14)
  else clearRanges l [(1, 3), (6, 2), (24, 40)]

/-- A record of the update: MSG and EPOCH as in R340 and R360; a malformed one is dropped and counted (R9). DEDUCED: log entry 132. -/
def updateMsg (j code : Nat) (l : List Byte) (act : State → State) (s : State) : State :=
  if isCoord s j ∧ fieldOf l 0 1 = code ∧ fieldOf l 4 2 = s.jobEpoch j then (if updateClear l then act s else dropCtrl j s) else s

/-- STEM_RECORD (R341). -/
def execStemRecord (job : Nat) (turn : StemTurn) (s : State) : Host.Outcome State Fault Refusal :=
  forUnit (Instr.wf (.stemRecord job turn)) (updateMsg job 1 turn.payload (takeStem job turn.payload turn.listAddr) s)

/-- COL_STRAGGLER_US has passed since the count reached COL_QUORUM: the list is issued without the rest (R341). -/
def releaseStragglers (j step addr : Nat) (s : State) : State :=
  let c := (s.job j).coord
  let n := (c.stems.filter (·.1 == step)).length
  let fresh : Bool := match c.listed with
    | some k => decide (k < step)
    | none => true
  if isCoord s j ∧ fresh ∧ 1 ≤ n ∧ s.num 0x380C (j + 1) ≤ n then issueList j step addr s else s

/-- STRAGGLER_RELEASE (R341). -/
def execStragglerRelease (job : Nat) (turn : ReleaseTurn) (s : State) : Host.Outcome State Fault Refusal :=
  forUnit (Instr.wf (.stragglerRelease job turn)) (if timeRuns s then releaseStragglers job turn.step turn.listAddr s else s)

/-- A list or a clip record that fails: COL_LIST_REJECT, and the fault of the job (R344, R360). -/
def rejectList (j step off : Nat) (s : State) : State :=
  jobFault j 0x17 off noSubject (post 0x380A (src 9 j) j [(1, j), (8, step), (2, off)] s)

/-- The first check of a member list that fails, as its field offset (R344); a reserved field is to be 0 (R9).
DEDUCED: log entry 132. -/
def listBad (s : State) (j : Nat) (l : List Byte) (step : Nat) : Option Nat :=
  let n := (s.topo j).n
  let e := 64 + bitmapBytes n
  if !signedOk s j l e then some e
  else if fieldOf l 0 8 ≠ step then some 0
  else if fieldOf l 8 2 ≠ s.jobEpoch j then some 8
  else if fieldOf l 16 4 ≠ n then some 16
  else lowestBad [(decide (1 < fieldOf l 10 1), 10), (!zeroRange l 11 1, 11), (!zeroRange l 28 36, 28)]

/-- An owner's layer skips a step: STATUS SKIPPED_BY_LIST, then ORTHO_DONE and UPDATE_DONE (R344). -/
def skipLayer (j step : Nat) (s : State) (k : Nat) : State :=
  match jobRead j (s.num 0x3805 (j + 1) + 128 * k) 128 s with
  | (.ok l, s) =>
    let x := layerOf l
    if x.owner = (s.job j).desc.device then
      (placeStores j [(x.stateAddr + 12, leBytes 1 3), (x.stateAddr + 4, leBytes 4 step ++ leBytes 4 step)] s).2
    else s
  | (_, s) => s

/-- Step N under SKIP: GEN of every weight-place record, and the owned layers (R344). -/
def skipStep (j step : Nat) (s : State) : State :=
  let s := match jobPlaces j s with
    | (.ok l, s) => (writeGen j (step % 2 ^ 32) l s).2
    | (.error _, s) => s
  (List.range (s.num 0x3806 (j + 1))).foldl (skipLayer j step) s

/-- A package receives the member list of a step (R338, R344). -/
def takeList (j : Nat) (l : List Byte) (step : Nat) (s : State) : State :=
  if !takesWork s j then s
  else match listBad s j l step with
    | some o => rejectList j step o s
    | none =>
      if fieldOf l 10 1 = 1 then skipStep j step s
      else if bit (leNat (l.drop 64)) (s.topo j).ownRank then s
      else post 0x380B (src 9 j) j [(1, j), (8, step), (1, s.num 0x380F (j + 1))] (count 0x587B (j + 1) 1 s)

/-- MEMBER_LIST (R344). -/
def execMemberList (job : Nat) (list : List Byte) (step : Nat) (s : State) : Host.Outcome State Fault Refusal :=
  forUnit (Instr.wf (.memberList job list step)) (takeList job list step s)

/-! ### Clipping (R360) -/

/-- The clip factor of a sum T of squared norms. DEDUCED: log entry 113. -/
def clipOf (clipMax t : Nat) : Nat :=
  if !finF32 t then 0x7FC00000
  else if mulF32 clipMax clipMax < t ∧ !bit t 31 then divF32 clipMax (sqrtF32 t)
  else oneF32

/-- A norm report; with one for every layer of the step, each owner gets a clip record. DEDUCED: log entry 93. -/
def takeNorm (j : Nat) (l : List Byte) (s : State) : State :=
  let c := (s.job j).coord
  let step := fieldOf l 8 8
  let layer := fieldOf l 16 2
  let layers := s.num 0x3806 (j + 1)
  let clipMax := s.num 0x3810 (j + 1)
  if clipMax = 0 ∨ layers ≤ layer ∨ c.clipped.contains step ∨ c.norms.any (fun r => r.1 == step && r.2.1 == layer) then s
  else
    let norms := c.norms ++ [(step, layer, fieldOf l 6 2 % 2 ^ 14, fieldOf l 20 4)]
    let mine := norms.filter (·.1 == step)
    let normOf : Nat → Nat := fun k => match mine.find? (·.2.1 == k) with
      | some r => r.2.2.2
      | none => 0
    if mine.length < layers then setCoord j { c with norms := norms } s
    else
      let t := (List.range layers).foldl (fun t k => addF32 t (normOf k)) 0
      let body := [3, 0, 0, 0] ++ leBytes 2 (s.jobEpoch j) ++ [0, 0] ++ leBytes 8 step ++ leBytes 4 (clipOf clipMax t) ++ leBytes 4 t
      let r := signed j (padTo body 64) s
      let owners := (mine.map (·.2.2.1)).dedup
      let s := setCoord j { c with norms := norms.filter (·.1 != step), clipped := c.clipped ++ [step] } r.2
      owners.foldl (fun s d => sendCtrl j d r.1 s) s

/-- NORM_REPORT (R360). -/
def execNormReport (job : Nat) (payload : List Byte) (s : State) : Host.Outcome State Fault Refusal :=
  forUnit (Instr.wf (.normReport job payload)) (updateMsg job 2 payload (takeNorm job payload) s)

/-- A clip record reaches an owner, whose program has a step in progress and a clip word (R360).
DEDUCED: log entry 113. -/
def takeClip (j : Nat) (l : List Byte) (step clipAddr : Nat) (s : State) : State :=
  if !takesWork s j ∨ fieldOf l 0 1 ≠ 3 ∨ fieldOf l 4 2 ≠ s.jobEpoch j then s
  else if !signedOk s j l 64 then rejectList j step 64 s
  else if fieldOf l 8 8 ≠ step then rejectList j step 8 s
  else if !updateClear l then rejectList j step 24 s
  else (tryWrite (clipAddr + 4) (leBytes 4 step) (tryWrite clipAddr (sliceOf l 16 4) s).2).2

/-- CLIP_RECORD (R360). -/
def execClipRecord (job : Nat) (payload : List Byte) (step clipAddr : Nat) (s : State) : Host.Outcome State Fault Refusal :=
  forUnit (Instr.wf (.clipRecord job payload step clipAddr)) (takeClip job payload step clipAddr s)

/-! ### Checkpoints (R398) and snags (R401) -/

/-- The highest sequence number up to which every request of a job has had its effect, as this package knows it: below each one whose
result has not come or waits for the log, and each one that is still to be replayed; and in a serving job no higher than what
the other members have delivered by their heartbeats (R376, R561). DESIGN CHOICE: log entry 61. -/
def settledSeq (s : State) (j : Nat) : Nat :=
  let x := s.job j
  let due := x.front.opened.map (·.1) ++ x.front.results.map (·.1) ++ (if replayDone s j then [] else [x.replaySeq + x.replayed])
  let own := due.foldl (fun m q => min m (q - 1)) (lastSeq s j)
  if x.desc.kind ≠ 0 then own
  else ((membersOf s j).filter (· != x.desc.device)).foldl (fun m d => min m (tget 0 d x.heard)) own

/-- The sequence number that a checkpoint covers: the coordinator's to give, from the last one up to the highest whose effect the
checkpoint can include (R398, R561). DESIGN CHOICE: log entry 61. -/
def chooseJseq (j : Nat) (s : State) : Nat × State :=
  let lo := s.num (jobIx j 6) 2
  let d := s.draw
  (lo + d.1 % (settledSeq s j - lo + 1), d.2)

/-- The requests by which the coordinator task writes plans into the members' memories. -/
def taskReqs (s : State) (j : Nat) : List Remote := s.fab.remotes.filter (·.owner == .task j)

/-- PRISM_PLAN goes to every member once its plan has been written there; a plan that cannot be written faults the job, as any
remote write does (R288, R387). DESIGN CHOICE: log entries 88, 129. -/
def tryPlan (j : Nat) (s : State) : State :=
  let l := taskReqs s j
  let c := (s.job j).coord
  if c.planHashes = [] ∨ l.any (·.answer.isNone) then s
  else
    let rest := s.fab.remotes.filter (·.owner != .task j)
    let s := setCoord j { c with planHashes := [] } { s with fab := { s.fab with remotes := rest } }
    match l.find? fun r => match r.answer with | some a => !a.1 | none => false with
    | some r => jobFault j 0x25 r.dst r.dst s
    | none => c.planHashes.foldl (fun s e =>
        sendSigned j 0x25 160 ([0, 0] ++ e.2 ++ leBytes 2 (partnerOf s j).2) [e.1] s) s

/-- A plan is written into a member's memory (R387 step 3). DESIGN CHOICE: log entry 88. -/
def writePlan (j : Nat) (p : MemberPlan) (s : State) : State :=
  if p.device = (s.job j).desc.device then mustPut j p.addr p.plan s
  else (pageCuts (p.plan.length / 4096 + 2) p.addr p.plan).foldl (fun s c =>
    sendRemote (.task j) j p.device 4 c.1 c.2.length c.2 s) s

/-- Step 3 of R387: each member's plan is written into its memory, and PRISM_PLAN follows.
DESIGN CHOICE: log entry 88. -/
def sendPrismPlan (j : Nat) (plans : List MemberPlan) (s : State) : State :=
  let mine := plans.filter fun p => (membersOf s j).contains p.device
  let s := setCoord j { (s.job j).coord with prismSent := true, planHashes := mine.map fun p => (p.device, sha384 p.plan) } s
  tryPlan j (mine.foldl (fun s p => writePlan j p s) s)

/-- A checkpoint is complete: CKPT_DONE covers the sequence number of the coordinator's own manifest of that step (R398, R559).
DESIGN CHOICE: log entry 61. -/
def completeCkpt (j step : Nat) (s : State) : State :=
  let m := (s.job j).manifest
  let r := if m ≠ [] ∧ fieldOf m 8 8 = step then (fieldOf m 16 8, s) else chooseJseq j s
  let s := r.2.setNum (jobIx j 9) 2 0
  sendSigned j 0x28 160 ([0, 0] ++ leBytes 8 step ++ leBytes 8 r.1) (membersOf s j) s

/-- Every member has written its part of step `step`: the checkpoint is complete, and a switch at that step goes on. From serving
to training the message stands for step 2 of the switch, and there is no checkpoint. DESIGN CHOICE: log entry 88. -/
def allParts (j step : Nat) (plans : List MemberPlan) (s : State) : State :=
  match (s.job j).switching with
  | some (0, n) => if n = step ∧ !(s.job j).coord.prismSent then sendPrismPlan j plans s else s
  | some (_, n) => if n = step then sendPrismPlan j plans (completeCkpt j step s) else completeCkpt j step s
  | none => completeCkpt j step s

/-- PART_DONE at the coordinator: a checkpoint part, or a Prism (R376). DEDUCED: log entries 100, 132. -/
def takePart (j : Nat) (p : PartMessage) (s : State) : State :=
  let l := p.payload
  let c := (s.job j).coord
  let dev := msgSender l
  let step := fieldOf l 8 8
  let m := membersOf s j
  if !(m.contains dev) then s
  else if fieldOf l 6 1 = 1 then
    (if c.prisms.contains dev then s else setCoord j { c with prisms := c.prisms ++ [dev] } s)
  else if fieldOf l 6 1 = 0 ∧ !(c.parts.contains (dev, step)) then
    let parts := c.parts ++ [(dev, step)]
    if m.all fun d => parts.contains (d, step) then
      allParts j step p.plans (setCoord j { c with parts := parts.filter (decide <| step < ·.2) } s)
    else setCoord j { c with parts := parts } s
  else s

/-- PART_DONE (R398). -/
def execPartDone (job : Nat) (part : PartMessage) (s : State) : Host.Outcome State Fault Refusal :=
  forUnit (Instr.wf (.partDone job part)) (coordMsg job 0x27 part.payload (takePart job part) s)

/-- The manifest of a checkpoint that is complete has the JSEQ that CKPT_DONE gives it (R398). -/
def sealManifest (step jseq : Nat) (m : List Byte) : List Byte :=
  if m ≠ [] ∧ fieldOf m 8 8 = step then m.take 16 ++ leBytes 8 jseq ++ m.drop 24 else m

/-- A verified CKPT_DONE at a member (R396, R398). -/
def takeCkpt (j : Nat) (l : List Byte) (s : State) : State :=
  let step := fieldOf l 8 8
  let jseq := fieldOf l 16 8
  let s := s.setJob j { s.job j with manifest := sealManifest step jseq (s.job j).manifest }
  let s := (s.setNum (jobIx j 6) 1 step).setNum (jobIx j 6) 2 jseq
  putJournalShadow j (trimJournal j (post 0x4009 (src 9 j) j [(1, j), (8, step), (8, jseq)] s))

/-- CKPT_DONE (R398). -/
def execCkptDone (job : Nat) (payload : List Byte) (s : State) : Host.Outcome State Fault Refusal :=
  forUnit (Instr.wf (.ckptDone job payload)) (signedMsg job 0x28 160 payload (takeCkpt job payload) s)

/-- A member reports a stale source: a device that is not a member gets a fell notice (R401). -/
def takeSnag (j : Nat) (l : List Byte) (s : State) : State :=
  let dev := fieldOf l 8 2 % 2 ^ 14
  if (membersOf s j).contains dev then s
  else sendFell j dev (s.jobEpoch j) (b2n ((s.job j).coord.replaced.contains dev)) s

/-- SNAG_REPORT (R401). -/
def execSnagReport (job : Nat) (payload : List Byte) (s : State) : Host.Outcome State Fault Refusal :=
  forUnit (Instr.wf (.snagReport job payload)) (coordMsg job 0x29 payload (takeSnag job payload) s)

/-! ### The daily switch (R387) -/

/-- Steps that a training job has begun, as this package shows them: of its active stash chains, its landing operations, and the stem
records, member lists and norm reports that its coordinator task holds (R174, R340, R347, R360).
DEDUCED: log entry 136. -/
def stepsBegun (s : State) (j : Nat) : List Nat :=
  let x := s.job j
  let chains := s.dies.flatMap fun d => (d.chains.filter (·.1 == j)).map fun c => leNat (peekMem s c.2.2 8)
  let ops := (x.luOps.filter fun o => decide (1 ≤ o.kind ∧ o.kind ≤ 3) && o.status == 0).map (·.step)
  x.coord.listed.toList ++ x.coord.stems.map (·.1) ++ x.coord.norms.map (·.1) ++ ops ++ chains

/-- The boundary step S of a switch that starts now: of a training job the step in progress, which it finishes (R21).
DEDUCED: log entry 136. -/
def boundaryStep (s : State) (j : Nat) : Nat :=
  let x := s.job j
  if x.desc.kind = 0 then s.num (jobIx (partnerOf s j).1 6) 1 else (stepsBegun s j).foldl max x.lastStep

/-- Step 1 of R387: SWITCH goes to every member; the switch stays due until it completes here (R389). -/
def sendSwitch (j : Nat) (s : State) : State :=
  let s := setCoord j { (s.job j).coord with switchDue := true, prismSent := false, prisms := [], planHashes := [] } s
  let dir := b2n ((s.job j).desc.kind != 0)
  sendSigned j 0x26 160 (leBytes 1 dir ++ [0] ++ leBytes 8 (boundaryStep s j)) (membersOf s j) s

/-- A write of JOB_SWITCH: at the coordinator of a running job, SWITCH goes to every member (R403). -/
def applyJobSwitch (j v : Nat) (s : State) : Nat × State :=
  if v = 1 ∧ isCoord s j ∧ s.jobState j = 2 ∧ s.num (jobIx j 4) 2 ≠ 0 then
    (stOk, sendSwitch j s)
  else (stValue, s)

/-- The layers of a job that this package owns (R328). DESIGN CHOICE: log entry 130. -/
def ownedLayers (s : State) (j : Nat) : List Layer :=
  let l := (List.range (s.num 0x3806 (j + 1))).map fun k => layerOf (peekMem s (s.num 0x3805 (j + 1) + 128 * k) 128)
  l.filter (·.owner == (s.job j).desc.device)

/-- The parts of the layers that this package owns: master weights, moments and state records, as memory holds them (R397).
DESIGN CHOICE: log entry 130. -/
def ownedParts (s : State) (j : Nat) : List Byte :=
  (ownedLayers s j).flatMap fun x =>
    let n := x.elems
    (if x.split then peekMem s x.master (2 * n) ++ peekMem s x.sapwood (2 * n) else peekMem s x.master (4 * n))
      ++ peekMem s x.mBase (4 * n) ++ peekMem s x.vBase (4 * n) ++ peekMem s x.stateAddr 64

/-- PARTS and the bytes under the digest of a checkpoint part: the owned layers as memory holds them, and the error feedback and the program
state, whose bytes and places only the program knows, as it knows the number of parts. A serving job's checkpoint is its manifest alone
(R397). DESIGN CHOICE: log entry 130. -/
def partsOf (j : Nat) (s : State) : (Nat × List Byte) × State :=
  if (s.job j).desc.kind = 0 then ((0, []), s)
  else
    let n := s.draw
    let k := n.2.draw
    let e := k.2.draw
    ((n.1, ownedParts s j ++ leBytes k.1 e.1), e.2)

/-- The manifest of a checkpoint part of step S (R398). DESIGN CHOICE: log entry 130. -/
def manifestOf (j step : Nat) (s : State) : List Byte × State :=
  let d := (s.job j).desc
  let q := chooseJseq j s
  let p := partsOf j q.2
  (padTo (leBytes 8 (d.jobId * 2 ^ 52 + s.jobEpoch j * 2 ^ 36 + (s.topo j).ownRank * 2 ^ 22) ++ leBytes 8 step ++ leBytes 8 q.1
    ++ leBytes 8 (p.1.1 % 2 ^ 32 * 2 ^ 32) ++ sha384 p.1.2) 128, p.2)

/-- A count in memory has reached step S. -/
def countReached (s : State) (a step : Nat) : Bool := seqCmp 32 (leNat (peekMem s a 4)) (step % 2 ^ 32) != .earlier

/-- Step S is over at this package: the UPDATE of every layer that it owns is done, the heartwood of every layer has landed (R16
step 14), and no landing operation of the step is under way. -/
def stepOver (s : State) (j step : Nat) : Bool :=
  (ownedLayers s j).all (fun x => countReached s (x.stateAddr + 8) step)
    && (List.range (s.num 0x3C69 (j + 1))).all (fun i => countReached s (s.num 0x3C68 (j + 1) + 64 * i + 44) step)
    && !(s.job j).luOps.any fun o => o.kind == 3 && !o.completed && decide (o.step ≤ step)

/-- A checkpoint of step S may be taken: step S is over, and no stash chain of the job is active (R397). -/
def atBoundary (s : State) (j step : Nat) : Bool :=
  stepOver s j step && !s.dies.any fun d => d.chains.any fun c => c.1 == j

/-- PART_DONE 0 of a step goes to the coordinator. DESIGN CHOICE: log entry 88. -/
def sendPart (j step : Nat) (s : State) : State := sendCtrl j (coordDev s j) (ctrlMsg s j 0x27 64 ([0, 0] ++ leBytes 8 step)) s

/-- The member has written its checkpoint part of step S, with its manifest, and says so (R397, R398). -/
def writePart (j step : Nat) (s : State) : State :=
  let r := manifestOf j step s
  sendPart j step (r.2.setJob j { r.2.job j with manifest := r.1 })

/-- A running job takes a checkpoint when its program has it so, at a step boundary that no checkpoint of the job covers yet; which
boundary, and when a serving job takes one, whose steps only number its checkpoints, is the program's choice and free (R397).
DESIGN CHOICE: log entries 129, 130. -/
def mayCheckpoint (j : Nat) (s : State) : State :=
  let x := s.job j
  let step := if x.desc.kind = 0 then s.num (jobIx j 6) 1 + 1 else x.lastStep
  let fresh := decide (s.num (jobIx j 6) 1 < step) && (x.manifest == [] || fieldOf x.manifest 8 8 != step)
  if s.jobState j ≠ 2 ∨ !fresh ∨ (x.desc.kind ≠ 0 ∧ !atBoundary s j step) then s
  else
    let d := s.draw
    if d.1 % 2 = 1 then writePart j step d.2 else d.2

/-- Step 2 of R387. From training to serving: at the boundary of step S the member writes its checkpoint part and sends PART_DONE 0
(R21, R397, R398). From serving to training: once its accepted requests have been delivered and its slots are free, it says so by the
same message (R22). DESIGN CHOICE: log entries 88, 129. -/
def tryPart (j : Nat) (s : State) : State :=
  let x := s.job j
  let sent : State := s.setJob j { x with partSent := true }
  if s.jobState j ≠ 3 ∨ x.partSent then s
  else match x.switching with
    | some (1, step) => if atBoundary s j step then writePart j step sent else s
    | some (_, step) => if allDelivered s j then sendPart j step sent else s
    | none => s

/-- A verified SWITCH: the member enters SWITCHING, and a serving job closes its front end. -/
def takeSwitch (j : Nat) (l : List Byte) (s : State) : State :=
  if s.jobState j = 2 then
    let x := s.job j
    let dir := fieldOf l 6 1
    let front := if dir = 0 then { x.front with closed := true } else x.front
    tryPart j (setJobState j 3 (s.setJob j { x with
      switching := some (dir, fieldOf l 8 8), partSent := false, switchOpen := true, front := front }))
  else s

/-- SWITCH (R387). -/
def execSwitch (job : Nat) (payload : List Byte) (s : State) : Host.Outcome State Fault Refusal :=
  forUnit (Instr.wf (.switch job payload)) (signedMsg job 0x26 160 payload (takeSwitch job payload) s)

/-- The PRISM descriptor that a member posts (R305, R319). -/
def prismDesc (path planAddr targetAddr targetCount : Nat) : List Byte :=
  padTo (leBytes 8 (3 * 2 ^ 60 + path % 16 * 2 ^ 56) ++ leBytes 8 planAddr ++ leBytes 8 targetAddr
    ++ leBytes 8 (targetCount * 2 ^ 32)) 64

/-- A member checks its plan bytes against PLAN_HASH, writes the target records and posts the PRISM (R387 step 4).
DEDUCED: log entry 136. -/
def takePrismPlan (j : Nat) (l : List Byte) (planAddr targetAddr : Nat) (targets : List Byte) (path : Nat) (s : State) : State :=
  if s.jobState j = 3 then
    match plainRead planAddr 64 s with
    | (.ok h, s) => match plainRead planAddr (64 + 64 * fieldOf h 4 4) s with
      | (.ok plan, s) =>
        if sha384 plan = sliceOf l 8 48 then
          let p := (s.job j).colProd
          let a := colBase s j + 64 * (p % colSlots s j)
          let s := (tryWrite targetAddr targets s).2
          ringCol j (add32 p 1) (tryWrite a (prismDesc path planAddr targetAddr (targets.length / 64)) s).2
        else jobFault j 0x17 8 noSubject s
      | (_, s) => jobFault j 0x17 8 noSubject s
    | (_, s) => jobFault j 0x17 8 noSubject s
  else s

/-- PRISM_PLAN (R387). -/
def execPrismPlan (job : Nat) (payload : List Byte) (planAddr targetAddr : Nat) (targets : List Byte) (path : Nat) (s : State) :
    Host.Outcome State Fault Refusal :=
  forUnit (Instr.wf (.prismPlan job payload planAddr targetAddr targets path))
    (signedMsg job 0x25 160 payload (takePrismPlan job payload planAddr targetAddr targets path) s)

/-! ### What a job program does at its heartbeat -/

/-- The outgoing job of a switch has been ended for good: the switch is abandoned, and the member's program starts the training job, be it
the partner or, after a STOP of its FELLED context, the outgoing job itself (R389, R558). DESIGN CHOICE: log entries 88, 129. -/
def orphanSwitch (j : Nat) (s : State) : State :=
  let x := s.job j
  if s.jobState j ≠ 6 ∨ !x.switchOpen then s
  else
    let s := s.setJob j { x with switchOpen := false }
    if x.desc.kind = 0 then resumeTraining (partnerOf s j).1 s else resumeTraining j (stopJob j s)

/-- A heartbeat is due. The tasks of the job program that have no command of their own go on here too: step 4 of a restart, its
step 8, member lists that wait for the collective queue, steps 1 to 3 of a switch, and checkpoints between switches. DESIGN CHOICE: log entries 88, 129. -/
def beat (j : Nat) (s : State) : State :=
  let s := postLists j (s.job j).coord.listsDue.length (postAllHearts j (stepFour j (sendBeat j s)))
  let s := orphanSwitch j (mayCheckpoint j (tryPlan j (tryPart j s)))
  let x := s.job j
  if isCoord s j ∧ s.jobState j = 2 ∧ x.coord.switchDue ∧ x.switching = none then sendSwitch j s else s

/-- HEARTBEAT_TIMER (R376). DESIGN CHOICE: log entry 129. -/
def execHeartbeatTimer (job : Nat) (s : State) : Host.Outcome State Fault Refusal :=
  forUnit (Instr.wf (.heartbeatTimer job)) (if timeRuns s then beat job s else s)

/-! ### The end of a switch -/

/-- A frame of a job that is about to leave its context goes out at once. -/
def sendNow (j : Nat) (f : Frame) (s : State) : State :=
  match routeOf j f.dst s with
  | (.port p, s) => enqueue p f s
  | (.here, s) => (sinkCtrl j f s).2
  | (_, s) => s

/-- The program of a member installs the target records in the incoming job, and starts it (R387 step 5).
DEDUCED: log entry 136. -/
def startPartner (k base count : Nat) (s : State) : State :=
  if s.jobState k ≠ 0 then s
  else (applyJobCtrl k 1 ((s.setNum 0x3C68 (k + 1) base).setNum 0x3C69 (k + 1) count)).2

/-- Step 5 of R387: PART_DONE 1, the outgoing context becomes IDLE, and the incoming one starts. -/
def endSwitch (j : Nat) (prism : Coll) (s : State) : State :=
  match (s.job j).switching with
  | none => s
  | some (_, step) =>
    let d := (s.job j).desc
    let msg := ctrlMsg s j 0x27 64 ([1, 0] ++ leBytes 8 step)
    let f := mkFrame s { type := 6, jobId := d.jobId, epoch := s.jobEpoch j, src := d.device, dst := coordDev s j, payload := msg }
    let s := mirrorOff j (setJobState j 0 (stopWork j (sendNow j f s)))
    let k := (partnerOf s j).1
    let x := s.job j
    let s := s.setJob j { x with watchdog := false, switchOpen := false, coord := { x.coord with switchDue := false } }
    startPartner k prism.dst prism.count (post 0x4008 (src 9 j) j [(1, j), (1, k), (8, step)] s)

/-- The oldest collective of a path completes; the Prism of a switch ends the switch at this package (R307, R387).
DESIGN CHOICE: log entry 114. -/
def completeAndSwitch (j p : Nat) (s : State) : State :=
  let before := collsOf s j p
  let s := completeColl j p s
  match before with
  | c :: _ =>
    if c.kind = 3 ∧ s.jobState j = 3 ∧ (collsOf s j p).length < before.length then endSwitch j c s else s
  | [] => s

/-- COLLECTIVE_COMPLETE (R307). -/
def execCollectiveComplete (job path : Nat) (s : State) : Host.Outcome State Fault Refusal :=
  forUnit (Instr.wf (.collectiveComplete job path)) (completeAndSwitch job path s)

end Sys2Proof.Machine
end

