-- ==== Sys2Proof/Machine/HostLink.lean ====
section
/-!
DEFINITION. Machine/HostLink.lean: the host coupling: link states, detach and attach (R444 to R448, R454), the device-memory window
and its page bias (R432 to R436), outbound reads (R440), and acknowledgements (R451).
-/

namespace Sys2Proof.Machine

/-- HST_LINK_STATE: 0 DOWN, 1 DETACHED, 2 ATTACHED (R444). -/
def linkState (s : State) (k : Nat) : Nat := s.num 0x2C01 (k + 1)

/-- The package is ready (R508). -/
def packageReady (s : State) : Bool := s.num 0x5400 1 == 5

/-- The link exists in the link mode of the package (R426), which has opened its dictionary (R511), and the PCIe domain is ON (R580).
DEDUCED: log entry 102. -/
def linkExists (s : State) (k : Nat) : Bool := s.pwr.opened && s.on domPcie && (k == 0 || s.num 0x2C00 1 == 1)

/-! ### Detach (R445 to R448) -/

/-- Tensor operations that wrote or read on a link end with HOST_DETACHED, unless they have failed already. -/
def detachOp (s : State) (e : Nat × Nat) : State :=
  match findOp s e.1 e.2 with
  | some o => if o.phase = .done ∧ o.status ≠ 0 then s else failOp e.1 o ⟨6, 0, 0⟩ s
  | none => s

/-- The operation that waits for a read. -/
def readOp : RdOwner → Option (Nat × Nat)
  | .op n i => some (n, i)
  | .flush n i => some (n, i)
  | .queue _ _ => none
  | .front _ => none

/-- A structure at an address lies in the host window of a link. -/
def onLink (s : State) (k a : Nat) : Bool :=
  match hostOf s a with
  | some h => hostLink s h == k
  | none => false

/-- Delivery of a job stops until the next attach (R452). -/
def stopDelivery (j : Nat) (s : State) : State :=
  let x := s.job j
  s.setJob j { x with front := { x.front with delivering := false, flushing := none } }

/-- What a detach does beside the change of state (R446, R448). -/
def detachWork (k cause : Nat) (s : State) : State :=
  let gen := add32 (s.num 0x2C04 (k + 1)) 1
  let s := count 0x58A0 (k + 1) 1 (s.setNum 0x2C04 (k + 1) gen)
  let l := s.hlink k
  let lost := s.hst.reads.filter (·.link == k)
  let ops := (l.posted.filterMap (·.2.2)) ++ lost.filterMap (fun r => readOp r.owner)
  let keep := s.hst.reads.filter (·.link != k)
  let s := s.setHlink k { l with posted := [], inErrPages := [] }
  let s := ops.foldl detachOp (issueRemotes { s with hst := { s.hst with reads := keep } })
  let hit : State → Nat × Nat → Bool := fun s e =>
    dqOn s e.1 e.2 && (onLink s k (dqBase s e.1 e.2) || onLink s k (cqBase s e.1 e.2) || onLink s k (dqShadow s e.1 e.2))
  let s := allQueues.foldl (fun s e => if hit s e then stopQueueOr e.1 e.2 6 0 s else s) s
  let s := (List.range 16).foldl (fun s j => if s.num 0x2C21 (j + 1) = k then stopDelivery j s else s) s
  post 0x2C02 (src 8 k) 0x1F [(1, k), (1, cause), (4, gen)] s

/-- A link that is ATTACHED detaches; `state` is the one that it takes. -/
def detachLink (k cause state : Nat) (s : State) : State :=
  if linkState s k = 2 then detachWork k cause (s.setNum 0x2C01 (k + 1) state)
  else s.setNum 0x2C01 (k + 1) (min (linkState s k) state)

/-- A write of DETACH. -/
def doDetach (k : Nat) (s : State) : State := if linkState s k = 2 then detachLink k 3 1 s else s

/-- DETACH (R446). -/
def execDetach (link : Nat) (s : State) : Host.Outcome State Fault Refusal :=
  forUnit (Instr.wf (.detach link)) (doDetach link s)

/-- BAR2 of a link in bytes, as its Resizable BAR capability has it (R429). -/
def barBytes (s : State) (k : Nat) : Nat := 2 ^ (20 + (s.hlink k).barCode)

/-- Where the words of the MSI-X table of a link are kept. DEDUCED: log entry 103. -/
def msixWord (k off : Nat) : Nat := k * 2 ^ 32 + off / 8 * 8

/-- The function's configuration space and MSI-X state return to their reset values, the size of BAR2 and the MSI-X table among
them; the objects stay (R428, R429). DEDUCED: log entry 103. -/
def resetFunction (k : Nat) (s : State) : State :=
  let l := s.hlink k
  let s := { s with ctl := tkeep (fun a => !(decide (k * 2 ^ 32 ≤ a) && decide (a < k * 2 ^ 32 + 0x410))) s.ctl }
  s.setHlink k { HLink.init with bias := l.bias, posted := l.posted, inErrPages := l.inErrPages, ours := l.ours, theirs := l.theirs }

/-- A link comes up (R444). -/
def linkUp (k speed width : Nat) (s : State) : State :=
  let widths := if s.num 0x2C00 1 = 0 then [1, 2, 4, 8] else [1, 2, 4]
  if linkExists s k ∧ linkState s k = 0 ∧ 1 ≤ speed ∧ speed ≤ 7 ∧ widths.contains width then
    let s := ((s.setNum 0x2C01 (k + 1) 1).setNum 0x2C02 (k + 1) speed).setNum 0x2C03 (k + 1) width
    post 0x2C01 (src 8 k) 0x1F [(1, k), (1, speed), (1, width)] s
  else s

/-- PCIE_LINK_UP (R444). -/
def execPcieLinkUp (link speed width : Nat) (s : State) : Host.Outcome State Fault Refusal :=
  forUnit (Instr.wf (.pcieLinkUp link speed width)) (linkUp link speed width s)

/-- DL_Down. -/
def linkDown (k : Nat) (s : State) : State :=
  if linkState s k = 0 then s
  else resetFunction k (((detachLink k 0 0 s).setNum 0x2C02 (k + 1) 0).setNum 0x2C03 (k + 1) 0)

/-- PCIE_LINK_DOWN (R446). -/
def execPcieLinkDown (link : Nat) (s : State) : Host.Outcome State Fault Refusal :=
  forUnit (Instr.wf (.pcieLinkDown link)) (linkDown link s)

/-- PERST#, a hot reset or an FLR: the function is reset, and an ATTACHED link detaches. DEDUCED: log entry 103. -/
def resetLink (k : Nat) (s : State) : State :=
  if linkState s k = 0 then resetFunction k s else resetFunction k (detachLink k 1 1 s)

/-- PCIE_RESET (R428). -/
def execPcieReset (link : Nat) (kind : PcieResetKind) (s : State) : Host.Outcome State Fault Refusal :=
  forUnit (Instr.wf (.pcieReset link kind)) (resetLink link s)

/-- The host clears Bus Master Enable. -/
def masterOff (k : Nat) (s : State) : State :=
  let s := s.setHlink k { s.hlink k with busMaster := false }
  if linkState s k = 2 then detachLink k 2 1 s else s

/-- BUS_MASTER_DISABLE (R445). -/
def execBusMasterDisable (link : Nat) (s : State) : Host.Outcome State Fault Refusal :=
  forUnit (Instr.wf (.busMasterDisable link)) (masterOff link s)

/-! ### Attach (R454) -/

/-- The delivery control block of a job (R449). -/
def dlogCtrl (s : State) (j : Nat) : Nat := s.num 0x2C20 (j + 1)

/-- Inbound requests that are discarded or refused are counted (R456). -/
def inboundErr (k : Nat) (s : State) : State := count 0x58A3 (k + 1) 1 s

/-- Step 5 and 7 of R454 for one job: its settings go into the control block, and delivery starts from ACKED_SEQ + 1. -/
def attachJob (k j : Nat) (s : State) : State :=
  if s.num 0x2C21 (j + 1) = k ∧ dlogCtrl s j ≠ 0 then
    let b := leBytes 8 (tget 0 j s.hst.hring) ++ leBytes 8 (tget 0 j s.hst.hwritten) ++ leBytes 4 (s.num 0x2C04 (k + 1))
    let s := (tryWrite (dlogCtrl s j + 16) b s).2
    let x := s.job j
    s.setJob j { x with front := { x.front with
      delivering := true, nextDeliver := ackedSeq s j + 1, hostOff := 0, hostEnds := [], flushing := none } }
  else s

/-- The host's memory requests reach the function of a link: it is up, in D0, with Memory Space Enable set. PRESUMED: log entry 48. -/
def barReach (s : State) (k : Nat) : Bool := linkExists s k && linkState s k != 0 && (s.hlink k).barUp && !(s.hlink k).hot

/-- A write of ATTACH, which is a store to BAR0: bus mastering and MSI-X are as the host has set them (R454 step 1).
DEDUCED: log entry 103. -/
def doAttach (k value : Nat) (s : State) : State :=
  let id := value % 2 ^ 32
  if !linkExists s k ∨ linkState s k ≠ 0 ∧ !barReach s k then s
  else if !packageReady s ∨ id = 0 ∨ linkState s k ≠ 1 then inboundErr k s
  else
    let s := (List.range 16).foldl (fun s j => attachJob k j s) s
    let s := s.setHlink k { s.hlink k with inErrPages := [] }
    let s := (s.setNum 0x2C01 (k + 1) 2).setNum 0x2C05 (k + 1) id
    flushMsix k (deliverAll (post 0x2C03 (src 8 k) 0x1F [(1, k), (4, id), (4, s.num 0x2C04 (k + 1))] s))

/-- ATTACH (R454). -/
def execAttach (link value : Nat) (s : State) : Host.Outcome State Fault Refusal :=
  forUnit (Instr.wf (.attach link value)) (doAttach link value s)

/-! ### Inbound accesses to BAR2 (R432 to R434) -/

/-- Device address of an offset in BAR2. -/
def barAddr (s : State) (k off : Nat) : Nat := s.num 0x2C07 (k + 1) + off

/-- Every line of a range of BAR2 is device memory that can be accessed. -/
def barOk (s : State) (k off n : Nat) : Bool := rangeOk s (barAddr s k off) n

/-- Page of an offset, and whether it is in device bias. -/
def deviceBias (s : State) (k off : Nat) : Bool := tget false (off / 0x200000) (s.hlink k).bias

/-- An access that meets a hole: counted, and reported once for each page in each attachment (R432).
DEDUCED: log entry 104. -/
def holeErr (k off : Nat) (s : State) : State :=
  let s := inboundErr k s
  let l := s.hlink k
  let p := off / 0x200000
  if l.inErrPages.contains p then s
  else post 0x2C05 (src 8 k) 0x1F [(1, k), (8, off)] (s.setHlink k { l with inErrPages := insNat p l.inErrPages })

/-- A read of a link has completed: every earlier write of its host has been performed (R436, R442). -/
def readBack (k : Nat) (s : State) : State := s.setHlink k { s.hlink k with theirs := [] }

/-- The request lies in BAR2 of a link that is up. -/
def barHit (s : State) (k off n : Nat) : Bool :=
  linkState s k != 0 && decide (0 < n) && decide (off + n ≤ barBytes s k)

/-- A line of a device-bias page that the host of link k accesses, and that an agent of the package has accessed since the page was
flushed or holds in a cache: what it holds, in memory and in every copy, is no value that the manual gives (R436).
DESIGN CHOICE: log entry 139. -/
def ifBoth (k line : Nat) (s : State) : State :=
  if (s.hlink k).ours.contains line || dirOf s line != DirEntry.empty || (latestHeld s line).isSome then scrambleAll line s else s

/-- The host of link k has written a line of a device-bias page (R436). -/
def noteTheirs (k line : Nat) (s : State) : State := s.setHlink k { s.hlink k with theirs := insNat line (s.hlink k).theirs }

/-- Lines read straight from memory, with no snoop (R434). DEDUCED: log entry 104. DESIGN CHOICE: log entry 139. -/
def directLines (i : Nat) : Nat → Nat → State → (List Byte × Bool) × State
  | 0, _, s => (([], false), s)
  | k + 1, line, s =>
    let r := memReadLine line (ifBoth i line s)
    let q := directLines i k (line + 64) r.2
    ((r.1.1 ++ q.1.1, r.1.2 || q.1.2), q.2)

/-- n bytes read straight from memory for the host of link i. -/
def directRead (i a n : Nat) (s : State) : (List Byte × Bool) × State :=
  let r := directLines i ((a % 64 + n + 63) / 64) (lineOf a) s
  ((((r.1.1).drop (a % 64)).take n, r.1.2), r.2)

/-- Bytes written straight to memory, line by line (R211, R434); the write clears every reservation on its lines (R247).
DESIGN CHOICE: log entry 139. -/
def directWrite (i : Nat) : Nat → Nat → List Byte → State → State
  | 0, _, _, s => s
  | k + 1, a, l, s =>
    if l = [] then s
    else
      let off := a % 64
      let n := min (64 - off) l.length
      let d := List.replicate off 0 ++ l.take n ++ List.replicate (64 - off - n) 0
      directWrite i k (a + n) (l.drop n)
        (noteTheirs i (lineOf a) (ifBoth i (lineOf a) (memWriteLine (lineOf a) (maskFrom off n) d (clearResv (lineOf a) s))))

/-- A completion to the host: 0 success, 1 Unsupported Request, 2 success with EP. -/
def answerHost (k status : Nat) (l : List Byte) (s : State) : State := s.emit (.pcieCpl k status l)

/-- A read of BAR2; a function that does not decode memory answers Unsupported Request (R427). PRESUMED: log entry 48. -/
def readBar (k off n : Nat) (s : State) : State :=
  if !barHit s k off n then s
  else if !barReach s k then answerHost k 1 [] s
  else if !packageReady s then answerHost k 1 [] (inboundErr k s)
  else if !barOk s k off n then answerHost k 1 [] (holeErr k off s)
  else
    let a := barAddr s k off
    let r := if deviceBias s k off then directRead k a n s else readMem a n s
    answerHost k (if r.1.2 then 2 else 0) r.1.1 (readBack k r.2)

/-- AER records a Poisoned TLP Received (R433). -/
def noteAer (k : Nat) (s : State) : State := s.setHlink k { s.hlink k with aer := setBit (s.hlink k).aer 12 true }

/-- A write to BAR2; one that carries EP is discarded, reported and counted (R433). -/
def writeBar (k off : Nat) (l : List Byte) (poisoned : Bool) (s : State) : State :=
  if !barHit s k off l.length ∨ !barReach s k then s
  else if poisoned then noteAer k (inboundErr k s)
  else if !packageReady s then inboundErr k s
  else if !barOk s k off l.length then holeErr k off s
  else
    let a := barAddr s k off
    if deviceBias s k off then directWrite k (l.length / 64 + 2) a l s else writeMem a l s

/-- INBOUND_WRITE (R434). -/
def execInboundWrite (link offset : Nat) (data : List Byte) (poisoned : Bool) (s : State) :
    Host.Outcome State Fault Refusal :=
  forUnit (Instr.wf (.inboundWrite link offset data poisoned)) (writeBar link offset data poisoned s)

/-- The AtomicOps that the function completes: FetchAdd, Swap and CAS (R427). -/
def barAtomic : AtomicOp → Bool
  | .add => true
  | .swap => true
  | .cas _ => true
  | .xor => false
  | .and => false
  | .or => false
  | .min => false
  | .max => false
  | .minu => false
  | .maxu => false

/-- An atomic made straight at the memory controller or the Canopy banks. A poisoned line is not written (R215); a write clears
every reservation on the line (R247). DESIGN CHOICE: log entry 139. -/
def directAtomic (i : Nat) (op : AtomicOp) (a w x : Nat) (s : State) : (Nat × Bool) × State :=
  let line := lineOf a
  let r := memReadLine line (noteTheirs i line (ifBoth i line s))
  let v := atomicLine op a w x r.1.1
  if r.1.2 then ((v.1, true), r.2)
  else ((v.1, false), memWriteLine line (maskFrom (a % 64) w) v.2 (clearResv line r.2))

/-- An AtomicOp on BAR2; a 128-bit one is an Unsupported Request (R433). -/
def atomicBar (k off w : Nat) (op : AtomicOp) (x : Nat) (s : State) : State :=
  if !barHit s k off w then s
  else if !barReach s k then answerHost k 1 [] s
  else if !packageReady s then answerHost k 1 [] (inboundErr k s)
  else if !barOk s k off w then answerHost k 1 [] (holeErr k off s)
  else if !barAtomic op ∨ w = 16 ∨ barAddr s k off % w ≠ 0 then answerHost k 1 [] s
  else
    let a := barAddr s k off
    let r := if deviceBias s k off then directAtomic k op a w x s else atomicAt op a w x s
    answerHost k (if r.1.2 then 2 else 0) (leBytes w r.1.1) r.2

/-- INBOUND_ATOMICOP (R433). -/
def execInboundAtomicop (link offset width : Nat) (op : AtomicOp) (operand : Nat) (s : State) :
    Host.Outcome State Fault Refusal :=
  forUnit (Instr.wf (.inboundAtomicop link offset width op operand)) (atomicBar link offset width op operand s)

/-! ### Page bias (R435) -/

/-- Lines of a page that a cache, a message on the mesh, a transaction or a directory holds. -/
def pageLines (s : State) (a : Nat) : List Nat :=
  let l := s.coh.dir.map (·.1) ++ s.coh.txns.map (·.1) ++ s.coh.waiting.map (·.1) ++ s.coh.caches.flatMap (fun c => c.2.map (·.1))
    ++ s.coh.msgs.filterMap (fun m => match m with | .ev _ _ line _ _ => some line | _ => none)
  (l.filter fun x => decide (a ≤ x) && decide (x < a + 0x200000)).dedup

/-- FLUSH of one line: what is in progress on it ends, a dirty copy is written back, every copy goes, and its directory entry is
empty. -/
def flushLine (s : State) (line : Nat) : State :=
  setDir line DirEntry.empty (notifyWatchers line (killCopies line true (calmLine line s)))

/-- No agent of the package has accessed a line of the page at an address since its FLUSH (R436). -/
def forgetOurs (k a : Nat) (s : State) : State :=
  s.setHlink k { s.hlink k with ours := (s.hlink k).ours.filter fun l => !(decide (a ≤ l) && decide (l < a + 0x200000)) }

/-- A bias command: [63:62] op, [18:0] page; one whose reserved bits [61:19] are not 0 is malformed, and is discarded and counted as
the others are (R9). DEDUCED: log entry 102. -/
def biasCmd (k word : Nat) (s : State) : State :=
  let op := bits word 63 62
  let p := word % 2 ^ 19
  let done : State → State := fun s => s.setNum 0x2C0C (k + 1) (add32 (s.num 0x2C0C (k + 1)) 1)
  if op = 0 ∨ bits word 61 19 ≠ 0 ∨ barBytes s k ≤ p * 0x200000 then inboundErr k s
  else if op = 3 then done (forgetOurs k (barAddr s k (p * 0x200000)) ((pageLines s (barAddr s k (p * 0x200000))).foldl flushLine s))
  else done (s.setHlink k { s.hlink k with bias := tset false p (op == 2) (s.hlink k).bias })

/-- A bias command whose row fixes its op; the link must exist. Before the package is ready it is discarded and counted (R509). -/
def biasRow (k op word : Nat) (s : State) : State :=
  if !linkExists s k then s
  else if packageReady s then biasCmd k (op * 2 ^ 62 + word % 2 ^ 62) s
  else inboundErr k s

/-- SET_SHARED (R435). -/
def execSetShared (link word : Nat) (s : State) : Host.Outcome State Fault Refusal :=
  forUnit (Instr.wf (.setShared link word)) (biasRow link 1 word s)

/-- SET_DEVICE (R435). -/
def execSetDevice (link word : Nat) (s : State) : Host.Outcome State Fault Refusal :=
  forUnit (Instr.wf (.setDevice link word)) (biasRow link 2 word s)

/-- FLUSH (R435). -/
def execFlush (link word : Nat) (s : State) : Host.Outcome State Fault Refusal :=
  forUnit (Instr.wf (.flush link word)) (biasRow link 3 word s)

/-! ### Acknowledgements (R451) -/

/-- A field of the delivery control block, or 0 where there is none or it cannot be read. -/
def ctrlField (j off n : Nat) (s : State) : Nat × State :=
  if dlogCtrl s j = 0 then (0, s)
  else match plainRead (dlogCtrl s j + off) n s with
    | (.ok l, s) => (leNat l, s)
    | (_, s) => (0, s)

/-! ### The delivery log (R19, R20, R28, R449) -/

/-- The log of a job: base, and bytes. -/
def logBase (s : State) (j : Nat) : Nat := s.num 0x2C22 (j + 1) / 4096 * 4096
def logSize (s : State) (j : Nat) : Nat := 2 ^ (s.num 0x2C22 (j + 1) % 32)

/-- The log has room for one more record of n bytes above the oldest that it holds, with its pad.
DEDUCED: log entry 106. -/
def logFits (s : State) (j n : Nat) : Bool :=
  let x := (s.job j).front
  let start := (x.logged.map (·.2.1)).foldl min x.logEnd
  decide (x.logEnd + padBefore (logSize s j) x.logEnd n + n ≤ start + logSize s j)

/-- Room for one more record: none waits for room, and one as large as the largest that the log holds fits; a job with no delivery
has no log. DEDUCED: log entry 106. -/
def logRoom (s : State) (j : Nat) : Bool :=
  dlogCtrl s j == 0 ||
    ((s.job j).front.results == [] && logFits s j (((s.job j).front.logged.map (·.2.2)).foldl max 64))

/-- LAST_SEQ of the control block: below every accepted request whose result is not in the log yet, those that replay has still
to bring among them (R399, R449). DEDUCED: log entry 106. -/
def logLast (s : State) (j : Nat) : Nat :=
  let x := s.job j
  let due := x.front.opened.map (·.1) ++ x.front.results.map (·.1)
  let due := if replayDone s j then due else (x.replaySeq + x.replayed) :: due
  due.foldl min (((x.front.records.map (·.1)).foldl max (lastSeq s j)) + 1) - 1

/-- The front end writes LAST_SEQ; it never falls. DEDUCED: log entry 106. -/
def putLogLast (j : Nat) (s : State) : State :=
  if dlogCtrl s j = 0 then s
  else
    let r := ctrlField j 0 8 s
    let v := logLast r.2 j
    if r.1 < v then (tryWrite (dlogCtrl r.2 j) (leBytes 8 v) r.2).2 else r.2

/-- Step 7 of R19: the slot of a request whose result record is written is released. -/
def closeRequest (j seq : Nat) (s : State) : State :=
  let x := s.job j
  let slot := (x.front.opened.find? fun e => e.1 == seq).map (·.2.1)
  let s := s.setJob j { x with front := { x.front with opened := x.front.opened.filter (·.1 != seq) } }
  match slot with
  | some k => if slotBoundTo s k j then releaseSlot k s else s
  | none => s

/-- A result record goes into the log, after the pad that keeps it from wrapping (R284, R449), and the request is closed.
DEDUCED: log entry 106. -/
def writeLog (j seq : Nat) (l : List Byte) (s : State) : State :=
  let x := s.job j
  let size := logSize s j
  let pos := x.front.logEnd
  let pad := padBefore size pos l.length
  let s := if pad = 0 then s else (tryWrite (logBase s j + pos % size) (padRecord pad) s).2
  let r := tryWrite (logBase s j + (pos + pad) % size) l s
  if r.1 then
    let x := r.2.job j
    let f := { x.front with
      logged := x.front.logged ++ [(seq, pos + pad, l.length)], logEnd := pos + pad + l.length,
      results := x.front.results.filter (·.1 != seq) }
    closeRequest j seq (r.2.setJob j { x with front := f })
  else r.2

/-- The result that is next in sequence-number order among those that wait for the log. -/
def nextResult (s : State) (j : Nat) : Option (Nat × List Byte) :=
  let l := (s.job j).front.results
  l.find? fun e => l.all fun x => decide (e.1 ≤ x.1)

/-- Results that wait go into the log in sequence-number order while they fit (R28); at most n.
DEDUCED: log entry 106. -/
def flushResults (j : Nat) : Nat → State → State
  | 0, s => s
  | n + 1, s => match nextResult s j with
    | none => s
    | some (seq, l) =>
      if logFits s j l.length then
        let t := writeLog j seq l s
        if (t.job j).front.results.length < (s.job j).front.results.length then flushResults j n t else t
      else s

/-- The log has no room for one more record: the front end stops acknowledging, and says so once (R28).
DEDUCED: log entry 106. -/
def stopForLog (j : Nat) (s : State) : State :=
  if (s.job j).front.fullLog then s
  else
    let r := ctrlField j 0 8 s
    let x := r.2.job j
    post 0x2C07 (src 9 j) j [(1, j), (8, r.1), (8, ackedSeq r.2 j)] (r.2.setJob j { x with front := { x.front with fullLog := true } })

/-- The front end accepts again once the log has room for one more record, and stops when it has none (R28).
DEDUCED: log entry 106. -/
def noteRoom (j : Nat) (s : State) : State :=
  let x := s.job j
  if logRoom s j then s.setJob j { x with front := { x.front with fullLog := false } } else stopForLog j s

/-- The results that wait are written as far as the log has room; LAST_SEQ follows, and the room left decides on acceptance (R28).
DEDUCED: log entry 106. -/
def settleLog (j : Nat) (s : State) : State := noteRoom j (putLogLast j (flushResults j (s.job j).front.results.length s))

/-- The job program brings the result of an accepted request. It waits for the log, or, in a job that delivers nothing, only closes
the request; one that has been acknowledged is not delivered again (R399). DEDUCED: log entries 101, 106. -/
def takeResult (j seq : Nat) (payload : List Byte) (s : State) : State :=
  let x := s.job j
  match x.front.opened.find? fun e => e.1 == seq with
  | none => s
  | some (_, _, source) =>
    if dlogCtrl s j = 0 ∨ seq ≤ ackedSeq s j ∨ x.front.logged.any (·.1 == seq) then putLogLast j (closeRequest j seq s)
    else if x.front.results.any (·.1 == seq) then s
    else settleLog j (s.setJob j { x with front := { x.front with
      results := x.front.results ++ [(seq, recBytes seq 1 source payload)] } })

/-- An acknowledgement of job j: the records that it covers leave the log, and results that waited for their room go in (R28, R451,
R452). -/
def acknowledge (j v : Nat) (s : State) : State :=
  if v ≤ ackedSeq s j then s
  else
    let r := ctrlField j 0 8 s
    if r.1 < v then
      post 0x2C06 (src 9 j) j [(1, j), (8, v), (8, r.1)] (count 0x58A5 (j + 1) 1 r.2)
    else
      let s := (tryWrite (dlogCtrl r.2 j + 8) (leBytes 8 v) r.2).2
      let s := s.setNum (jobIx j 6) 4 v
      let x := s.job j
      let s := settleLog j (s.setJob j { x with front := { x.front with
        logged := x.front.logged.filter fun e => decide (v < e.1) } })
      if s.jobState j = 0 then s else putJournalShadow j (trimJournal j s)

/-- ACK (R451). -/
def execAck (job value : Nat) (s : State) : Host.Outcome State Fault Refusal :=
  forUnit (Instr.wf (.ack job value)) (acknowledge job (value % 2 ^ 64) s)

/-! ### Streaming stores (R240) -/

/-- STREAMING_STORE: a whole aligned line, sent as a cacheless write behind the hart's own earlier operations on the line (R237,
R240). In the host window it is a core store: sent while the link is ATTACHED, else discarded and counted (R438, R439, R447).
One that PMP forbids, or that meets a hole, takes an access fault (R195, R412). DEDUCED: log entry 39. PRESUMED: log entry 119. -/
def streamStore (h addr : Nat) (data : List Byte) (s : State) : State :=
  if addr % 64 ≠ 0 then s
  else if !(s.hart h).pmpOk addr 64 true then trapHart h causeStore addr s
  else match hostOf s addr with
    | some a =>
      postEach true a data s
    | none => if memOk s addr then cohWriteLine addr fullMask data s else trapHart h causeStore addr s

/-- STREAMING_STORE (R240). -/
def execStreamingStore (hart addr : Nat) (data : List Byte) (s : State) : Host.Outcome State Fault Refusal :=
  forUnit (Instr.wf (.streamingStore hart addr data)) (streamStore hart addr data s)

/-! ### Outbound reads (R440) -/

/-- Physical address of a host address. DEDUCED: log entry 105. -/
def hostPhys (h : Nat) : Nat := 0x800000000000 + h

/-- An operation ends because a read of it did: unless it has failed already, it takes the status.
DEDUCED: log entry 105. -/
def readFailed (n isn status h : Nat) (s : State) : State :=
  match findOp s n isn with
  | some o => if o.phase = .done ∧ o.status ≠ 0 then s else failOp n o ⟨status, hostPhys h, 0⟩ s
  | none => s

/-- What a read that brings no usable data does to who waits for it. DEDUCED: log entry 105. -/
def endRead (r : HRead) (status : Nat) (s : State) : State :=
  match r.owner with
  | .op n i => readFailed n i status r.addr s
  | .flush n i => readFailed n i status r.addr s
  | .queue n q => queueFail n q (if status = 3 then .poison else .access) (hostPhys r.addr) s
  | .front j => stopDelivery j s

/-- Bytes that a completion delivered. DESIGN CHOICE: log entry 9. -/
def hostDeliver (h : Nat) (l : List Byte) (s : State) : State :=
  { s with hst := { s.hst with mem := putMem s.hst.mem h l } }

/-- A flushing read of the front end completes: the new written count is stored, and the record has been delivered (R452). -/
def flushedRecord (j : Nat) (s : State) : State :=
  let x := s.job j
  match x.front.flushing with
  | none => s
  | some (seq, n) =>
    let s := postEach true (tget 0 j s.hst.hwritten) (leBytes 8 n) s
    s.setJob j { x with front := { x.front with
      flushing := none, hostOff := n, nextDeliver := seq + 1, hostEnds := x.front.hostEnds ++ [(seq, n)] } }

/-- The read leaves the list of those outstanding. Its completion shows that the posted writes before it have arrived (R442). -/
def leaveRead (r : HRead) (arrived : Bool) (s : State) : State :=
  let n := if arrived then r.before else 0
  let less : HRead → HRead := fun q => if q.link = r.link then { q with before := q.before - n } else q
  let rest := (s.hst.reads.filter (·.id != r.id)).map less
  let l := s.hlink r.link
  let s := s.setHlink r.link { l with posted := l.posted.drop n }
  issueRemotes { s with hst := { s.hst with reads := rest } }

/-- A completion for an outbound read. DEDUCED: log entry 104. -/
def completeRead (id : Nat) (o : CplOutcome) (s : State) : State :=
  match s.hst.reads.find? (·.id == id) with
  | none => s
  | some r =>
    let s := leaveRead r true s
    match o with
    | .data l => match r.owner with
      | .front j => flushedRecord j s
      | .flush _ _ => s
      | .op _ _ => hostDeliver r.addr (sliceOf l 0 r.length) s
      | .queue _ _ => hostDeliver r.addr (sliceOf l 0 r.length) s
    | .poisoned => endRead r 3 s
    | .refused => endRead r 2 s

/-- OUTBOUND_READ_COMPLETION (R440). DEDUCED: log entry 68. -/
def execOutboundReadCompletion (id : Nat) (outcome : CplOutcome) (s : State) : Host.Outcome State Fault Refusal :=
  forUnit (Instr.wf (.outboundReadCompletion id outcome)) (completeRead id outcome s)

/-- No completion in time. -/
def timeoutRead (id : Nat) (s : State) : State :=
  match s.hst.reads.find? (·.id == id) with
  | none => s
  | some r =>
    let s := post 0x2C04 (src 8 r.link) 0x1F [(1, r.link), (8, hostPhys r.addr)] (count 0x58A2 (r.link + 1) 1 (leaveRead r false s))
    endRead r 7 s

/-- HOST_CPL_TIMEOUT: counted on the PCIe reference clock (R27, R440). DEDUCED: log entry 54. -/
def execHostCplTimeout (id : Nat) (s : State) : Host.Outcome State Fault Refusal :=
  forUnit (Instr.wf (.hostCplTimeout id)) (if s.tim.refclk then timeoutRead id s else s)

end Sys2Proof.Machine
end

