-- ==== Sys2Proof/Machine/Front.lean ====
section
/-!
DEFINITION. Machine/Front.lean: the serving front end: acceptance of a request (R19, R28, R153 to R155, R393 to
R396), replay (R399), and delivery of result records (R20, R452).
-/

namespace Sys2Proof.Machine

/-! ### Acceptance (R19, R28, R153 to R155, R396) -/

/-- Bytes of a page of a slot whose rows take RS bytes of codes and SB bytes of scales (R154, R155). -/
def kvPage (rowBytes scaleBytes : Nat) : Nat := roundUp (128 * rowBytes + 128 * scaleBytes) 4096

/-- RS and SB of a row of the cache (R53, R154). -/
def needRs (n : KvNeed) : Nat := roundUp (rowBytes n.fmt n.dim) 64
def needSb (n : KvNeed) : Nat := if n.blk = 0 then 0 else ceilDiv n.dim (blockLen n.blk)

/-- Entries per layer in the page table, at the request's greatest length (R153, R155). -/
def needPerLayer (n : KvNeed) : Nat := ceilDiv n.positions 64

/-- The cache is one that a slot descriptor can name: QF8 or QF12, a block size that R29 allows, and values that fit (R30, R153). -/
def needOk (n : KvNeed) : Bool :=
  ((n.fmt == 2 && decide (n.blk < 3)) || (n.fmt == 3 && n.blk == 0))
    && decide (n.layers < 2 ^ 16) && decide (needPerLayer n < 2 ^ 16) && decide (n.dim < 2 ^ 32) && decide (n.table < 2 ^ 64)

/-- The slot descriptor of a request that has just been accepted: it holds no position yet (R153).
DESIGN CHOICE: log entry 131. -/
def slotDesc (n : KvNeed) (seq : Nat) : List Byte :=
  padTo (leBytes 8 seq ++ leBytes 8 (n.layers * 2 ^ 16 + (needPerLayer n))
    ++ leBytes 8 (n.fmt * 2 ^ 60 + n.blk * 2 ^ 58 + n.dim) ++ leBytes 8 n.table) 64

/-- The free positions of lowest number in the page pool, as many as a request needs at its greatest length; none when the pool
has too few (R155). DESIGN CHOICE: log entry 131. -/
def freePages (s : State) (j n : Nat) : Option (List Nat) :=
  let used := (s.job j).front.pages.flatMap (·.2)
  let l := ((List.range (s.num 0x3C44 (j + 1))).filter fun i => !used.contains i).take n
  if l.length = n then some l else none

/-- Of several free slots, which the manual does not choose among, the one of lowest number that the job may bind.
DESIGN CHOICE: log entry 131. -/
def freeSlotOf (s : State) (j : Nat) : Option Nat :=
  (bitList (s.job j).desc.slotMask 32).find? fun k => slotFree s k

/-- The addresses that the pool list holds at some positions, read as the front end reads them; none where one cannot be read. -/
def poolAddrs (j : Nat) : List Nat → State → Option (List Nat) × State
  | [], s => (some [], s)
  | i :: r, s => match plainRead (s.num 0x3C43 (j + 1) + 8 * i) 8 s with
    | (.ok l, s) =>
      let q := poolAddrs j r s
      (q.1.map (leNat l :: ·), q.2)
    | (_, s) => (none, s)

/-- A slot with the pages of a request, and the bytes of its page table. -/
structure Seat where
  slot : Nat
  pages : List Nat
  table : List Byte
  deriving DecidableEq, Repr

/-- The slot and pages of a request, where it can have them and its descriptor and page table can be written: their addresses come
from the pool list (R19, R154, R155). DESIGN CHOICE: log entry 131. -/
def reserve (j : Nat) (n : KvNeed) (s : State) : Option Seat × State :=
  if !needOk n || decide (s.num 0x3C45 (j + 1) < kvPage (needRs n) (needSb n)) then (none, s)
  else match freeSlotOf s j, freePages s j (n.layers * (needPerLayer n)) with
    | some k, some l => match poolAddrs j l s with
      | (some a, s) =>
        if rangeOk s (s.num 0x3C41 (k + 1)) 64 && rangeOk s n.table (8 * a.length) then
          (some { slot := k, pages := l, table := a.flatMap (leBytes 8) }, s)
        else (none, s)
      | (none, s) => (none, s)
    | _, _ => (none, s)

/-- A request is bound to its slot: the pages are reserved, and the page table and the slot descriptor written (R152 to R155).
DESIGN CHOICE: log entry 131. -/
def seat (j seq source : Nat) (n : KvNeed) (e : Seat) (s : State) : State :=
  let x := s.job j
  let s := s.setJob j { x with front := { x.front with
    pages := tset [] e.slot e.pages x.front.pages, opened := x.front.opened ++ [(seq, e.slot, source)] } }
  let s := (applySlotBind e.slot (128 + j) s).2
  writeMem (s.num 0x3C41 (e.slot + 1)) (slotDesc n seq) (writeMem n.table e.table s)

/-- A request is journaled, and so accepted, with the next sequence number. R19 names no message by which the sender learns it: it
shows as LAST_SEQ. DESIGN CHOICE: log entry 131. -/
def journalRequest (j kind source : Nat) (payload : List Byte) (slot : Option (KvNeed × Seat)) (s : State) : State :=
  let seq := ((s.job j).front.records.map (·.1)).foldl max (lastSeq s j) + 1
  if 2 ^ 64 ≤ seq then jobFault j 0x0C 0 noSubject s
  else
    let s := match slot with
      | some (n, e) => seat j seq (source % 2 ^ 14) n e s
      | none => s
    match appendRecord j seq (recBytes seq kind (source % 2 ^ 14) payload) s with
    | (some a, s) => accessFault j .access a s
    | (none, s) => settleLast j s

/-- The front end stops acknowledging for want of journal space (R396). -/
def stopForJournal (j : Nat) (s : State) : State :=
  let x := s.job j
  if x.front.fullJournal then s
  else
    post 0x4007 (src 9 j) j [(1, j), (8, lastSeq s j), (8, trimSeq s j)]
      (count 0x5886 (j + 1) 1 (s.setJob j { x with front := { x.front with fullJournal := true } }))

/-- A request, or a training command, is offered to the front end. -/
def offerRequest (j : Nat) (payload : List Byte) (source : Nat) (need : KvNeed) (s : State) : State :=
  let x := s.job j
  let serving := x.desc.kind == 0
  if s.jobState j ≠ 2 ∨ x.front.closed ∨ !replayDone s j then s
  else
    let s := if serving then noteRoom j s else s
    if serving && !logRoom s j then s
    else
      if !journalFits s j (recLen payload.length) then stopForJournal j s
      else
        let s := s.setJob j { s.job j with front := { (s.job j).front with fullJournal := false } }
        if serving then
          match reserve j need s with
          | (some e, s) => journalRequest j 1 source payload (some (need, e)) s
          | (none, s) => s
        else journalRequest j 2 source payload none s

/-- REQUEST_ACCEPT (R19). -/
def execRequestAccept (job : Nat) (payload : List Byte) (source layers positions : Nat) (form : KvForm) (table : Nat) (s : State) :
    Host.Outcome State Fault Refusal :=
  forUnit (Instr.wf (.requestAccept job payload source layers positions form table))
    (offerRequest job payload source { form with layers := layers, positions := positions, table := table } s)

/-! ### Replay (R391 step 9, R399) -/

/-- The next record of a replay runs again: a serving request is bound to a slot under its own sequence number, and its result is
brought by RESULT_DELIVERY as the first time; a switch that has begun waits for it (R22), and it waits for a mirror that is being rebuilt
(R568). A record that no copy holds faults the job. DEDUCED: log entry 101. -/
def replayNext (j : Nat) (need : KvNeed) (s : State) : State :=
  let x := s.job j
  let seq := x.replaySeq + x.replayed
  let ran : State → State := fun s => putLogLast j (count 0x5882 (j + 1) 1 (s.setJob j { s.job j with replayed := x.replayed + 1 }))
  if (s.jobState j ≠ 2 ∧ s.jobState j ≠ 3) ∨ replayDone s j ∨ s.num (jobIx j 8) 3 = 2 then s
  else match sourceRec j seq s with
    | (none, s) => jobFault j 0x1C seq noSubject s
    | (some (_, l), s) =>
      if fieldOf l 15 1 = 1 then
        match reserve j need s with
        | (some e, s) => ran (seat j seq (fieldOf l 16 8 / 2 ^ 50) need e s)
        | (none, s) => s
      else ran s

/-- JOURNAL_REPLAY (R399). -/
def execJournalReplay (turn : ReplayTurn) (s : State) : Host.Outcome State Fault Refusal :=
  forUnit (Instr.wf (.journalReplay turn)) (replayNext turn.job turn.need s)

/-! ### Delivery (R452) -/

/-- Bytes of the host ring, where HRING names one (R450). -/
def hostRing (s : State) (j : Nat) : Option (Nat × Nat) :=
  let v := tget 0 j s.hst.hring
  if 12 ≤ v % 32 ∧ v % 32 ≤ 30 then some (v / 4096 * 4096, 2 ^ (v % 32)) else none

/-- Ring bytes that count as consumed: up to the end of the record of ACKED_SEQ in this attachment, or of the last one below it.
DEDUCED: log entry 106. -/
def hostConsumed (s : State) (j : Nat) : Nat :=
  (((s.job j).front.hostEnds.filter fun e => decide (e.1 ≤ ackedSeq s j)).map (·.2)).foldl max 0

/-- The next record goes into the host ring, and a flushing read follows it; on a link that is not ATTACHED the stores are dropped and
counted, the load takes a bus error, and delivery stops (R447, R452). DEDUCED: log entry 106. -/
def placeRecord (j base size seq : Nat) (l : List Byte) (s : State) : State :=
  let x := s.job j
  let off := x.front.hostOff
  let pad := padBefore size off l.length
  if off + pad + l.length ≤ hostConsumed s j + size then
    let at_ := base + (off + pad) % size
    let s := postEach true at_ l (if pad = 0 then s else postEach true (base + off % size) (padRecord pad) s)
    if hostUp s at_ 0 then
      (askHost (.front j) at_ 0 s).setJob j { x with front := { x.front with flushing := some (seq, off + pad + l.length) } }
    else stopDelivery j s
  else s

/-- The control block still names this attachment of the link. -/
def sameAttach (j k : Nat) (s : State) : Bool × State :=
  let r := ctrlField j 32 4 s
  (r.1 == s.num 0x2C04 (k + 1), r.2)

/-- The next result record for delivery: that of the lowest sequence number not yet delivered that the log holds, where LAST_SEQ covers
it (R20, R452). -/
def nextLogged (s : State) (j last : Nat) : Option (Nat × Nat × Nat) :=
  let x := (s.job j).front
  let l := x.logged.filter fun e => decide (x.nextDeliver ≤ e.1) && decide (e.1 ≤ last)
  l.find? fun e => l.all fun y => decide (e.1 ≤ y.1)

/-- The record that a delivery sends next, with its sequence number. -/
def nextRecord (j : Nat) (s : State) : Option (Nat × List Byte) × State :=
  let r := ctrlField j 0 8 s
  match nextLogged r.2 j r.1 with
  | none => (none, r.2)
  | some (seq, pos, n) => match plainRead (logBase r.2 j + pos % logSize r.2 j) n r.2 with
    | (.ok l, s) => (some (seq, l), s)
    | (_, s) => (none, s)

/-- Delivery to the host ring of link k. -/
def deliverHost (j k : Nat) (s : State) : State :=
  let x := s.job j
  if !x.front.delivering ∨ x.front.flushing ≠ none ∨ !linkAttached s k then s
  else match sameAttach j k s with
    | (false, s) => stopDelivery j s
    | (true, s) => match nextRecord j s, hostRing s j with
      | (some (seq, l), s), some (base, size) => placeRecord j base size seq l s
      | (_, s), _ => s

/-- Delivery to a gateway: the record goes to the device that its header names, in DATA frames of a channel, and the next is due.
DESIGN CHOICE: log entry 131. -/
def deliverGateway (j chan : Nat) (s : State) : State :=
  match nextRecord j s with
  | (none, s) => s
  | (some (seq, l), s) =>
    let dst := fieldOf l 16 8 / 2 ^ 50
    let s := if dst = noSubject then s else (pieces (l.length / 4224 + 1) 4224 l).foldl (fun s p => sendData j chan dst p s) s
    let x := s.job j
    s.setJob j { x with front := { x.front with nextDeliver := seq + 1 } }

/-- The next result record of a job is delivered to where HST_DLOG_LINK binds it (R449). DEDUCED: log entry 106. -/
def deliverNext (j chan : Nat) (s : State) : State :=
  let k := s.num 0x2C21 (j + 1)
  if s.jobState j = 0 ∨ dlogCtrl s j = 0 then s
  else if k < 2 then deliverHost j k s
  else if k = 2 then deliverGateway j chan s
  else s

/-- RESULT_DELIVERY (R19, R20, R452): a result that the job program brings goes towards the log, and the next record is delivered. -/
def execResultDelivery (turn : ResultTurn) (s : State) : Host.Outcome State Fault Refusal :=
  forUnit (Instr.wf (.resultDelivery turn))
    (deliverNext turn.job turn.chan (match turn.result with
      | some (seq, payload) => takeResult turn.job seq payload s
      | none => s))

end Sys2Proof.Machine
end

