-- ==== Sys2Proof/Machine/DomainEvents.lean ====
section
/-!
DEFINITION. Machine/DomainEvents.lean: what happens to a power domain: it comes up, times out, fails, is switched off (R541 to R545),
and a die passes or fails its power-up self-test (R543).
-/

namespace Sys2Proof.Machine

/-! ### What a domain holds -/

/-- Domains of the IOD up, and outside it. -/
def allDomains : List Nat := List.range 80

/-- The tiles of quadrant q go, with the errors in them: they read +0 from its next power-up on (R105). -/
def clearQuad (n q : Nat) (s : State) : State :=
  let d := s.die n
  s.setDie n { d with tiles := tkeep (fun k => k / 32 / 16 != q) d.tiles, sramErr := tkeep (fun k => k / 32 / 16 != q) d.sramErr }

/-- Every descriptor queue of a die is disabled and empty. DEDUCED: log entry 41. -/
def forgetQueues (n : Nat) (s : State) : State :=
  (List.range 32).foldl (fun s q =>
    ((s.setNum (0x3C28 + n) (q + 1) (dqCtrl s n q % 2 ^ 31)).setNum (0x3C30 + n) (q + 1) 0).setQueue n q DQ.init) s

/-- The harts of a cluster take a state (R422, R423). DEDUCED: log entry 52. -/
def setHarts (d c v : Nat) (s : State) : State :=
  (List.range 9).foldl (fun s k => s.setNum 0x6002 (36 * d + 9 * c + k + 1) v) s

/-- The ports of a group. -/
def groupPorts (u g : Nat) : List Nat := upTo (12 * u + 4 * g) 4

/-- A port group has no power: its ports keep nothing, and no frame of theirs has been taken. DEDUCED: log entry 41. -/
def forgetPorts (u g : Nat) (s : State) : State :=
  (groupPorts u g).foldl (fun s p =>
    let keep := s.fab.taken.filter fun k => k / 4 != p
    ({ s with fab := { s.fab with taken := keep } }).setPort p Port.init) s

/-- The staging SRAM of a landing unit loses its contents. DESIGN CHOICE: log entry 8. -/
def forgetStaging (u : Nat) (s : State) : State :=
  { s with staging := lset s.staging u [], stageResults := s.stageResults.filter fun e => e.1 != u }

/-- The harts of a cluster. -/
def clusterHarts (d c : Nat) : List Nat := upTo (36 * d + 9 * c) 9

/-- A core that is reset: its registers are those of reset. What its die's uncore holds for it stays: its interrupt files, and
mtimecmp (R407). DESIGN CHOICE: log entry 7. -/
def Hart.coreReset (x : Hart) : Hart :=
  { Hart.init with mtimecmp := x.mtimecmp, timerM := x.timerM, arg := x.arg, files := x.files, enabled := x.enabled,
                   delivery := x.delivery, threshold := x.threshold }

/-- The cores of a cluster are reset, their predictors with them (R246). DESIGN CHOICE: log entry 7. DEDUCED: log entry 41. -/
def resetCores (d c : Nat) (s : State) : State :=
  let away : Nat → Bool := fun k => !(clusterHarts d c).contains (k / 256)
  let s := (clusterHarts d c).foldl (fun s h => s.setHart h (s.hart h).coreReset) s
  { s with coh := { s.coh with pred := tkeep away s.coh.pred, predSeen := tkeep away s.coh.predSeen,
                               lostLog := tkeep (fun h => !(clusterHarts d c).contains h) s.coh.lostLog } }

/-- The uncore of a server-core die loses what it holds for its harts: the interrupt files (R407). DEDUCED: log entry 41. -/
def forgetFiles (d : Nat) (s : State) : State :=
  (upTo (36 * d) 36).foldl (fun s h => s.setHart h { s.hart h with files := [], enabled := [], delivery := [], threshold := [] }) s

/-- A caching agent whose domain comes up answers again (R252). DEDUCED: log entry 41. -/
def agentBack (c : Nat) (s : State) : State := { s with coh := { s.coh with lost := s.coh.lost.filter (· != c) } }

/-- The contents held in a domain are lost when it goes off (R113, R206, R544); the operations of a die that is lost are in flight no
longer (R156). DEDUCED: log entry 41. -/
def loseContents (d : Nat) (s : State) : State :=
  if d < 48 then
    let n := d / 6
    if d % 6 < 4 then clearQuad n (d % 6) s
    else if d % 6 = 5 then forgetCanopy n (forgetLines (inCanopy s n) s)
    else
      let pools := ((s.die n).pool.map (·.job)).dedup
      let s := pools.foldl (fun s j => notePool n j s) (s.setDie n Die.init)
      (List.range 32).foldl (fun s k => noteSlot k s) (forgetQueues n s)
  else if d < 58 then (if (d - 48) % 5 = 4 then forgetFiles ((d - 48) / 5) s else setHarts ((d - 48) / 5) ((d - 48) % 5) 0xFF s)
  else if d < 66 then
    let u := (d - 58) / 4
    if (d - 58) % 4 = 3 then forgetStaging u s else forgetPorts u ((d - 58) % 4) s
  else if 70 ≤ d ∧ d < 78 then forgetGroup (d - 70) (forgetLines (inGroup s (d - 70)) s)
  else s

/-- A home goes without draining: it is OFF, and its directory and queue are empty. DEDUCED: log entry 41. -/
def dropHome (n : Nat) (s : State) : State :=
  let away : Nat → Bool := fun l => !(homeOf s l == some n)
  let s := (s.setNum 0x2800 (n + 1) 0).setNum 0x2801 1 (setBit (s.num 0x2801 1) n false)
  { s with coh := { s.coh with dir := tkeep away s.coh.dir, txns := tkeep away s.coh.txns,
                               waiting := tkeep away s.coh.waiting } }

/-! ### The effective global share (R198 to R201) -/

/-- G takes effect. DEDUCED: log entry 42. -/
def setShare (g : Nat) (s : State) : State :=
  let m := s.mem.foldl (fun m e => tset 0 (sharedAddr g e.1) e.2 m) []
  let poison := s.merr.poison.foldl (fun l a => insNat (sharedAddr g a) l) []
  let latent := s.merr.latent.foldl (fun l e => tput (sharedAddr g e.1) e.2 l) []
  let spots := s.merr.spots.foldl (fun l e => tput (sharedAddr g e.1) e.2 l) []
  { s with mem := m, merr := { s.merr with effG := g, gSet := true, poison := poison, latent := latent, spots := spots } }

/-- The memory initialisation of the power-up has ended: every group that is enabled is READY or FAILED.
DEDUCED: log entry 42. -/
def initEnded (s : State) : Bool :=
  s.dict.memInit && (List.range 8).all fun n => !groupEnabled s n || s.memState n == 2 || s.memState n == 3

/-- At the end of memory initialisation G is MEM_GLOBAL_SHARE when all eight groups are READY, and 0 otherwise. -/
def settleShare (s : State) : State :=
  if !s.merr.gSet && initEnded s then
    setShare (if (List.range 8).all (fun n => s.memState n == 2) then s.num 0x2403 1 else 0) s
  else s

/-! ### Failed stages of the boot (R510, R511) -/

/-- A failed stage is entered before the handoff: `unit` is the failing unit, 0 none (R511, R532). -/
def failBoot (stage unit : Nat) (s : State) : State :=
  if s.num 0x5400 1 < 4 then
    let v := s.num 0x5400 2
    let st := v - bits v 15 8 * 256 + unit * 256
    post 0x5402 (src 0 2) 0x1F [(1, stage), (4, st)] ((s.setNum 0x5400 1 stage).setNum 0x5400 2 st)
  else s

/-- TD0's memory group is FAILED: the boot cannot go on (R510). -/
def checkPlatform (s : State) : State := if s.memState 0 = 3 then failBoot 0xF1 1 s else s

/-! ### Failure -/

/-- A domain that is not OFF and has not failed. -/
def liveDomain (s : State) (d : Nat) : Bool := s.domain d != 0 && s.domain d != 4

/-- The domains of a list that have not failed yet, with every live one that needs one of them (R542, R545). -/
def failSet (s : State) (l : List Nat) : List Nat :=
  allDomains.filter fun d => s.domain d != 4 && (l.contains d || (liveDomain s d && (domNeeds d).any (l.contains ·)))

/-- PWR_DOMAIN_FAIL of a domain that becomes FAILED (R556). DEDUCED: log entry 40. -/
def postDomainFail (d : Nat) (s : State) : State := post 0x2004 (src 0 1) 0x1F [(1, d)] s

/-- The cores of a cluster that fails take their lines with them: a dirty one leaves its memory poisoned, and their reservations
and what they waited for go. DESIGN CHOICE: log entry 137. -/
def loseCluster (d c : Nat) (s : State) : State :=
  let mine := clusterHarts d c
  let lines := ((mine.flatMap fun h => tget [] h s.coh.l2).filter fun l => (coresWith s d l).all (mine.contains ·)).dedup
  let s := lines.foldl (fun s l => match cacheLine s d l with
    | some x =>
      let s := if x.st = .d then poisonLine l s else s
      if x.st = .d ∨ x.st = .c ∨ x.st = .s then dropHolder d l (loseResv d l (setCacheLine d l none s)) else s
    | none => s) s
  let keep : Nat → Bool := fun h => !mine.contains h
  { s with coh := { s.coh with
      l1d := tkeep keep s.coh.l1d, l1i := tkeep keep s.coh.l1i, l2 := tkeep keep s.coh.l2, waits := s.coh.waits.filter fun w => keep w.hart,
      resv := tkeep (fun h => keep h || (match tfind h s.coh.resv with | some r => r.atHome | none => true)) s.coh.resv } }

/-- What the rest of the package sees of a failed domain: caching agents are lost (R252), ports go DOWN, the links to the hosts stop, no
BEACON is heard on the field network (R580), and a group is FAILED. DEDUCED: log entry 41. -/
def failUnits (d : Nat) (s : State) : State :=
  if d < 48 then
    (if d % 6 = 4 then
      let s := dropHome (d / 6) (loseAgent (.td (d / 6)) s)
      let s := if groupEnabled s (d / 6) then s.setNum 0x2401 (d / 6 + 1) 3 else s
      if s.pwr.selftestOk.contains (.td (d / 6)) then s
      else s.setNum 0x3C00 2 (setBit (s.num 0x3C00 2) (d / 6) false)
     else s)
  else if d < 58 then (if (d - 48) % 5 = 4 then loseAgent (.hd ((d - 48) / 5)) s else loseCluster ((d - 48) / 5) ((d - 48) % 5) s)
  else if d < 66 then
    (if (d - 58) % 4 = 3 then s
     else (groupPorts ((d - 58) / 4) ((d - 58) % 4)).foldl (fun s p => takeDown p 1 s) s)
  else if d = domPcie then linkDown 1 (linkDown 0 s)
  else if d = domNet then plcaLost 1 (plcaLost 0 s)
  else if 70 ≤ d ∧ d < 78 then s.setNum 0x2401 (d - 70 + 1) 3
  else s

/-- Domains fail, with those that need them: switched off at once without draining, reported, and every job that requires one
faults (R24, R545). DEDUCED: log entry 40. -/
def failDomains (l : List Nat) (s : State) : State :=
  let hit := failSet s l
  let s := hit.foldl (fun s d => s.setDomain d 4) s
  let s := hit.foldl (fun s d => postDomainFail d s) s
  let s := hit.foldl (fun s d => failUnits d s) s
  let s := hit.foldl (fun s d => faultJobs (fun s j => needsDomain s j d) 0x0E d s) s
  settleShare (checkPlatform (hit.foldl (fun s d => loseContents d s) s))

/-- A ramp that has not reached ON in time (R543). -/
def rampTimeout (d : Nat) (s : State) : State := if s.domain d = 1 ∧ timeRuns s then failDomains [d] s else s

/-- DOMAIN_RAMP_TIMEOUT (R543). -/
def execDomainRampTimeout (domain : Nat) (s : State) : Host.Outcome State Fault Refusal :=
  forUnit (Instr.wf (.domainRampTimeout domain)) (rampTimeout domain s)

/-- The domains that a regulator or a power switch takes with it: an array rail feeds the four quadrants of its die (R538,
R545). -/
def regulated (d : Nat) (arrayRail : Bool) : List Nat :=
  if arrayRail ∧ d < 48 ∧ d % 6 < 4 then upTo (d / 6 * 6) 4 else [d]

/-- A regulator that feeds a domain with power leaves regulation: all that it feeds fails, a quadrant that is OFF too. -/
def regulatorFail (d : Nat) (arrayRail : Bool) (s : State) : State :=
  if (regulated d arrayRail).any (liveDomain s) then failDomains (regulated d arrayRail) s else s

/-- DOMAIN_REGULATOR_FAIL (R545). -/
def execDomainRegulatorFail (domain : Nat) (arrayRail : Bool) (s : State) : Host.Outcome State Fault Refusal :=
  forUnit (Instr.wf (.domainRegulatorFail domain arrayRail)) (regulatorFail domain arrayRail s)

/-! ### Power-up -/

/-- The Canopy pair has been zeroed, and accesses are admitted (R113). -/
def zeroCanopy (n : Nat) (s : State) : State :=
  let s := forgetCanopy n s
  { s with merr := { s.merr with zeroed := insNat n s.merr.zeroed } }

/-- What a domain that has just become ON brings with it: tiles at +0 (R105), Canopy at zero once its die has passed its
self-test (R113, R543), a group HELD, harts STOPPED (R422), and ports that train (R290); an agent that was lost answers again (R252). -/
def domainUp (d : Nat) (s : State) : State :=
  if d < 48 then
    let n := d / 6
    if d % 6 < 4 then clearQuad n (d % 6) s
    else if d % 6 = 4 then agentBack (2 + n) (s.setDie n Die.init)
    else if s.pwr.selftestOk.contains (.td n) then zeroCanopy n s else s
  else if d < 58 then
    let u := (d - 48) / 5
    let c := (d - 48) % 5
    (if c = 4 then agentBack u s else setHarts u c 1 (resetCores u c s))
  else if d < 66 then
    (if (d - 58) % 4 = 3 then s else groupUp ((d - 58) / 4) ((d - 58) % 4) s)
  else if 70 ≤ d ∧ d < 78 then s.setNum 0x2401 (d - 70 + 1) 0
  else s

/-- Step 12 of R506: the boot hart starts at the core image's entry point, once the image has been handed off and HD0.CL0 has passed its
self-test (R418, R510). DEDUCED: log entry 43. -/
def startBoot (s : State) : State :=
  match s.pwr.handoff with
  | none => s
  | some pc =>
    if s.num 0x5400 1 = 3 ∧ s.pwr.selftestOk.contains (.hd 0) ∧ s.on (domCluster 0 0) then
      startHart 0 pc 0 ({ s with pwr := { s.pwr with handoff := none } }.setNum 0x5400 1 4)
    else s

/-- A ramping domain reaches regulation; a boot that waits for HD0.CL0 goes on with it. DEDUCED: log entry 43. -/
def rampDone (d : Nat) (s : State) : State := if s.domain d = 1 then startBoot (domainUp d (s.setDomain d 2)) else s

/-- DOMAIN_RAMP_DONE (R543). -/
def execDomainRampDone (domain : Nat) (s : State) : Host.Outcome State Fault Refusal :=
  forUnit (Instr.wf (.domainRampDone domain)) (rampDone domain s)

/-! ### The power-up self-test (R543) -/

/-- The domains of a die (R540). -/
def dieDomains : Unit3 → List Nat
  | .td n => upTo (6 * n) 6
  | .hd d => upTo (48 + 5 * d) 5
  | .ld u => upTo (58 + 4 * u) 4

/-- The domain that the rest of a die needs. -/
def dieBase : Unit3 → Nat
  | .td n => domUncore n
  | .hd d => domHdUncore d
  | .ld u => domLanding u

/-- A die runs its self-test once in a power-up, when its own domains of steps 2 to 4 of R543 have come up. -/
def selftestDue (s : State) (u : Unit3) : Bool :=
  s.pwr.opened && s.on (dieBase u) && !s.pwr.selftestOk.contains u && (dieDomains u).all (fun d => !rampOpen s d)

/-- A die passes: it is reported present, its Canopy is zeroed, and a boot that waits for server-core die 0 goes on. -/
def diePassed (u : Unit3) (s : State) : State :=
  let s := { s with pwr := { s.pwr with selftestOk := s.pwr.selftestOk ++ [u] } }
  match u with
  | .td n =>
    let s := s.setNum 0x3C00 1 (setBit (s.num 0x3C00 1) n true)
    if s.on (domCanopy n) then zeroCanopy n s else s
  | .hd d => startBoot (s.setNum 0x6000 1 (setBit (s.num 0x6000 1) d true))
  | .ld _ => s

/-- A die fails: it is reported absent, and its domains, with those that need them, are switched off and read FAILED. -/
def dieFailed (u : Unit3) (s : State) : State :=
  let s := match u with
    | .td n => (s.setNum 0x3C00 1 (setBit (s.num 0x3C00 1) n false)).setNum 0x3C00 2 (setBit (s.num 0x3C00 2) n false)
    | .hd d => s.setNum 0x6000 1 (setBit (s.num 0x6000 1) d false)
    | .ld _ => s
  let s := failDomains (dieDomains u) s
  if u = .hd 0 then failBoot 0xF1 2 s else s

/-- The power-up self-test of a die ends. -/
def powerupTest (u : Unit3) (pass : Bool) (s : State) : State :=
  if selftestDue s u then (if pass then diePassed u s else dieFailed u s) else s

/-- DIE_SELFTEST_POWERUP (R543). -/
def execDieSelftestPowerup (unit : Unit3) (pass : Bool) (s : State) : Host.Outcome State Fault Refusal :=
  forUnit (Instr.wf (.dieSelftestPowerup unit pass)) (powerupTest unit pass s)

/-! ### Switching off (R544) -/

/-- Step 1: the owner of a domain has brought it to idle, and every domain that needs it is off. -/
def offDue (s : State) (d : Nat) : Bool :=
  s.on d && !domWanted s d && (allDomains.all fun e => !liveDomain s e || !(domNeeds e).contains d)
  && (if d < 48 then ((s.die (d / 6)).ops.isEmpty)
      else if d < 58 ∧ (d - 48) % 5 < 4 then
        (List.range 9).all fun k => s.hartState (36 * ((d - 48) / 5) + 9 * ((d - 48) % 5) + k) == 1
      else if d < 66 ∧ (d - 58) % 4 < 3 then
        (groupPorts ((d - 58) / 4) ((d - 58) % 4)).all fun p => portState s p == 0 || portState s p == 6
      else if 70 ≤ d ∧ d < 78 then groupIdle s (d - 70)
      else true)

/-- The cores of a cluster give their lines to the L3 of their die, which gives up those that it has no room for (R407, R422). -/
def clusterDrain (d c : Nat) (s : State) : State :=
  let n := ((clusterHarts d c).map fun h => (tget [] h s.coh.l2).length).sum
  (List.range n).foldl (fun s _ => trimL3 d s) (clusterOut d c s)

/-- Step 2: the home and the caching agent of an uncore drain (R251); the cores of a cluster give their lines to the L3 of their die
(R422). -/
def drainDomain (d : Nat) (s : State) : State :=
  if d < 48 then
    let n := d / 6
    if d % 6 = 4 then
      let s := if s.homeState n = 0 then s
        else drainHome n (s.setNum 0x2801 1 (setBit (s.num 0x2801 1) n false))
      drainAgent (2 + n) s
    else s
  else if d < 58 then
    let u := (d - 48) / 5
    let c := (d - 48) % 5
    (if c = 4 then drainAgent u s else if c < 4 then clusterDrain u c s else s)
  else s

/-- Nothing remains to drain. -/
def drained (s : State) (d : Nat) : Bool := if d < 48 ∧ d % 6 = 4 then s.homeState (d / 6) == 0 else true

/-- Step 3: the domain is DRAINING, clamped; its unit is no longer to be used, and a group reads OFF.
DEDUCED: log entry 41. -/
def domainClamp (d : Nat) (s : State) : State :=
  let s := s.setDomain d 3
  if 70 ≤ d ∧ d < 78 then s.setNum 0x2401 (d - 70 + 1) 4 else s

/-- Step 4, once the rail has fallen: the domain goes OFF, and its contents are lost. One that has been enabled again meanwhile ramps. -/
def domainOff (d : Nat) (s : State) : State := rampDomain d (loseContents d (s.setDomain d 0))

/-- A domain is switched off in the order of R544: the command takes it to DRAINING, while its home still drains it stays ON, and the next
one finds the rail below 10 % and takes it OFF. -/
def switchOff (d : Nat) (s : State) : State :=
  if s.domain d = 3 then domainOff d s
  else if offDue s d then
    let s := drainDomain d s
    if drained s d then domainClamp d s else s
  else s

/-- DOMAIN_SWITCH_OFF (R544). DEDUCED: log entry 41. -/
def execDomainSwitchOff (domain : Nat) (s : State) : Host.Outcome State Fault Refusal :=
  forUnit (Instr.wf (.domainSwitchOff domain)) (switchOff domain s)

end Sys2Proof.Machine
end

