-- ==== Sys2Proof/Machine/MemoryUnits.lean ====
section
/-!
DEFINITION. Machine/MemoryUnits.lean: the memory controllers and the tensor dies' own housekeeping: training and initialisation of a
group (R207, R212), refresh and MR4 (R205, R553), scrubbing (R115, R216), the failure of a group (R218), the self-test (R124) and the
handshake rate (R123).
-/

namespace Sys2Proof.Machine

/-- MEM_STATE of a group changes. -/
def setMemState (n v : Nat) (s : State) : State := s.setNum 0x2401 (n + 1) v

/-- The settings hold has ended (R500). -/
def holdEnded (s : State) : Bool := s.num 0x1101 3 != 1

/-- MEM_GROUP_FAIL: its source is the failing memory package, or the group's first when no channel is named (R223). -/
def postGroupFail (n : Nat) (channel : Option (Nat × Nat)) (s : State) : State :=
  match channel with
  | some (m, c) => post 0x2403 (src 6 m) 0x1F [(1, n), (1, m), (1, c)] s
  | none => post 0x2403 (src 6 (4 * n)) 0x1F [(1, n), (1, 0xFF), (1, 0xFF)] s

/-! ### Training and initialisation -/

/-- The channels of a group have trained, or the first of them has failed. Training starts when the hold has ended and the die
of the group has passed its self-test (R506). -/
def trained (n : Nat) (failed : Option (Nat × Nat)) (s : State) : State :=
  if holdEnded s ∧ s.on (domGroup n) ∧ s.pwr.selftestOk.contains (.td n) ∧ s.memState n = 0 then
    match failed with
    | none => (setMemState n 1 s).setNum 0x2400 1 (setBit (s.num 0x2400 1) n true)
    | some c =>
      let s := (setMemState n 3 s).setNum 0x2400 1 (setBit (s.num 0x2400 1) n false)
      settleShare (checkPlatform (postGroupFail n (some c) s))
  else s

/-- MEM_CHANNEL_TRAINING_DONE (R207). -/
def execMemChannelTrainingDone (group : Nat) (failed : Option (Nat × Nat)) (s : State) : Host.Outcome State Fault Refusal :=
  forUnit (Instr.wf (.memChannelTrainingDone group failed)) (trained group failed s)

/-- A scrub pass of a group begins, over the seconds that MEM_SCRUB_S then asks for: the counts of its channels start again (R213,
R216). DEDUCED: log entry 17. -/
def startPass (n : Nat) (s : State) : State :=
  { s with merr := { s.merr with scrubSpan := tset 0 n (s.num 0x2405 1) s.merr.scrubSpan, chanCe := tkeep (fun c => c / 16 != n) s.merr.chanCe,
                                 storms := s.merr.storms.filter (fun c => c / 16 != n) } }

/-- Every ECC group of a group has been written zero: the group is READY, and its first scrub pass begins. With TD0's group
READY the boot goes on to load the core image (R510). -/
def initialised (n : Nat) (s : State) : State :=
  if s.memState n = 1 ∧ s.dict.memInit then
    let s := settleShare (startPass n (setMemState n 2 (forgetGroup n s)))
    if n = 0 ∧ s.num 0x5400 1 = 2 then s.setNum 0x5400 1 3 else s
  else s

/-- MEM_INITIALISATION_DONE (R212). DESIGN CHOICE: log entry 109. -/
def execMemInitialisationDone (group : Nat) (s : State) : Host.Outcome State Fault Refusal :=
  forUnit (Instr.wf (.memInitialisationDone group)) (initialised group s)

/-! ### Refresh and MR4 -/

/-- LPDDR_REFRESH: a refresh changes no value (R205, R217). -/
def execLpddrRefresh (group : Nat) (s : State) : Host.Outcome State Fault Refusal :=
  forUnit (Instr.wf (.lpddrRefresh group)) s

/-- MR4 of every device has been read: `hot` says of each memory package of the group whether one of its devices is above range
(R205, R553). -/
def readMr4 (n : Nat) (rates : List Nat) (hot : List Bool) (s : State) : State :=
  if s.on (domGroup n) then
    let s := s.setNum 0x2407 (n + 1) (rates.foldl max 0 % 256)
    match (hot.take 4).findIdx? id with
    | none => { s with pwr := { s.pwr with memHot := lset s.pwr.memHot n false } }
    | some m =>
      if lget false s.pwr.memHot n then s
      else post 0x2006 (src 0 1) 0x1F [(1, n), (1, 4 * n + m)] { s with pwr := { s.pwr with memHot := lset s.pwr.memHot n true } }
  else s

/-- MR4_READ (R205). DEDUCED: log entry 51. -/
def execMr4Read (group : Nat) (rates : List Nat) (hot : List Bool) (s : State) : Host.Outcome State Fault Refusal :=
  forUnit (Instr.wf (.mr4Read group rates hot)) (readMr4 group rates hot s)

/-! ### Scrubbing -/

/-- Errors stand in more symbols of a line than the code corrects: two bytes (R210). -/
def pastLine (symbols : List Nat) : Bool := decide (2 < (symbols.filter (· < 68)).length)

/-- Errors stand in more of the poison bits and reserved bytes of a line's ECC block than the code over them corrects (R210).
DESIGN CHOICE: log entry 133. -/
def pastBlock (symbols : List Nat) : Bool := decide (2 < (symbols.filter (68 ≤ ·)).length)

/-- Errors stand in more symbols than one of the two codes corrects. -/
def pastCode (symbols : List Nat) : Bool := pastLine symbols || pastBlock symbols

/-- An error that appears where another waits to be found: an uncorrectable one stays so. -/
def worse (old : Option ErrKind) (k : ErrKind) : ErrKind := if old = some .ue then .ue else k

/-- A device error that waits at a unit of memory to be found. -/
def putLatent (u : Nat) (k : ErrKind) (s : State) : State :=
  { s with merr := { s.merr with latent := tput u (worse (tfind u s.merr.latent) k) s.merr.latent } }

/-- The symbols of a line in which errors stand that no read has found. -/
def putSpots (u : Nat) (l : List Nat) (s : State) : State :=
  { s with merr := { s.merr with spots := tset [] u l s.merr.spots } }

/-- Poison bits of slots of the ECC group of a line hold values of which nothing is said. DESIGN CHOICE: log entry 133. -/
def freePoison (u : Nat) (slots : List Nat) (s : State) : State :=
  match place s u with
  | .dram n o => slots.foldl (fun s i =>
      setPoison s.draw.2 (lineAt s n (channelOf o) (15 * (eccPlace (channelByte o)).1 + i)) (s.draw.1 % 2 == 1)) s
  | _ => s

/-- What errors past the code that nothing reports leave: free values in the line where they stand in it, and free poison bits of the
line's group where they stand in the ECC block, all of them when a correction has gone wrong. DESIGN CHOICE: log entry 133. -/
def spoilCode (u : Nat) (l : List Nat) (corrected : Bool) (s : State) : State :=
  let slots := (List.range 15).filter fun i => corrected || l.contains (68 + i / 8)
  let s := if pastLine l then scramble u s else s
  if pastBlock l then freePoison u slots s else s

/-- Errors in symbols of an LPDDR5X line, with those that stand there already: in one or two bytes they are corrected when the
line is read, in more `sight` says what becomes of them (R210). DESIGN CHOICE: log entry 133. -/
def strikeBytes (u : Nat) (symbols : List Nat) (sight : Sight) (s : State) : State :=
  let l := (tget [] u s.merr.spots ++ symbols.filter (· < 72)).dedup
  if l = [] then s
  else if !pastCode l then putLatent u .ce (putSpots u l s)
  else match sight with
    | .detected => putLatent u .ue (putSpots u l s)
    | .miscorrected => putLatent u .ce (putSpots u l (spoilCode u l true s))
    | .missed => putSpots u [] (spoilCode u l false s)

/-- What a read makes of errors past the code, where the command does not say: a free value. DESIGN CHOICE: log entry 133. -/
def sightOf (k : Nat) : Sight := if k % 3 = 0 then .detected else if k % 3 = 1 then .miscorrected else .missed

/-- Device errors that have appeared and that no read has found yet: an error of a unit of memory or of local SRAM. A correctable
error of an LPDDR5X line that names no symbol stands in one symbol at a free place. DESIGN CHOICE: log entry 133. -/
def strike (s : State) : Strike → State
  | .mem a k => match place s a, k with
    | .canopy _ _, _ => putLatent (a / 8 * 8) k s
    | .dram _ _, .ce => strikeBytes (lineOf a) [s.draw.1 % 68] (sightOf (s.draw.1 / 68)) s.draw.2
    | _, _ => putLatent (lineOf a) k s
  | .bytes a symbols sight => match place s a with
    | .dram _ _ => strikeBytes (lineOf a) symbols sight s
    | _ => s
  | .sram n block unit k =>
    let d := s.die n
    let u := block * 2 ^ 48 + unit
    s.setDie n { d with sramErr := tput u (worse (tfind u d.sramErr) k) d.sramErr }

/-- The last line of a group in the order in which the model takes a pass to visit it (log entry 17). -/
def lastOffset : Nat := 120 * gib - 64

/-- A visit to one line of a group: what it finds is corrected or poisons the line; after the last line of a pass the next
pass begins, while the reference of its seconds counts (R11). DEDUCED: log entry 17. -/
def scrubLine (a : Nat) (found : Option ErrKind) (s : State) : State :=
  let line := lineOf a
  match place s line with
  | .dram n o =>
    if s.memState n = 2 then
      let s := match found with
        | some k => putLatent line k s
        | none => s
      let s := readUnit true line s
      if o = lastOffset ∧ timeRuns s then startPass n (count 0x5842 (n + 1) 1 s) else s
    else s
  | _ => s

/-- MEM_SCRUB_VISIT (R216). -/
def execMemScrubVisit (addr : Nat) (found : Option ErrKind) (strikes : List Strike) (s : State) :
    Host.Outcome State Fault Refusal :=
  forUnit (Instr.wf (.memScrubVisit addr found strikes)) (scrubLine addr found (strikes.foldl strike s))

/-- A visit to one word of a Canopy (R115). -/
def scrubWord (a : Nat) (found : Option ErrKind) (s : State) : State :=
  let u := a / 8 * 8
  match place s u with
  | .canopy n o =>
    if placeOk s (.canopy n o) then
      readUnit true u (match found with
        | some k => putLatent u k s
        | none => s)
    else s
  | _ => s

/-- CANOPY_SCRUB_VISIT (R115). -/
def execCanopyScrubVisit (addr : Nat) (found : Option ErrKind) (s : State) : Host.Outcome State Fault Refusal :=
  forUnit (Instr.wf (.canopyScrubVisit addr found)) (scrubWord addr found s)

/-! ### Failure of a group at run time -/

/-- The memory of a READY group becomes unusable: it is FAILED, and every running job that requires it faults with code 0x0E
and the detail of a memory package; a boot that waits for TD0's group cannot go on (R218, R510, R557). -/
def groupFails (n : Nat) (channel : Option (Nat × Nat)) (s : State) : State :=
  if s.memState n = 2 then
    checkPlatform (faultJobs (fun s j => needsGroup s j n) 0x0E 0xFFFFFF (postGroupFail n channel (setMemState n 3 s)))
  else s

/-- MEM_GROUP_FAIL (R218). DEDUCED: log entry 51. -/
def execMemGroupFail (group : Nat) (channel : Option (Nat × Nat)) (s : State) : Host.Outcome State Fault Refusal :=
  forUnit (Instr.wf (.memGroupFail group channel)) (groupFails group channel s)

/-! ### Self-test and handshake rate -/

/-- TNS_SELFTEST_RESULT for a list of failing units (R124). -/
def selftestWord (failing : List Nat) : Nat :=
  let l := (failing.filter (· < 80)).dedup
  2 ^ 31 + b2n l.isEmpty * 2 ^ 30 + l.length * 2 ^ 16 + (if l.isEmpty then 0x7F else l.foldl min 0x7F)

/-- A self-test that runs has finished: every tile holds +0, with no error left in one, and the result is written. -/
def selftestEnds (n : Nat) (failing : List Nat) (s : State) : State :=
  let d := s.die n
  if d.testing then
    (s.setDie n { d with testing := false, tiles := [], sramErr := tkeep (fun k => 2 ^ 48 ≤ k) d.sramErr }).setNum 0x3C09 (n + 1) (selftestWord failing)
  else s

/-- SELFTEST_DONE (R124). DEDUCED: log entry 52. -/
def execSelftestDone (die : Nat) (failing : List Nat) (s : State) : Host.Outcome State Fault Refusal :=
  forUnit (Instr.wf (.selftestDone die failing)) (selftestEnds die failing s)

/-- A quadrant of die n is powered. -/
def anyQuad (s : State) (n : Nat) : Bool := (List.range 4).any fun q => s.on (domQuad n q)

/-- The rate measured on one die, 0.0 with no quadrant powered, and the lowest so far; rates are codes of non-negative binary32
numbers, which stand in the order of the numbers. -/
def measureDie (n rate : Nat) (s : State) : State :=
  let r := if anyQuad s n then rate % 2 ^ 31 else 0
  let low := if s.pwr.hsSeen.contains n then min (s.num 0x3C03 (n + 1)) r else r
  let s := (s.setNum 0x3C02 (n + 1) r).setNum 0x3C03 (n + 1) low
  { s with pwr := { s.pwr with hsSeen := insNat n s.pwr.hsSeen } }

/-- The rates of all dies over one interval. -/
def measureRates (rates : List Nat) (s : State) : State :=
  if s.pwr.opened ∧ timeRuns s then (List.range 8).foldl (fun s n => measureDie n (lget 0 rates n) s) s else s

/-- HS_RATE_MEASURE (R123). DEDUCED: log entry 49. -/
def execHsRateMeasure (rates : List Nat) (s : State) : Host.Outcome State Fault Refusal :=
  forUnit (Instr.wf (.hsRateMeasure rates)) (measureRates rates s)

end Sys2Proof.Machine
end

