-- ==== Sys2Proof/Machine/Power.lean ====
section
/-!
DEFINITION. Machine/Power.lean: the package on and off (R535 to R537, R546, R579), the boot up to the opening of the dictionary
(R506, R511, R517, R529, R577, R578), the end of the settings hold (R500), the core image and the handoff (R418, R519), the
configuration space of the host function (R427 to R429, R509), and the capping and thermal loops (R548, R552).
-/

namespace Sys2Proof.Machine

/-! ### Off -/

/-- The package is off: nothing is kept but the fuses, and what the stage-1 controller and the pins hold (R512, R537). -/
def offState (s : State) : State :=
  let p := s.pwr
  { State.reset with
    pending := s.pending, fuses := s.fuses, free := s.free, out := s.out,
    pwr := { Pwr.init with en := p.en, vinMv := p.vinMv, restDone := p.restDone, resting := p.resting, latched := p.latched,
                           latchedSource := p.latchedSource, faulted := p.faulted } }

/-- EN falls: the package goes off, and the rest interval starts (R546, R579). -/
def enFalls (s : State) : State :=
  if s.pwr.en then
    let s := if s.pwr.on then offState { s with pwr := { s.pwr with faulted := false } } else s
    { s with pwr := { s.pwr with en := false, restDone := false, resting := true } }
  else s

/-- EN_DEASSERT (R546). -/
def execEnDeassert (s : State) : Host.Outcome State Fault Refusal := forUnit true (enFalls s)

/-- A power fault: every regulator is disabled, and the cause is latched with, for over-temperature, the tripping sensor's
SOURCE (R537, R554). -/
def powerFault (cause source : Nat) (s : State) : State :=
  if s.pwr.on ∧ 1 ≤ cause ∧ cause ≤ 5 then
    let s := offState s
    { s with pwr := { s.pwr with restDone := false, resting := false, faulted := true, latched := cause,
                                 latchedSource := if cause = 5 then source % 4096 else 0 } }
  else s

/-- POWER_FAULT (R537). DEDUCED: log entry 50. -/
def execPowerFault (cause source : Nat) (s : State) : Host.Outcome State Fault Refusal := forUnit true (powerFault cause source s)

/-- The input crosses 20 V: rising, the rest interval starts; falling, the latched cause is gone (R537, R579). -/
def crosses20 (rising : Bool) (s : State) : State :=
  if rising then
    if s.pwr.on then s
    else { s with pwr := { s.pwr with vinMv := 20000, restDone := false, resting := true } }
  else
    let s := if s.pwr.on then offState s else s
    { s with pwr := { s.pwr with vinMv := 0, restDone := false, resting := false, latched := 0, latchedSource := 0, faulted := false } }

/-- VIN_CROSSES_20V (R579). DEDUCED: log entry 46. -/
def execVinCrosses20v (rising : Bool) (s : State) : Host.Outcome State Fault Refusal := forUnit true (crosses20 rising s)

/-! ### The boot up to the hold -/

/-- Highest array rail of a cooling class in mV (R550). -/
def classRail (c : Nat) : Nat := if c = 0 then 650 else if c = 1 then 700 else if c = 2 then 750 else 800

/-- PWR_LIMIT_W: the lowest of 1400 W, the board's limit, 600 W for an unknown board, and PWR_LIMIT_SET (R547). -/
def powerLimit (s : State) : Nat :=
  min (min 1400 (if s.num 0x7000 1 = 1 then s.num 0x7001 1 else 600)) (s.num 0x2001 1)

/-- The defaults that depend on the cooling class (R550, R554). -/
def setClass (c : Nat) (s : State) : State :=
  let s := (List.range 8).foldl (fun s n => s.setNum 0x2002 (n + 1) (min 700 (classRail c))) s
  (s.setNum 0x2001 4 c).setNum 0x2005 1 (if c = 0 then 95 else 100)

/-- Step 5: the board record is mirrored, and sets the defaults named in R528 and R525 (R529, R533). -/
def mirrorBoard (b : Board) (s : State) : State :=
  let r := readBoard b
  let l := r.1
  let s := s.setOct 0x7000 2 l
  match r.2 with
  | none =>
    let s := (((s.setNum 0x7000 1 1).setNum 0x7001 1 (fieldOf l 16 2)).setNum 0x7001 2 (fieldOf l 18 1)).setNum 0x7001 3 (fieldOf l 19 1)
    let s := (s.setNum 0x7001 4 (fieldOf l 24 3)).setOct 0x7001 5 (sliceOf l 28 16)
    let s := ((s.setNum 0x3010 1 (fieldOf l 8 8)).setNum 0x1111 1 (fieldOf l 20 1)).setNum 0x1111 2 (fieldOf l 21 1)
    setClass (fieldOf l 18 1) ((s.setOct 0x5406 1 (sliceOf l 44 48)).setOct 0x5406 2 (sliceOf l 92 48))
  | some cause =>
    let s := (s.setNum 0x7000 1 (if cause = 0 then 0 else 2)).setNum 0x7001 2 0xFF
    setClass 0 (post 0x7001 (src 0 0) 0x1F [(1, cause)] (s.setNum 0x7001 3 0xFF))

/-- A rejected bank: reported, and its cause kept in SEC_BOOT_STATUS (R518, R532). -/
def rejectBank (type bank cause : Nat) (s : State) : State :=
  let v := s.num 0x5400 2
  let v := if type = 1 then v % 2 ^ 24 + cause * 2 ^ 24 else v - bits v 23 16 * 2 ^ 16 + cause * 2 ^ 16
  post 0x5401 (src 0 2) 0x1F [(1, type), (1, bank), (1, cause)] (s.setNum 0x5400 2 v)

/-- Step 4: the security engine derives its keys and issues the alias certificate; the identity of the part is as its fuses and the accepted
MC image give it (R522, R531). -/
def setIdentity (digest : List Byte) (svn : Nat) (s : State) : State :=
  let f := s.fuses
  let id := Config.identityKey f.secret
  let alias_ := Config.aliasKey f.secret digest
  let s := (s.setOct 0x1000 3 (sliceOf f.serial 0 16)).setOct 0x1001 1 f.deviceCert
  let s := ((s.setOct 0x1001 2 (sha384 f.deviceCert)).setOct 0x1001 3 f.rootCert).setOct 0x1001 4 (Config.aliasCert id alias_ digest svn)
  let s := (s.setOct 0x1115 1 (sliceOf (lget [] f.macs 0) 0 6)).setOct 0x1115 2 (sliceOf (lget [] f.macs 1) 0 6)
  { s with pwr := { s.pwr with aliasMade := true, identityKey := id, aliasKey := alias_ } }

/-- The MC image of a bank runs: its identity objects (R518, R531). -/
def runMc (bank : Nat) (head : List Byte) (s : State) : State :=
  let d := sliceOf head 40 48
  let s := ((s.setNum 0x1002 1 (fieldOf head 8 4)).setNum 0x1002 2 bank).setOct 0x1002 3 d
  setIdentity d (fieldOf head 6 1) { s with pwr := { s.pwr with mcSlot := fieldOf head 5 1, mcSvn := fieldOf head 6 1 } }

/-- Step 6: the dictionary opens and the settings hold begins (R500). The enables of the tensor dies stand at every die until
their self-tests; every cluster is off. -/
def openDictionary (s : State) : State :=
  let s := (List.range 72).foldl (fun s h => s.setNum 0x6002 (h + 1) 0xFF) (s.setNum 0x3C00 2 0xFF)
  refreshCamip 1 (refreshCamip 0 { s with pwr := { s.pwr with opened := true } })

/-- PWR_LAST_FAULT and PWR_PREV_FAULT (R537, R554). -/
def reportFault (s : State) : State :=
  let v := s.pwr.latched * 2 ^ 24 + s.pwr.latchedSource * 2 ^ 12
  let s := s.setNum 0x2011 1 v
  if s.pwr.faulted ∧ s.pwr.latched ≠ 0 then post 0x2005 (src 0 1) 0x1F [(4, v)] s else s

/-- The MC runs from the image at a flash offset, and boot goes on to the hold. -/
def bootFrom (b : Board) (bank : Nat) (s : State) : State :=
  openDictionary (reportFault (mirrorBoard b (runMc bank (bankHead b.flash 1 bank) s)))

/-- An MC image whose form is good is loaded into the SRAM of the MC, before it is verified (R516). -/
def loadMc (b : Flash) (bank : Nat) (s : State) : State :=
  match bankOffset b 1 bank with
  | none => s
  | some o => if imageFormOk 1 (imageHead b o) then { s with pwr := { s.pwr with mcSram := imagePayload b o } } else s

/-- Step 3 for one bank: its cause, of the copy in the SRAM, 0 when it is accepted. -/
def mcCause (s : State) (b : Flash) (bank : Nat) : Nat := bankCause s.fuses b 1 0 bank s.pwr.mcSram

/-- Step 3: bank A, and bank B only when A is rejected; with neither, the boot stops on the BSTAT pins (R511, R518, R578). -/
def bootMc (b : Board) (s : State) : State :=
  let s := loadMc b.flash 0 s
  let a := mcCause s b.flash 0
  if a = 0 then bootFrom b 0 s
  else
    let s := loadMc b.flash 1 (rejectBank 1 0 a s)
    let c := mcCause s b.flash 1
    if c = 0 then bootFrom b 1 s
    else
      let s := rejectBank 1 1 c s
      { s with pwr := { s.pwr with bstat1 := true } }

/-- Step 2: the IOD domains are ON, PCIE_SPLIT is sampled and the time counter takes its reference (R576, R577). -/
def iodUp (b : Board) (s : State) : State :=
  let s := { offState s with tim := { now := 0, started := sourceOf b.timeref b.refclk != 0, timeref := b.timeref, refclk := b.refclk } }
  let s := { s with pwr := { s.pwr with on := true, board := b } }
  let s := (upTo 66 4).foldl (fun s d => s.setDomain d 2) s
  (s.setNum 0x2C00 1 (b2n b.split)).setNum 0x6003 2 (sourceOf b.timeref b.refclk)

/-- The boot (R506): an IOD that fails the boot ROM's own check reads no image (R578). -/
def boot (b : Board) (s : State) : State :=
  let s := iodUp b s
  let s := if b.iodOk then bootMc b s else { s with pwr := { s.pwr with bstat1 := true, bstat0 := true } }
  { s with pwr := { s.pwr with faulted := false } }

/-- EN is high: the package starts if the input is good and the rest interval has ended (R535, R579). -/
def raiseEn (b : Board) (s : State) : State :=
  if s.pwr.on then s
  else
    let s := { s with pwr := { s.pwr with en := true, vinMv := b.vinMv } }
    if s.pwr.restDone ∧ 36000 ≤ b.vinMv then boot b s else s

/-- POWER_UP (R579). DEDUCED: log entry 47. DESIGN CHOICE: log entry 110. -/
def execPowerUp (board : Board) (s : State) : Host.Outcome State Fault Refusal := forUnit true (raiseEn board s)

/-- The rest interval ends: with EN still high the package starts (R579). -/
def restEnds (b : Board) (s : State) : State :=
  if s.pwr.resting then
    let s := { s with pwr := { s.pwr with resting := false, restDone := true } }
    if s.pwr.en then raiseEn b s else s
  else s

/-- REST_INTERVAL_EXPIRY (R579). -/
def execRestIntervalExpiry (board : Board) (s : State) : Host.Outcome State Fault Refusal := forUnit true (restEnds board s)

/-! ### The end of the hold -/

/-- The hold ends, 2 REPLAYED or 3 EXPIRED, and memory initialisation is commanded if it was not (R500, R507). -/
def endHold (v : Nat) (s : State) : State :=
  let s := s.setNum 0x1101 3 v
  let s := if s.num 0x5400 1 = 1 then s.setNum 0x5400 1 2 else s
  { s with dict := { s.dict with memInit := true } }

/-- DICT_HOLD_MS has passed. -/
def holdExpires (s : State) : State :=
  if s.pwr.opened ∧ timeRuns s ∧ !holdEnded s then post 0x1005 (src 0 0) 0x1F [(4, s.dict.holdWrites)] (endHold 3 s) else s

/-- SETTINGS_HOLD_EXPIRY (R500). -/
def execSettingsHoldExpiry (s : State) : Host.Outcome State Fault Refusal := forUnit true (holdExpires s)

/-! ### The core image and the handoff -/

/-- LD_PRESENT and the other facts of the handoff block (R418). -/
def handoffBlock (s : State) (base bytes : Nat) : List Byte :=
  let mem := maskOf ((List.range 8).filter fun n => s.memState n == 2)
  let ld := b2n (s.pwr.selftestOk.contains (.ld 0)) + 2 * b2n (s.pwr.selftestOk.contains (.ld 1))
  let host := b2n (linkState s 0 != 0 || linkState s 1 != 0)
  let w1 := s.num 0x3C00 1 * 2 ^ 56 + mem * 2 ^ 48 + s.num 0x6000 1 % 4 * 2 ^ 46 + ld * 2 ^ 44 + s.merr.effG % 256 * 2 ^ 36
    + s.timeSource % 4 * 2 ^ 34 + host * 2 ^ 33
  leBytes 8 (0x48385651 * 2 ^ 32 + 0x00010000 + 64) ++ leBytes 8 w1 ++ leBytes 8 base ++ leBytes 8 bytes ++ leBytes 8 0x1000
    ++ leBytes 8 s.tim.now ++ List.replicate 16 0

/-- The devicetree that the MC writes: at most 60 KiB (R519); its bytes are the MC firmware's. -/
def writeTree (s : State) : State :=
  let r := s.draw
  (tryWrite 0x1000 ((Config.devicetree r.1).take 61440) r.2).2

/-- The core image of a bank has been accepted: handoff block, devicetree, identity, and the boot hart starts when it may (R418, R506,
R519). -/
def handOff (b : Flash) (bank : Nat) (s : State) : State :=
  let h := bankHead b 2 bank
  let base := fieldOf h 16 8
  let s := (tryWrite 0 (handoffBlock s base (fieldOf h 32 8)) s).2
  let s := writeTree s
  let s := ((s.setNum 0x1002 4 (fieldOf h 8 4)).setNum 0x1002 5 bank).setOct 0x1002 6 (sliceOf h 40 48)
  startBoot { s with pwr := { s.pwr with coreSlot := fieldOf h 5 1, coreSvn := fieldOf h 6 1, handoff := some (base + fieldOf h 24 8) } }

/-- An image whose form and range are good has been written to its destination before it is verified (R516). -/
def loadBank (b : Flash) (top bank : Nat) (s : State) : State :=
  match bankOffset b 2 bank with
  | none => s
  | some o =>
    let h := imageHead b o
    if imageFormOk 2 h ∧ imageRangeOk top h then (tryWrite (fieldOf h 16 8) (imagePayload b o) s).2 else s

/-- Step 11 for one bank: its cause, of the copy in memory, 0 when it is accepted. DEDUCED: log entries 43, 44. -/
def coreCause (s : State) (b : Flash) (bank : Nat) : Nat :=
  let h := bankHead b 2 bank
  bankCause s.fuses b 2 ((120 - s.merr.effG) * gib) bank (peekMem s (fieldOf h 16 8) (fieldOf h 32 8))

/-- Steps 11 and 12: bank A, then bank B; with neither the boot enters FAILED_CORE (R511, R518). Step 11 waits for TD0's group, and runs
once. DEDUCED: log entry 43. -/
def loadCore (b : Flash) (s : State) : State :=
  let top := (120 - s.merr.effG) * gib
  if s.pwr.opened ∧ s.num 0x5400 1 = 3 ∧ s.memState 0 = 2 ∧ s.pwr.handoff = none then
    let s := loadBank b top 0 s
    if coreCause s b 0 = 0 then handOff b 0 s
    else
      let s := loadBank b top 1 (rejectBank 2 0 (coreCause s b 0) s)
      if coreCause s b 1 = 0 then handOff b 1 s
      else failBoot 0xF0 0 (rejectBank 2 1 (coreCause s b 1) s)
  else s

/-- The flash as the MC reads it: through the slow I/O of the package, which a domain that has failed leaves without a byte (R545). -/
def seenFlash (s : State) (b : Flash) : Flash := if s.on domNet then b else { bytes := [], bad := [] }

/-- CORE_IMAGE_LOAD (R519). DEDUCED: log entry 43. DESIGN CHOICE: log entry 110. -/
def execCoreImageLoad (s : State) : Host.Outcome State Fault Refusal := forUnit true (loadCore (seenFlash s s.pwr.board.coreFlash) s)

/-! ### Configuration requests -/

/-- A base address register as it reads: BAR0 of 64 MiB, not prefetchable, and BAR2 of the size selected, prefetchable, both of 64
bits; BAR4 and BAR5 read 0 (R429). PRESUMED: log entry 48. -/
def barValue (s : State) (k n : Nat) : Nat :=
  let l := s.hlink k
  let at_ : Nat → Nat → Nat := fun lo size => (tget 0 lo l.bars + tget 0 (lo + 1) l.bars * 2 ^ 32) / size * size
  if n < 2 then (at_ 0 0x4000000 + 0x4) / 2 ^ (32 * n) % 2 ^ 32
  else if n < 4 then (at_ 2 (barBytes s k) + 0xC) / 2 ^ (32 * (n - 2)) % 2 ^ 32
  else 0

/-- A register of the configuration space as it reads (R427, R429). PRESUMED: log entry 48. -/
def configValue (s : State) (k : Nat) (r : CfgReg) : Nat :=
  let l := s.hlink k
  match r with
  | .ident => s.num 0x1000 4 % 2 ^ 16 + s.num 0x1000 5 % 2 ^ 16 * 2 ^ 16
  | .command => b2n l.barUp * 2 + b2n l.busMaster * 4
  | .classRev => 0x120000B0
  | .bar n => barValue s k n
  | .expansionRom => 0
  | .barSize => l.barCode * 2 ^ 8 + 2
  | .aerStatus => l.aer
  | .powerState => if l.hot then 3 else 0
  | .msixControl => b2n l.msixOn * 2 ^ 15 + b2n l.msixFn * 2 ^ 14 + 64
  | .deviceControl => l.devCtl
  | .doe => 0x1002E

/-- A write of the Command register: clearing Bus Master Enable detaches an ATTACHED link (R445). -/
def writeCommand (k v : Nat) (s : State) : State :=
  let s := s.setHlink k { s.hlink k with barUp := bit v 1 }
  if bit v 2 then flushMsix k (s.setHlink k { s.hlink k with busMaster := true }) else masterOff k s

/-- A size of BAR2 that the host selects: 64 GiB to 1 TiB (R429). PRESUMED: log entry 48. -/
def selectSize (k code : Nat) (s : State) : State :=
  if 16 ≤ code ∧ code ≤ 20 then (s.setHlink k { s.hlink k with barCode := code }).setNum 0x2C08 (k + 1) (2 ^ (20 + code))
  else s

/-- A write to a register of the configuration space; a value that R427 does not allow changes nothing. PRESUMED: log entry 48. -/
def configWrite (k : Nat) (r : CfgReg) (v : Nat) (s : State) : State :=
  let l := s.hlink k
  match r with
  | .ident => s
  | .command => writeCommand k v s
  | .classRev => s
  | .bar n => if n < 4 then s.setHlink k { l with bars := tset 0 n (v % 2 ^ 32) l.bars } else s
  | .expansionRom => s
  | .barSize => selectSize k (bits v 13 8) s
  | .aerStatus => if bit v 12 then s.setHlink k { l with aer := setBit l.aer 12 false } else s
  | .powerState => if v % 4 = 0 ∨ v % 4 = 3 then flushMsix k (s.setHlink k { l with hot := v % 4 == 3 }) else s
  | .msixControl => flushMsix k (s.setHlink k { l with msixOn := bit v 15, msixFn := bit v 14 })
  | .deviceControl =>
    if bits v 7 5 ≤ 2 ∧ bits v 14 12 ≤ 5 then
      s.setHlink k { l with devCtl := bits v 7 5 * 2 ^ 5 + bits v 14 12 * 2 ^ 12 }
    else s
  | .doe => s

/-- A configuration request on a link: Request Retry Status (3) before the dictionary opens, answered normally from then on
(R427, R428, R509). A link that does not train, since no MC image passed or the PCIe domain has failed, answers nothing (R511, R580).
DESIGN CHOICE: log entry 143. -/
def configAnswer (a : ConfigAccess) (s : State) : State :=
  let k := a.link
  if !s.pwr.on ∨ (k = 1 ∧ s.num 0x2C00 1 = 0) ∨ s.pwr.bstat1 ∨ !s.on domPcie then s
  else if !s.pwr.opened then answerHost k 3 [] s
  else if linkState s k = 0 then s
  else match a.value with
    | none => answerHost k 0 (leBytes 4 (configValue s k a.reg)) s
    | some v => answerHost k 0 [] (configWrite k a.reg v s)

/-- CONFIG_REQUEST (R509). PRESUMED: log entry 48. -/
def execConfigRequest (access : ConfigAccess) (s : State) : Host.Outcome State Fault Refusal :=
  forUnit (Instr.wf (.configRequest access)) (configAnswer access s)

/-! ### Capping and thermal loops -/

/-- A quotient of whole numbers as a binary32 code. -/
def f32Ratio (a : Int) (b : Nat) : Nat := (divV 0 (ofInt a) (ofInt b)).code

/-- Every capped value moves by the same step (R548). -/
def moveCaps (f : Nat → Nat) (s : State) : State := { s with pwr := { s.pwr with capped := s.pwr.capped.map f } }

/-- Every die is capped at 0.55 V. -/
def atFloor (s : State) : Bool := s.pwr.capped.all (· == 550)

/-- Some die is capped below 0.80 V (R548). -/
def capActive (s : State) : Bool := s.pwr.capped.any (· < 800)

/-- The capping loop with the sum of the last ten samples in milliwatts (R548). DEDUCED: log entry 49. -/
def capLoop (sum : Nat) (s : State) : State :=
  let lim := powerLimit s
  let info := [(2, lim), (2, min 0xFFFF (sum / 10000))]
  if lim * 10000 < sum then
    let s := { s with pwr := { s.pwr with lowRun := 0 } }
    if atFloor s then
      if s.pwr.floorPosted then s
      else post 0x2002 (src 0 1) 0x1F info { s with pwr := { s.pwr with floorPosted := true } }
    else
      let began := !capActive s
      let s := count 0x58D0 1 1 (moveCaps (fun v => max 550 (v - 5)) s)
      if began then post 0x2001 (src 0 1) 0x1F info s else s
  else if sum * 100 < 97 * (lim * 10000) then
    if s.pwr.lowRun = 9 then
      moveCaps (fun v => min 800 (v + 5)) { s with pwr := { s.pwr with lowRun := 0, floorPosted := false } }
    else { s with pwr := { s.pwr with lowRun := s.pwr.lowRun + 1 } }
  else { s with pwr := { s.pwr with lowRun := 0 } }

/-- SOURCE of the die of a temperature in PWR_TJ order (R459, R554). DEDUCED: log entry 50. -/
def tempSource (i : Nat) : Nat :=
  if i < 8 then src 1 i else if i < 10 then src 3 (i - 8) else if i < 12 then src 5 (i - 10) else src 0 1

/-- PWR_THROTTLE (R556). -/
def postThrottle (i : Nat) (t : Int) (s : State) : State :=
  post 0x2003 (src 0 1) 0x1F [(2, tempSource i), (1, (t / 1000).toNat % 256)] s

/-- The thermal loop for one die: a tensor die is throttled, any other is only reported when it rises above the limit (R552).
DEDUCED: log entry 49. -/
def thermalLoop (i : Nat) (t : Int) (s : State) : State :=
  let lim : Int := (s.num 0x2005 1 : Int) * 1000
  let was := lget false s.pwr.throttling i
  let setFlag : Bool → State → State := fun b s => { s with pwr := { s.pwr with throttling := lset s.pwr.throttling i b } }
  if i < 8 then
    let v := lget 800 s.pwr.thermal i
    let put : Nat → State → State := fun v s => { s with pwr := { s.pwr with thermal := lset s.pwr.thermal i v } }
    if lim < t then
      let s := if 550 < v then count 0x58D1 (i + 1) 1 (put (max 550 (v - 5)) s) else s
      if was then s else postThrottle i t (setFlag true s)
    else if t < lim - 3000 then
      let s := put (min 800 (v + 5)) s
      if v + 5 < 800 then s else setFlag false s
    else s
  else if lim < t then (if was then s else postThrottle i t (setFlag true s))
  else if t < lim - 3000 then setFlag false s
  else s

/-- PWR_TJ of one die and its thermal loop. -/
def senseDie (s : State) (e : Int × Nat) : State := thermalLoop e.2 e.1 (s.setNum 0x2004 (e.2 + 1) (f32Ratio e.1 1000))

/-- One sample of the stage-1 controller: its readings, the capping loop once ten samples have come, and the thermal loop; a
sensor above 115 °C trips the power fault (R535, R548, R552). -/
def sampled (x : PowerSample) (s : State) : State :=
  let temps := (x.temps.take 13).zipIdx
  if !s.pwr.opened then s
  else match temps.find? (fun e => decide (115000 < e.1)) with
    | some e => powerFault 5 (tempSource e.2) s
    | none =>
      let l := (x.milliwatts :: s.pwr.samples).take 10
      let sum : Nat := l.foldl (fun a b => a + b) 0
      let w := f32Ratio sum (1000 * l.length)
      let s := { s with pwr := { s.pwr with samples := l } }
      let s := ((s.setNum 0x2000 1 (x.volts % 2 ^ 32)).setNum 0x2000 2 (x.amps % 2 ^ 32)).setNum 0x2000 3 w
      let s := s.setNum 0x2000 4 (max (s.num 0x2000 4) w)
      temps.foldl senseDie (if l.length = 10 then capLoop sum s else s)

/-- CAPPING_SAMPLE (R548). DEDUCED: log entry 49. -/
def execCappingSample (sample : PowerSample) (s : State) : Host.Outcome State Fault Refusal := forUnit true (sampled sample s)

end Sys2Proof.Machine
end

