-- ==== Sys2Proof/Machine/Rings.lean ====
section
/-!
DEFINITION. Machine/Rings.lean: tally rings as their users see them: posts of software (R462), CONS and DONE (R466, R467), the
enable (R463, R473), and repeated NOTIFY frames (R493).
-/

namespace Sys2Proof.Machine

/-! ### Posts of software (R462) -/

/-- The post slot of hart h. -/
def postSlot (h : Nat) : Nat := 0x30000600000 + 32 * h

/-- A 64-bit word of the control window or of BAR0 that is kept as plain data, by its address. -/
def ctlWord (s : State) (a : Nat) : Nat := tget 0 a s.ctl

/-- An event that software may post: an area of R461, reserved bits 0, and a job context or none.
DEDUCED: log entry 37. -/
def postGood (word : Nat) : Bool :=
  (areaBit (bits word 39 32)).isSome && bits word 4 0 == 0 && (decide (bits word 9 5 < 16) || bits word 9 5 == 0x1F)

/-- The event in a hart's post slot, with the word at offset 8; the package sets its SOURCE. -/
def postedEvent (s : State) (h word : Nat) : Ev :=
  { code := bits word 39 24, source := src 2 h, sev := bits word 11 10, job := bits word 9 5,
    payload := leBytes 3 (bits word 63 40) ++ leBytes 8 (ctlWord s (postSlot h + 16)) ++ leBytes 8 (ctlWord s (postSlot h + 24)),
    except := none }

/-- A write at offset 8 of a post slot. -/
def postFromHart (h word : Nat) (s : State) : State :=
  if !s.pwr.opened then s
  else if postGood word then { s with evq := s.evq ++ [postedEvent s h word] } else count 0x58B2 1 1 s

/-- EVENT_POST (R462). DEDUCED: log entry 37. -/
def execEventPost (hart word : Nat) (s : State) : Host.Outcome State Fault Refusal :=
  forUnit (Instr.wf (.eventPost hart word)) (postFromHart hart word s)

/-! ### CONS and DONE -/

/-- A write of EVT_RING_CONS: rejected at or above 2^s, or past PROD (R466). -/
def applyCons (k v : Nat) (s : State) : Nat × State :=
  let n := ringSlots s k
  let ahead : Nat → Nat := fun x => (x + n - ringCons s k % n) % n
  if n ≤ v ∨ ahead (ringProd s k) < ahead v then (stValue, s)
  else (stOk, lostRecord k (s.setNum 0x5006 (k + 1) v))

/-- EVT_RING_CONS (R466). -/
def execEvtRingCons (ring value : Nat) (s : State) : Host.Outcome State Fault Refusal :=
  forUnit (Instr.wf (.evtRingCons ring value)) (applyCons ring value s).2

/-- A write of EVT_RING_DONE (R467). -/
def ringDone (k : Nat) (s : State) : State :=
  let c := s.num 0x5008 (k + 1)
  if c = 2 then deliver k (s.setNum 0x5008 (k + 1) (if ringProd s k = ringCons s k then 0 else 1))
  else if c = 3 then deliver k (s.setNum 0x5008 (k + 1) 1)
  else s

/-- EVT_RING_DONE (R467). -/
def execEvtRingDone (ring : Nat) (s : State) : Host.Outcome State Fault Refusal :=
  forUnit (Instr.wf (.evtRingDone ring)) (ringDone ring s)

/-! ### Enable (R463, R470, R473) -/

/-- A range of device memory, whether or not it can be accessed now; no range of a ring is long enough to pass over a hole. -/
def inDevice (s : State) (a n : Nat) : Bool := isDevice s a && isDevice s (a + n - 1)

/-- EVT_RING_BASE holds a size in range and slots in device memory (R463). -/
def ringBaseOk (s : State) (v : Nat) : Bool :=
  bits v 11 5 == 0 && decide (6 ≤ v % 32) && decide (v % 32 ≤ 16) && inDevice s (v / 4096 * 4096) (32 * 2 ^ (v % 32))

/-- EVT_RING_SHADOW names a line of device memory (R463). -/
def ringShadowOk (s : State) (v : Nat) : Bool := bits v 5 0 == 0 && inDevice s v 64

/-- A write of EVT_RING_ENABLE: TRUE zeroes the indices and the shadow line, which must be writable.
DEDUCED: log entry 35. -/
def applyRingEnable (k v : Nat) (s : State) : Nat × State :=
  if v = 0 then (stOk, disableRing k s)
  else if !ringBaseOk s (s.num 0x5002 (k + 1)) || !ringShadowOk s (ringShadow s k) || s.num 0x500A (k + 1) == 0 then (stValue, s)
  else
    let r := tryWrite (ringShadow s k) (List.replicate 64 0) s
    if r.1 then
      let s := ((r.2.setNum 0x5009 (k + 1) 0).setNum 0x5006 (k + 1) 0).setNum 0x5008 (k + 1) 0
      (stOk, (s.setNum 0x5001 (k + 1) 1).setRing k Ring.init)
    else (stValue, s)

/-! ### Repeated NOTIFY frames (R493) -/

/-- A repeat is due: the ring is ACTIVE or ACTIVE_AND_PENDING, repeats are on, and its target session is open. -/
def repeatDue (s : State) (k : Nat) : Bool :=
  let c := s.num 0x5008 (k + 1)
  let t := s.num 0x5005 (k + 1)
  timeRuns s && (c == 2 || c == 3) && s.num 0x1117 1 != 0 && bit t 61 && sessOpen s (bits t 39 36)

/-- NOTIFY_REPEAT (R493): no state of the ring changes. -/
def execNotifyRepeat (ring : Nat) (s : State) : Host.Outcome State Fault Refusal :=
  forUnit (Instr.wf (.notifyRepeat ring))
    (if repeatDue s ring then sendNotify (bits (s.num 0x5005 (ring + 1)) 39 36) ring s else s)

end Sys2Proof.Machine
end

