-- ==== Sys2Proof/Machine/Objects.lean ====
section
/-!
DEFINITION. Machine/Objects.lean: the dictionary as a request meets it: which objects are ready (R479), what they read (R477,
R478), when an RWI object is idle and which values an object takes (R476, R477), by the notes of the object tables.
-/

namespace Sys2Proof.Machine

/-! ### Ready (R479) -/

/-- A die that is asked for, has not failed, and has not passed its power-up self-test yet (R506 step 7). -/
def awaits (s : State) (u : Unit3) : Bool :=
  domWanted s (dieBase u) && s.domain (dieBase u) != 4 && !s.pwr.selftestOk.contains u

/-- No tensor die, server-core die or link die awaits its self-test. -/
def tdsTested (s : State) : Bool := (List.range 8).all fun n => !awaits s (.td n)
def hdsTested (s : State) : Bool := (List.range 2).all fun d => !awaits s (.hd d)
def ldsTested (s : State) : Bool := (List.range 2).all fun u => !awaits s (.ld u)

/-- A tensor die can answer for its own objects. DEDUCED: log entry 20. -/
def dieReady (s : State) (n : Nat) : Bool := s.on (domUncore n) && s.pwr.selftestOk.contains (.td n)

/-- The die of a per-die object of 0x3C00 to 0x3FFF, or `none` for an object of the package. -/
def dieOf (i j : Nat) : Option Nat :=
  if (0x3C02 ≤ i ∧ i ≤ 0x3C05) ∨ i = 0x3C07 ∨ i = 0x3C09 then some (j - 1)
  else if (0x3C10 ≤ i ∧ i < 0x3C38) ∨ (0x3C50 ≤ i ∧ i < 0x3C68) then some (i % 8)
  else none

/-- The domain of the unit that a subindex names and that owns the object: the home of a tensor die, a port, a landing unit, a
server-core die or a memory controller; `none` for the objects of the package, among them the power of the clusters and the states of
the harts, which read OFF while a cluster is off (R422). An overflow flag goes with its counter (R471). -/
def ownerDomain (i j : Nat) : Option Nat :=
  let i := if 0x5C00 ≤ i ∧ i < 0x6000 then i - 0x400 else i
  if j = 0 then none
  else if i = 0x2800 ∨ (0x5850 ≤ i ∧ i ≤ 0x5855) then some (domUncore (j - 1))
  else if (0x3001 ≤ i ∧ i ≤ 0x3008) ∨ (0x5860 ≤ i ∧ i ≤ 0x5867 ∧ j ≤ 24) then some (domOfPort (j - 1))
  else if i = 0x3811 then some (domLanding (j - 1))
  else if i = 0x5890 ∨ i = 0x5891 then some (domHdUncore (j - 1))
  else if 0x5900 ≤ i ∧ i ≤ 0x590B then some (domUncore (j - 1))
  else if i = 0x2407 then some (domGroup (j - 1))
  else if i = 0x5840 ∨ i = 0x5841 then some (domGroup ((j - 1) / 4))
  else if i = 0x5842 ∨ i = 0x5843 then some (domGroup (j - 1))
  else none

/-- The server answers for an object: its owning unit has reached its place in the boot, and has power (R479; log entry 20). -/
def objReady (s : State) (i j access : Nat) : Bool :=
  s.pwr.opened && s.on domMc && (match ownerDomain i j with | some d => s.on d | none => true) &&
    (if i < 0x2400 ∨ (0x5400 ≤ i ∧ i < 0x5800) then true
     else if i < 0x2800 then access == 3 || i == 0x2404 || tdsTested s
     else if i < 0x2C00 then tdsTested s
     else if i < 0x3000 then true
     else if i < 0x3C00 then ldsTested s
     else if i < 0x4000 then
       (if i = 0x3C00 ∨ i = 0x3C01 ∨ i = 0x3C06 then tdsTested s
        else match dieOf i j with
          | some n => j == 0 || dieReady s n
          | none => tdsTested s)
     else if i < 0x5000 then tdsTested s && ldsTested s
     else if i < 0x6000 then true
     else if i < 0x6003 then hdsTested s
     else true)

/-! ### Reading -/

/-- PWR_RAIL_MV: the lowest of the target, the capped value and the thermal value (R539). -/
def railMv (s : State) (n : Nat) : Nat :=
  min (s.num 0x2002 (n + 1)) (min (lget 800 s.pwr.capped n) (lget 800 s.pwr.thermal n))

/-- What an object reads: live readings are computed, subindex 0 is the highest subindex in use (R475), every other object holds
its value. DEDUCED: log entry 25. -/
def readVal (s : State) (i j : Nat) : Val :=
  if j = 0 then .num (highestSub i)
  else if i = 0x2001 ∧ j = 2 then .num (powerLimit s)
  else if i = 0x2001 ∧ j = 3 then .num (b2n (capActive s))
  else if i = 0x2003 then .num (railMv s (j - 1))
  else if i = 0x2410 ∧ j = 1 then .num ((120 - s.merr.effG) * gib)
  else if i = 0x2410 ∧ j = 3 then .num (8 * s.merr.effG * gib)
  else if i = 0x2802 ∧ j = 2 then .num (modeEff s)
  else if i = 0x5402 then .bytes (sliceOf (lget [] s.fuses.keyHash (j - 1)) 0 48)
  else if i = 0x5403 ∧ j = 1 then .num (s.fuses.revoked % 16)
  else if i = 0x5404 ∧ j = 1 then .num (blown s.fuses.svnMc)
  else if i = 0x5404 ∧ j = 2 then .num (blown s.fuses.svnCore)
  else if i = 0x6003 ∧ j = 1 then .num s.tim.now
  else s.val i j

/-- The bytes of a value of an object of n bytes (R8, R476). -/
def valBytes (n : Nat) : Val → List Byte
  | .num v => leBytes n v
  | .bytes l => l

/-! ### Idle (R477) -/

/-- Job j is not STARTING, RUNNING or SWITCHING (R369, R403). -/
def jobIdle (s : State) (j : Nat) : Bool := !isRunning s j

/-- A tensor die is idle: nothing is in flight on it, and no job context, whatever its state, maps its engines or its Canopy
(R122). -/
def dieIdle (s : State) (n : Nat) : Bool :=
  (s.die n).ops.isEmpty && (s.die n).notices.isEmpty && !(s.die n).testing
    && (List.range 16).all fun j => s.jobState j == 0 || !(needsUncore s j n || needsCanopy s j n)

/-- The bits, below n, in which two values differ. -/
def changed (a b n : Nat) : List Nat := (List.range n).filter fun k => bit a k != bit b k

/-- The subsystem of an RWI object, or the condition in the notes of an RW object, lets a value be written now. -/
def objIdle (s : State) (i j v : Nat) : Bool :=
  if 0x3020 ≤ i ∧ i ≤ 0x3024 then jobIdle s (j - 1)
  else if i = 0x3811 then (List.range 16).all fun k => (s.job k).luOps.all fun o => o.lu != j - 1 || o.completed
  else if i = 0x380D then true
  else if 0x3800 ≤ i ∧ i ≤ 0x3813 then jobIdle s (j - 1)
  else if 0x3C43 ≤ i ∧ i ≤ 0x3C45 then jobIdle s (j - 1)
  else if i = 0x3C00 then (changed (s.num 0x3C00 2) v 8).all (dieIdle s)
  else if i = 0x3C01 ∨ i = 0x3C06 then dieIdle s (j - 1)
  else if i = 0x3C08 then (bitList v 8).all (dieIdle s)
  else if 0x3C10 ≤ i ∧ i < 0x3C28 then !dqOn s (i % 8) (j - 1)
  else if i = 0x3C41 then slotFree s (j - 1)
  else if 0x3C50 ≤ i ∧ i < 0x3C58 then jobIdle s (j - 1) && (s.die (i % 8)).chains.all fun c => c.1 != j - 1
  else if i = 0x3C68 ∨ i = 0x3C69 then jobIdle s (j - 1) && s.dies.all fun d => d.chains.all fun c => c.1 != j - 1
  else if 0x4000 ≤ i ∧ i < 0x5000 then
    let k := i / 256 - 0x40
    let b := i % 256
    if (b = 0 ∧ j = 1) ∨ b = 2 ∨ (b = 4 ∧ j = 2) ∨ b = 8 then jobIdle s k else true
  else if 0x2C20 ≤ i ∧ i ≤ 0x2C22 then jobIdle s (j - 1)
  else if i = 0x2402 ∨ i = 0x2403 then (List.range 8).all fun n => s.memState n == 0
  else if i = 0x2006 ∧ j = 1 then
    (changed (s.num 0x2006 1) v 8).all fun n => groupIdle s n && s.homeState n == 0
  else if i = 0x2006 ∧ j = 2 then
    (changed (s.num 0x2006 2) v 2).all fun u =>
      bits (s.num 0x3000 1) (12 * u + 11) (12 * u) == 0
        && (runningJobs s fun k => match (s.job k).topo with
            | some t => t.paths.any fun p => p.kind != 0 && p.lu == u
            | none => false).isEmpty
  else if i = 0x6001 then
    (changed (s.num 0x6001 j) v 4).all fun c => (List.range 9).all fun k =>
      let h := s.hartState (36 * (j - 1) + 9 * c + k)
      h == 1 || h == 0xFF
  else if i = 0x2C07 then linkState s (j - 1) != 2
  else if i = 0x2C06 ∧ j = 1 then linkState s 0 != 2 && linkState s 1 != 2
  else if i = 0x5002 ∨ i = 0x5003 then !ringOn s (j - 1)
  else if 0x1111 ≤ i ∧ i ≤ 0x1113 then (List.range 16).all fun k => !(sessOpen s k && s.num 0x1121 (k + 1) == j - 1)
  else if i = 0x1114 then (List.range 16).all fun k => !sessOpen s k
  else true

/-! ### Ranges (R476, R477) -/

/-- A ring object: [63:12] base, [11:5] zero, [4:0] in a range. DEDUCED: log entry 21. -/
def ringWord (lo hi v : Nat) : Bool := bits v 11 5 == 0 && decide (lo ≤ v % 32) && decide (v % 32 ≤ hi)

/-- A ring object whose value 0 means that there is none (log entry 21). -/
def ringWord0 (lo hi v : Nat) : Bool := v == 0 || ringWord lo hi v

/-- An address whose low n bits are 0. -/
def lowZero (n v : Nat) : Bool := v % 2 ^ n == 0

/-- A value in a closed range. -/
def within (lo hi v : Nat) : Bool := decide (lo ≤ v) && decide (v ≤ hi)

/-- Ranges of the objects 0x1000 to 0x23FF and 0x5400 to 0x57FF. -/
def baseRange (s : State) (i j v : Nat) : Bool :=
  match i, j with
  | 0x1101, 1 => v == 1
  | 0x1101, 2 => within 100 600000 v
  | 0x1102, 1 => within 1 7 v
  | 0x1111, _ => decide (v ≤ 31)
  | 0x1112, _ => decide (1 ≤ v)
  | 0x1114, _ => decide (0x600 ≤ v)
  | 0x1117, _ => v == 0 || within 10 10000 v
  | 0x1118, _ => decide (10 ≤ v)
  | 0x1123, _ => v == 1
  | 0x2000, 4 => v == 0
  | 0x2001, 1 => within 300 1400 v
  | 0x2002, _ => within 550 (classRail (s.num 0x2001 4)) v && v % 5 == 0
  | 0x2005, _ => within 85 105 v
  | 0x2006, 2 => decide (v < 4)
  | 0x5401, 1 => v == 1
  | 0x5403, 2 => decide (v < 16)
  | 0x5404, 3 => decide (v < 4)
  | _, _ => true

/-- Ranges of the objects of memory, coherence, host coupling, events and server cores. -/
def memRange (s : State) (i j v : Nat) : Bool :=
  match i, j with
  | 0x2402, _ => v == 6400 || v == 7500 || v == 8533 || v == 9600
  | 0x2403, _ => decide (v ≤ 64)
  | 0x2404, _ => v == 1
  | 0x2405, _ => within 3600 604800 v
  | 0x2802, 1 => decide (v ≤ 2)
  | 0x2803, _ => within 1 3 v
  | 0x2810, _ => lowZero 12 v && decide (v < 2 ^ 48)
  | 0x2811, _ => lowZero 12 v
  | 0x2812, _ => decide (v ≤ 9) || v == 0xF
  | 0x2C06, 1 => lowZero 30 v && within 0x40000000 0x7FFFC0000000 v
  | 0x2C07, _ => lowZero 21 v
  | 0x2C09, _ => within 1 64 v
  | 0x2C20, _ => lowZero 6 v
  | 0x2C21, _ => decide (v ≤ 2) || v == 0xFF
  | 0x2C22, _ => ringWord 20 34 v
  | 0x5002, _ => ringBaseOk s v
  | 0x5003, _ => ringShadowOk s v
  | 0x5004, _ => decide (v < 2 ^ 50) && bits v 46 45 == 0 && bits v 31 17 == 0
  | 0x5005, _ => bits v 35 0 == 0 && (!bit v 63 ||
      (decide (bits v 60 54 < 72) && bits v 53 52 != 3 && ((bits v 53 52 == 2) == (bits v 51 49 != 0)) && bits v 48 41 != 0))
  | 0x5007, _ => v == 1
  | 0x6001, _ => decide (v < 16) && (j != 1 || bit v 0)
  | 0x6003, 3 => v == 1
  | _, _ => true

/-- COL_QUORUM is no greater than N of the topology record that COL_TOPOLOGY names, as memory holds it when the object is written
(R298, R364). DEDUCED: log entry 134. -/
def quorumOk (s : State) (j v : Nat) : Bool :=
  let a := s.num 0x3800 j
  let n := bits (leNat (peekMem s a 8)) 63 48
  a == 0 || !memOk s (lineOf a) || n == 0 || decide (v ≤ n)

/-- Ranges of the objects of the links and collectives. -/
def linkRange (i v : Nat) : Bool :=
  match i with
  | 0x3011 => within 2 100 v
  | 0x3012 => decide (1 ≤ v)
  | 0x3013 => within 10 1000000 v
  | 0x3014 => within 10 60000 v
  | 0x3015 => decide (1 ≤ v)
  | 0x3016 => within 100 10000 v
  | 0x3020 => lowZero 6 v
  | 0x3021 => lowZero 6 v
  | 0x3022 => decide (v ≤ 240)
  | 0x3023 => ringWord0 6 16 v
  | 0x3024 => lowZero 2 v
  | 0x3800 => lowZero 6 v
  | 0x3801 => ringWord0 6 16 v
  | 0x3802 => lowZero 7 v
  | 0x3805 => lowZero 7 v
  | 0x3806 => decide (v ≤ 4096)
  | 0x3807 => ringWord0 6 16 v
  | 0x3808 => lowZero 6 v
  | 0x3809 => ringWord0 13 24 v
  | 0x380A => lowZero 3 v
  | 0x380B => decide (v < 2 ^ 14)
  | 0x380C => within 1 16384 v
  | 0x380D => within 1 10000000 v
  | 0x380E => decide (v ≤ 2)
  | 0x380F => decide (v ≤ 1)
  | 0x3810 => decide (v < 0x7F800000)
  | 0x3811 => decide (v ≤ 56)
  | 0x3813 => decide (v ≤ 15)
  | _ => true

/-- Ranges of the objects of the tensor dies. -/
def tnsRange (i v : Nat) : Bool :=
  if i = 0x3C01 then decide (v < 16)
  else if i = 0x3C04 then decide (v ≤ 1)
  else if i = 0x3C05 then decide (v < 8)
  else if i = 0x3C07 then within 1000 3600000 v
  else if 0x3C10 ≤ i ∧ i < 0x3C20 then ringWord 6 16 v
  else if 0x3C20 ≤ i ∧ i < 0x3C28 then lowZero 6 v
  else if i = 0x3C41 ∨ i = 0x3C43 ∨ i = 0x3C68 then lowZero 6 v
  else if i = 0x3C44 then decide (v ≤ 16777216)
  else if i = 0x3C45 then within 4096 16777216 v && lowZero 12 v
  else if 0x3C50 ≤ i ∧ i < 0x3C58 then lowZero 6 v
  else if i = 0x3C69 then decide (v ≤ 65536)
  else true

/-- Ranges of the objects of a job. -/
def jobRange (b j v : Nat) : Bool :=
  match b, j with
  | 0x00, 1 => lowZero 7 v
  | 0x02, 2 => decide (v < 2 ^ 14)
  | 0x03, 1 => within 1 1000 v
  | 0x03, 2 => within 10 60000 v
  | 0x03, 3 => v == 0 || within 10 3600000 v
  | 0x03, 5 => within 100 600000 v
  | 0x08, 1 => decide (v < 2 ^ 14)
  | 0x08, 2 => lowZero 12 v
  | 0x09, 1 => decide (1 ≤ v)
  | _, _ => true

/-- The value of an object lies in its defined encodings and range. DEDUCED: log entry 134. -/
def rangeTaken (s : State) (i j v : Nat) : Bool :=
  if i < 0x2400 ∨ (0x5400 ≤ i ∧ i < 0x5800) then baseRange s i j v
  else if i < 0x3000 ∨ 0x5000 ≤ i then memRange s i j v
  else if i < 0x3C00 then linkRange i v && (i != 0x380C || quorumOk s j v)
  else if i < 0x4000 then tnsRange i v
  else jobRange (i % 256) j v

/-- A binary32 NaN. -/
def isNan32 (v : Nat) : Bool := decide (0x7F800000 < v % 2 ^ 31)

/-- The bytes are an encoding of the type (R476). -/
def typeTaken (type v : Nat) (l : List Byte) : Bool :=
  if type = 1 then decide (v ≤ 1) else if type = 8 then !isNan32 v else if type = 9 then strOk l else true

end Sys2Proof.Machine
end

