-- ==== Sys2Proof/Machine/ObjectWrites.lean ====
section
/-!
DEFINITION. Machine/ObjectWrites.lean: what a write of each object does, beside storing its value, and the checks that every write
passes first (R477, R484, R498).
-/

namespace Sys2Proof.Machine

/-- The value is stored: numbers as such, STR, OCT and DOM as bytes. -/
def storeObj (i j v : Nat) (l : List Byte) (s : State) : State :=
  match rowOf i j with
  | some r => if 9 ≤ r.type then s.setOct i j l else s.setNum i j v
  | none => s

/-! ### Dictionary and Camip (R490, R500, R503) -/

/-- The sessions of a port close, because its enable or its node ID changed (R490). -/
def closePort (p : Nat) (s : State) : State :=
  (List.range 16).foldl (fun s k => if s.num 0x1121 (k + 1) = p then closeSession k 3 s else s) s

/-- A write of CAMIP_ENABLE: FALSE closes the port's sessions and silences the port. -/
def applyCamipEnable (p v : Nat) (s : State) : State :=
  let s := s.setNum 0x1110 (p + 1) v
  let quiet : Nat × Out → Bool := fun e => e.1 != p
  let s := if v = 0 then closePort p { s with dict := { s.dict with txq := s.dict.txq.filter quiet } } else s
  refreshCamip p s

/-- A write of CAMIP_NODE_ID: a change closes the port's sessions; with 0 the port transmits nothing (R485). -/
def applyNodeId (p v : Nat) (s : State) : State :=
  let same := s.num 0x1111 (p + 1) == v
  let s := s.setNum 0x1111 (p + 1) v
  let quiet : Nat × Out → Bool := fun e => e.1 != p
  let s := if same then s else closePort p s
  refreshCamip p (if v = 0 then { s with dict := { s.dict with txq := s.dict.txq.filter quiet } } else s)

/-- A write of DICT_REPLAY_DONE TRUE: it ends the hold, if the hold has not ended (R500). -/
def applyReplayDone (s : State) : State :=
  let s := s.setNum 0x1101 1 1
  if holdEnded s then s else endHold 2 s

/-- A write of CAMIP_SESSION_CLOSE TRUE: the session closes once the response has been sent. -/
def applySessionClose (slot : Nat) (s : State) : State := { s with dict := { s.dict with closing := s.dict.closing ++ [(slot, 2)] } }

/-- Writes of the objects 0x1000 to 0x1FFF. -/
def applyDict (i j v : Nat) (l : List Byte) (s : State) : Nat × State :=
  if i = 0x1101 ∧ j = 1 then (stOk, applyReplayDone s)
  else if i = 0x1110 then (stOk, applyCamipEnable (j - 1) v s)
  else if i = 0x1111 then (stOk, applyNodeId (j - 1) v s)
  else if i = 0x1123 then (stOk, applySessionClose (j - 1) s)
  else (stOk, storeObj i j v l s)

/-! ### Security (R508, R521) -/

/-- A write of SEC_READY TRUE after the handoff and the hold: the package becomes ready. DEDUCED: log entry 29. -/
def applyReady (s : State) : Nat × State :=
  if s.num 0x5400 1 = 4 ∧ holdEnded s then (stOk, post 0x5403 (src 0 2) 0x1F [(8, s.tim.now)] (s.setNum 0x5400 1 5))
  else (stNotReady, s)

/-- A key slot that is neither empty nor revoked, with revocation bits r. -/
def slotLive (s : State) (r k : Nat) : Bool :=
  !((lget [] s.fuses.keyHash k).all (· == 0)) && !bit r k

/-- A write of SEC_KEY_REVOKE. DEDUCED: log entries 29, 62. -/
def applyRevoke (v : Nat) (s : State) : Nat × State :=
  let r := (s.fuses.revoked ||| v) % 16
  if !packageReady s then (stNotReady, s)
  else if bit v s.pwr.mcSlot || bit v s.pwr.coreSlot || !(List.range 4).any (slotLive s r) then (stValue, s)
  else if r = s.fuses.revoked % 16 then (stOk, s)
  else (stOk, post 0x5404 (src 0 2) 0x1F [(1, 0), (1, v)] { s with fuses := { s.fuses with revoked := r } })

/-- A write of SEC_SVN_COMMIT: fuses are blown up to the SVN of the running image (R520, R521). DEDUCED: log entry 62. -/
def applyCommit (v : Nat) (s : State) : Nat × State :=
  let f := s.fuses
  let mc := if bit v 0 then f.svnMc ||| thermo s.pwr.mcSvn else f.svnMc
  let core := if bit v 1 then f.svnCore ||| thermo s.pwr.coreSvn else f.svnCore
  if !packageReady s then (stNotReady, s)
  else if mc = f.svnMc ∧ core = f.svnCore then (stOk, s)
  else (stOk, post 0x5404 (src 0 2) 0x1F [(1, 1), (1, v)] { s with fuses := { f with svnMc := mc, svnCore := core } })

/-- Writes of the objects 0x5400 to 0x57FF. DEDUCED: log entry 29. -/
def applySec (i j v : Nat) (l : List Byte) (s : State) : Nat × State :=
  if i = 0x5401 then applyReady s
  else if i = 0x5403 then applyRevoke v s
  else if i = 0x5404 then applyCommit v s
  else (stOk, storeObj i j v l s)

/-! ### Enables of domains (R542) -/

/-- An enable object takes a value: refused when a domain that it newly asks for may not be enabled; otherwise what can ramp
starts to (R542, R543). -/
def applyEnable (i j v : Nat) (s : State) : Nat × State :=
  let t := s.setNum i j v
  let asked := allDomains.filter fun d => domWanted t d && !domWanted s d
  if asked.all (mayEnable t) then (stOk, rampAll asked t) else (stValue, s)

/-- Groups that are no longer asked for and are off read OFF. -/
def closeGroups (s : State) : State :=
  settleShare ((List.range 8).foldl (fun s n =>
    if !groupEnabled s n && s.domain (domGroup n) == 0 then s.setNum 0x2401 (n + 1) 4 else s) s)

/-- Writes of the objects 0x2000 to 0x23FF. -/
def applyPower (i j v : Nat) (l : List Byte) (s : State) : Nat × State :=
  if i = 0x2006 ∧ j = 1 then
    let r := applyEnable i j v s
    if r.1 = stOk then (stOk, closeGroups r.2) else r
  else if i = 0x2006 then applyEnable i j v s
  else (stOk, storeObj i j v l s)

/-! ### Memory and coherence -/

/-- A write of COH_HOME_ENABLE (R250, R251). -/
def applyHomes (v : Nat) (s : State) : Nat × State :=
  let old := s.num 0x2801 1
  let rising := (List.range 8).filter fun n => bit v n && !bit old n
  let falling := (List.range 8).filter fun n => !bit v n && bit old n
  if !(rising.all (homeOnAllowed s)) then (stValue, s)
  else
    let s := rising.foldl (fun s n => s.setNum 0x2800 (n + 1) 1) (s.setNum 0x2801 1 v)
    (stOk, falling.foldl (fun s n => if s.homeState n = 1 then drainHome n s else s) s)

/-- Writes of the objects 0x2400 to 0x2FFF. -/
def applyMem (i j v : Nat) (l : List Byte) (s : State) : Nat × State :=
  if i = 0x2404 then (stOk, { s with dict := { s.dict with memInit := true } })
  else if i = 0x2801 then applyHomes v s
  else if i = 0x2C0B ∧ bits v 61 19 ≠ 0 then (stValue, s)
  else if i = 0x2C0B then (stOk, if linkExists s (j - 1) then biasCmd (j - 1) v s else s)
  else if i = 0x2C23 then (stOk, acknowledge (j - 1) v s)
  else (stOk, storeObj i j v l s)

/-! ### Links, tensor dies and jobs -/

/-- Writes of the objects 0x3000 to 0x3BFF. -/
def applyLinks (i j v : Nat) (l : List Byte) (s : State) : Nat × State :=
  if i = 0x3000 then applyPortEnable v s
  else if i = 0x3003 then applyPortExpect (j - 1) false v s
  else if i = 0x3004 then applyPortExpect (j - 1) true v s
  else (stOk, storeObj i j v l s)

/-- The self-test of a die starts, and its result is cleared (R124). DEDUCED: log entry 65. -/
def startSelftest (s : State) (n : Nat) : State := (s.setDie n { s.die n with testing := true }).setNum 0x3C09 (n + 1) 0

/-- A write of TNS_SELFTEST_START. -/
def applySelftest (v : Nat) (s : State) : Nat × State :=
  if (bitList v 8).all (dieReady s) then (stOk, (bitList v 8).foldl startSelftest s) else (stNotReady, s)

/-- A write of TNS_DIE_ENABLE: a die that is not present cannot be set (R123). -/
def applyDieEnable (v : Nat) (s : State) : Nat × State :=
  if (bitList v 8).all (bit (s.num 0x3C00 1)) then applyEnable 0x3C00 2 v s else (stValue, s)

/-- Writes of the objects 0x3C00 to 0x3FFF. -/
def applyTns (i j v : Nat) (l : List Byte) (s : State) : Nat × State :=
  if i = 0x3C00 then applyDieEnable v s
  else if i = 0x3C01 ∨ i = 0x3C06 then applyEnable i j v s
  else if i = 0x3C08 then applySelftest v s
  else if 0x3C28 ≤ i ∧ i < 0x3C30 then applyDqCtrl (i - 0x3C28) (j - 1) v s
  else if i = 0x3C38 then applyDqReset v s
  else if i = 0x3C40 then applySlotBind (j - 1) v s
  else if 0x3C60 ≤ i ∧ i < 0x3C68 then applyPoolPeak (i - 0x3C60) (j - 1) v s
  else (stOk, storeObj i j v l s)

/-- A write of JOB_JMIRROR_DEV: a mirror that a restarting job gains is rebuilt, and one that is turned off is OFF (R566, R568, R569). -/
def applyMirror (k v : Nat) (s : State) : State :=
  let s := s.setNum (jobIx k 8) 1 v
  if !mirrorOn s k then mirrorOff k s else if s.jobState k = 5 then s.setNum (jobIx k 8) 3 2 else s

/-- Writes of the objects of job k; b is the place in its block. -/
def applyJob (k b j v : Nat) (l : List Byte) (s : State) : Nat × State :=
  if b = 0 ∧ j = 2 then applyJobCtrl k v s
  else if b = 3 ∧ j = 3 then (stOk, armWatchdog k (s.setNum (jobIx k 3) 3 v))
  else if b = 3 ∧ j = 4 then applyJobKick k v s
  else if b = 4 ∧ j = 1 then applyJobSwitch k v s
  else if b = 8 ∧ j = 1 then (stOk, applyMirror k v s)
  else (stOk, storeObj (jobIx k b) j v l s)

/-! ### Events and server cores -/

/-- Writes of the objects 0x5000 to 0x53FF. -/
def applyEvents (i j v : Nat) (l : List Byte) (s : State) : Nat × State :=
  if i = 0x5000 then (stOk, if s.num 0x5000 1 = 0 then deliverAll (s.setNum 0x5000 1 v) else s.setNum 0x5000 1 v)
  else if i = 0x5001 then applyRingEnable (j - 1) v s
  else if i = 0x5005 then (stOk, deliver (j - 1) (s.setNum 0x5005 j v))
  else if i = 0x5006 then applyCons (j - 1) v s
  else if i = 0x5007 then (stOk, ringDone (j - 1) s)
  else (stOk, storeObj i j v l s)

/-- Writes of the objects 0x6000 to 0x63FF. DEDUCED: log entry 14. -/
def applyCores (i j v : Nat) (l : List Byte) (s : State) : Nat × State :=
  if i = 0x6001 then applyEnable i j v s
  else if i = 0x6003 then (stOk, if s.tim.timeref then setSource 1 s else s)
  else (stOk, storeObj i j v l s)

/-- The effect of a write whose checks have passed: a status, and the state, unchanged when the status is not OK. -/
def applyObj (i j v : Nat) (l : List Byte) (s : State) : Nat × State :=
  if i < 0x2000 then applyDict i j v l s
  else if i < 0x2400 then applyPower i j v l s
  else if i < 0x3000 then applyMem i j v l s
  else if i < 0x3C00 then applyLinks i j v l s
  else if i < 0x4000 then applyTns i j v l s
  else if i < 0x5000 then applyJob (i / 256 - 0x40) (i % 256) j v l s
  else if i < 0x5400 then applyEvents i j v l s
  else if i < 0x5800 then applySec i j v l s
  else applyCores i j v l s

/-! ### The checks of a write -/

/-- DICT_PATH_WRITE lets a path write; path 0 is Camip, 1 a host channel, 2 a core channel (R498). -/
def pathAllowed (s : State) (path : Nat) : Bool := bit (s.num 0x1102 1) path

/-- A command that its rule confines to other paths (R508, R521). -/
def pathConfined (path i j : Nat) : Bool :=
  (i == 0x5401 && path != 2) || (((i == 0x5403 && j == 2) || (i == 0x5404 && j == 3)) && path != 0)

/-- The status of a write before it is applied, in the order of log entry 22; `dom` is the write of a DOM object's segment. -/
def writeStatus (s : State) (path i j type : Nat) (l : List Byte) : Nat :=
  match rowOf i j with
  | none => stNoObject
  | some r =>
    if !objReady s i j r.access then stNotReady
    else if !pathAllowed s path || pathConfined path i j then stPathDenied
    else if r.access = 0 then stNotWritable
    else if r.type = 11 ∨ type ≠ r.type ∨ l.length ≠ r.size then stType
    else if !objIdle s i j (leNat l) then stBusy
    else if !(typeTaken r.type (leNat l) l && rangeTaken s i j (leNat l)) then stValue
    else stOk

/-- An object written during the settings hold (R505). DEDUCED: log entry 39. -/
def noteHold (s : State) : State :=
  if holdEnded s then s else { s with dict := { s.dict with holdWrites := s.dict.holdWrites + 1 } }

/-- One write of an object: its status, and the state (R477). DEDUCED: log entry 22. -/
def writeObj (path i j type : Nat) (l : List Byte) (s : State) : Nat × State :=
  if writeStatus s path i j type l = stOk then
    let r := applyObj i j (leNat l) l (noteHold s)
    if r.1 = stOk then r else (r.1, s)
  else (writeStatus s path i j type l, s)

end Sys2Proof.Machine
end

