-- ==== Sys2Proof/Machine/Dictionary.lean ====
section
/-!
DEFINITION. Machine/Dictionary.lean: the services (R481 to R483), the paths by which requests come and answers go (R486 to R495), SPDM and
IDENT (R488, R523 to R525), and the commands that are writes of one object.
-/

namespace Sys2Proof.Machine

/-! ### Services -/

/-- The status of a read. -/
def readStatus (s : State) (i j : Nat) : Nat :=
  match rowOf i j with
  | none => stNoObject
  | some r =>
    if !objReady s i j r.access then stNotReady
    else if r.access = 2 then stNotReadable
    else if r.type = 11 then stType
    else stOk

/-- Type and value bytes of an object. -/
def readBytes (s : State) (i j : Nat) : Nat × List Byte :=
  match rowOf i j with
  | none => (0, [])
  | some r => (r.type, valBytes r.size (readVal s i j))

/-- READ: 0 TYPE, 2 VLEN, 4 value. -/
def svcRead (i j : Nat) (s : State) : Nat × List Byte :=
  if readStatus s i j = stOk then
    let r := readBytes s i j
    (stOk, leBytes 2 r.1 ++ leBytes 2 r.2.length ++ r.2)
  else (readStatus s i j, [])

/-- One item of a READ_MULTI response: STATUS, TYPE, VLEN, value, padded to 4. -/
def multiItem (s : State) (e : Nat × Nat) : List Byte :=
  if readStatus s e.1 e.2 = stOk then
    let r := readBytes s e.1 e.2
    let l := leBytes 1 stOk ++ leBytes 1 r.1 ++ leBytes 2 r.2.length ++ r.2
    padTo l (roundUp l.length 4)
  else leBytes 4 (readStatus s e.1 e.2)

/-- READ_MULTI. -/
def svcReadMulti (items : List (Nat × Nat)) (s : State) : Nat × List Byte := (stOk, items.flatMap (multiItem s))

/-- WRITE_MULTI: items applied, the status of the first refused, and the state (R482). -/
def runItems (path : Nat) : List WriteItem → Nat → State → (Nat × Nat) × State
  | [], n, s => ((n, stOk), s)
  | w :: r, n, s =>
    let q := writeObj path w.index w.sub w.type w.value s
    if q.1 = stOk then runItems path r (n + 1) q.2 else ((n, q.1), q.2)

/-- The body of a WRITE_MULTI response. -/
def multiBody (applied status : Nat) : List Byte := leBytes 2 applied ++ leBytes 2 status

/-- The 32 bytes of an object's name. -/
def nameBytes (r : ObjRow) : List Byte := padTo ((r.name.toList.map fun c => BitVec.ofNat 8 c.toNat).take 32) 32

/-- DESCRIBE (R483). DEDUCED: log entry 25. -/
def svcDescribe (i j : Nat) (s : State) : Nat × List Byte :=
  match rowOf i j with
  | none => (stNoObject, [])
  | some r =>
    if !objReady s i j r.access then (stNotReady, [])
    else
      let size := if r.type = 11 then (s.oct i j).length else r.size
      let dflt := if r.dkind = 0 ∧ r.type ≠ 11 then valBytes r.size (objDefault (okey i j)) else []
      (stOk, leBytes 1 r.type ++ leBytes 1 r.access ++ leBytes 2 r.dkind ++ leBytes 4 size ++ nameBytes r ++ dflt)

/-- DOM_READ (R481). -/
def svcDomRead (i j off len : Nat) (s : State) : Nat × List Byte :=
  match rowOf i j with
  | none => (stNoObject, [])
  | some r =>
    if !objReady s i j r.access then (stNotReady, [])
    else if r.access = 2 then (stNotReadable, [])
    else if r.type ≠ 11 then (stType, [])
    else if (s.oct i j).length < off then (stRange, [])
    else
      let l := ((s.oct i j).drop off).take len
      (stOk, leBytes 4 l.length ++ l)

/-- DOM_WRITE (R481): the size of a block never changes. DEDUCED: log entry 22. -/
def svcDomWrite (path i j off : Nat) (l : List Byte) (s : State) : Nat × State :=
  match rowOf i j with
  | none => (stNoObject, s)
  | some r =>
    if !objReady s i j r.access then (stNotReady, s)
    else if !pathAllowed s path then (stPathDenied, s)
    else if r.access = 0 then (stNotWritable, s)
    else if r.type ≠ 11 then (stType, s)
    else if (s.oct i j).length < off + l.length then (stRange, s)
    else if !objIdle s i j 0 then (stBusy, s)
    else (stOk, noteHold (s.setOct i j (spliceOf (s.oct i j) off l)))

/-- A service that only reads. -/
def pureAnswer (f : State → Nat × List Byte) (s : State) : Answer := (f s, s)

/-- A service that answers with an empty body. -/
def bare (r : Nat × State) : Answer := ((r.1, []), r.2)

/-- WRITE_MULTI as a service. -/
def svcWriteMulti (path : Nat) (items : List WriteItem) (s : State) : Answer :=
  let r := runItems path items 0 s
  ((r.1.2, multiBody r.1.1 r.1.2), r.2)

/-! ### Request bodies as bytes (R481) -/

/-- The body of a READ, or an item of READ_MULTI. -/
def readReq (i j : Nat) : List Byte := leBytes 2 i ++ leBytes 2 j

/-- The body of a WRITE. -/
def writeReq (i j type : Nat) (l : List Byte) : List Byte :=
  leBytes 2 i ++ leBytes 1 j ++ leBytes 1 type ++ leBytes 2 l.length ++ leBytes 2 0 ++ l

/-- The body of a DOM_READ, and the head of a DOM_WRITE. -/
def domReq (i j off len : Nat) : List Byte := leBytes 2 i ++ leBytes 2 j ++ leBytes 4 off ++ leBytes 4 len

/-- The body of a READ_MULTI. -/
def readMultiReq (items : List (Nat × Nat)) : List Byte :=
  leBytes 4 (items.length % 65536) ++ items.flatMap fun e => readReq e.1 e.2

/-- The body of a WRITE_MULTI. -/
def writeMultiReq (items : List WriteItem) : List Byte :=
  leBytes 8 (items.length % 65536) ++ items.flatMap fun w =>
    let l := writeReq w.index w.sub w.type w.value
    padTo l (roundUp l.length 8)

/-- The items of a READ_MULTI body. -/
def readItems : Nat → List Byte → List (Nat × Nat)
  | 0, _ => []
  | k + 1, l => (fieldOf l 0 2, fieldOf l 2 1) :: readItems k (l.drop 4)

/-- The items of a WRITE_MULTI body, or `none` when it is malformed. -/
def writeItems : Nat → List Byte → Option (List WriteItem)
  | 0, _ => some []
  | k + 1, l =>
    let n := fieldOf l 4 2
    if l.length < 8 + n ∨ fieldOf l 6 2 ≠ 0 then none
    else match writeItems k (l.drop (roundUp (8 + n) 8)) with
      | some r => some ({ index := fieldOf l 0 2, sub := fieldOf l 2 1, type := fieldOf l 3 1, value := (l.drop 8).take n } :: r)
      | none => none

/-- A request that breaks its layout is MALFORMED (R484). -/
def badRequest (body : List Byte) (s : State) : Answer := ((stMalformed, body), s)

/-- Every item of a READ_MULTI body has its reserved byte at 0. DEDUCED: log entry 26. -/
def readMultiOk (n : Nat) (l : List Byte) : Bool :=
  decide (4 + 4 * n ≤ l.length) && fieldOf l 2 2 == 0 && (List.range n).all fun k => fieldOf l (7 + 4 * k) 1 == 0

/-- A service run on the bytes of its body, on a mailbox or core channel; NOTIFY, SPDM, IDENT and unknown codes are MALFORMED
(R481, R494). DEDUCED: log entry 26. -/
def runService (path svc : Nat) (l : List Byte) (s : State) : Answer :=
  let i := fieldOf l 0 2
  let j := fieldOf l 2 1
  match svc with
  | 1 => if l.length < 4 ∨ fieldOf l 3 1 ≠ 0 then badRequest [] s else pureAnswer (svcRead i j) s
  | 2 =>
    if l.length < 8 ∨ l.length < 8 + fieldOf l 4 2 ∨ fieldOf l 6 2 ≠ 0 then badRequest [] s
    else bare (writeObj path i j (fieldOf l 3 1) ((l.drop 8).take (fieldOf l 4 2)) s)
  | 3 => if readMultiOk i l then pureAnswer (svcReadMulti (readItems i (l.drop 4))) s else badRequest [] s
  | 4 =>
    if l.length < 8 ∨ fieldOf l 2 6 ≠ 0 then badRequest (multiBody 0 stMalformed) s
    else match writeItems i (l.drop 8) with
      | some w => svcWriteMulti path w s
      | none => badRequest (multiBody 0 stMalformed) s
  | 5 => if l.length < 4 ∨ fieldOf l 3 1 ≠ 0 then badRequest [] s else pureAnswer (svcDescribe i j) s
  | 6 =>
    if l.length < 12 ∨ fieldOf l 3 1 ≠ 0 then badRequest [] s
    else pureAnswer (svcDomRead i j (fieldOf l 4 4) (fieldOf l 8 4)) s
  | 7 =>
    if l.length < 12 ∨ l.length < 12 + fieldOf l 8 4 ∨ fieldOf l 3 1 ≠ 0 then badRequest [] s
    else bare (svcDomWrite path i j (fieldOf l 4 4) ((l.drop 12).take (fieldOf l 8 4)) s)
  | _ => badRequest [] s

/-! ### Answers -/

/-- The last answer given, and the count of refusals by path: 1 Camip, 2 host channels, 3 core channels (R504).
DESIGN CHOICE: log entry 6. -/
def noteAnswer (path status : Nat) (body : List Byte) (s : State) : State :=
  let s := { s with dict := { s.dict with lastStatus := status, lastBody := body } }
  if status = stOk then s else count 0x58C5 (path + 1) 1 s

/-- The sessions that the request asked to close do so, now that its response is sent (R490, R503).
DEDUCED: log entry 30. -/
def closeAsked (s : State) : State :=
  let l := s.dict.closing
  l.foldl (fun s e => closeSession e.1 e.2 s) { s with dict := { s.dict with closing := [] } }

/-- A channel: HC0 to HC3, then CC0 to CC3. -/
def State.chan (s : State) (c : Nat) : Chan := lget Chan.init s.dict.chans c

/-- The state with a channel replaced. -/
def State.setChan (s : State) (c : Nat) (x : Chan) : State :=
  { s with dict := { s.dict with chans := lset s.dict.chans c x } }

/-- The completion interrupt of a channel (R495): MSI-X entry 64 of the link that carried CMD, while that link is ATTACHED
(R444), or an IMSIC identity. DEDUCED: log entry 34. -/
def chanIrq (core : Bool) (link irq : Nat) (s : State) : State :=
  if !bit irq 63 then s
  else if core then
    if bits irq 62 56 < 72 ∧ bits irq 55 54 ≠ 3 ∧ bits irq 50 43 ≠ 0 ∧ hartOn s (bits irq 62 56) then
      sendImsic (bits irq 62 56) (imsicFile (bits irq 55 54) (bits irq 53 51)) (bits irq 50 43) s
    else s
  else if msixReady s link then sendMsix link 64 s
  else s

/-- The response goes into BODY and RESP, and the completion interrupt is sent. -/
def answerChan (core : Bool) (chan link trans : Nat) (a : Answer) : State :=
  let c := if core then chan + 4 else chan
  let s := noteAnswer (if core then 2 else 1) a.1.1 a.1.2 a.2
  let x := s.chan c
  let s := s.setChan c { x with state := 2, status := a.1.1, trans := trans % 65536, len := a.1.2.length,
                                body := putMem x.body 0 a.1.2 }
  closeAsked (chanIrq core link x.irq s)

/-- A channel request: discarded while the channel is BUSY (R495). -/
def serveChan (core : Bool) (chan link trans : Nat) (run : State → Answer) (s : State) : State :=
  if !s.pwr.opened then s
  else if (s.chan (if core then chan + 4 else chan)).state = 1 then count 0x58C6 (b2n core + 1) 1 s
  else answerChan core chan link trans (run s)

/-! ### Camip (R486 to R492) -/

/-- The session number of an unsecured frame in the record of frames sent. -/
def unsecured : Nat := 16

/-- A port takes frames: the dictionary is open, the field network has power, the port is enabled, and its node ID is not 0 (R485, R487, R503,
R580). -/
def camipUp (s : State) (p : Nat) : Bool := s.pwr.opened && s.on domNet && s.num 0x1110 (p + 1) == 1 && s.num 0x1111 (p + 1) != 0

/-- The header of a secured request as it was received, the additional data of its tag (R489). -/
def headIn (s : State) (f : CamipFrame) (svc slot seq n : Nat) : List Byte :=
  let h := f.head
  camipHeader h.ver svc (h.flags % 64 + 64 + 128 * (h.flags / 128)) h.reserved (s.sess slot).id seq f.trans (h.len.getD n) h.status

/-- A secured frame whose tag fails: dropped, counted and reported once (R489). -/
def authFail (p slot : Nat) (s : State) : State :=
  let x := s.sess slot
  let s := count 0x58C2 (p + 1) 1 (s.setSess slot { x with failPosted := true })
  if x.failPosted then s else post 0x1003 (src 0 0) 0x1F [(1, p), (1, slot)] s

/-- The response to a request of a session: kept for repeats, and sent (R491). -/
def answerSession (slot svc trans : Nat) (a : Answer) : State :=
  let s := noteAnswer 0 a.1.1 a.1.2 a.2
  let x := s.sess slot
  let s := s.setSess slot { x with cache := ((trans, svc, a.1.1, a.1.2) :: x.cache).take 16 }
  closeAsked (if sessOpen s slot then sessionSend slot false svc trans a.1.1 a.1.2 s else s)

/-- A secured request that passes its checks: answered from the cache when its TRANS_ID is kept, otherwise run (R489, R491). -/
def sessionRequest (p slot seq svc trans : Nat) (run : State → Answer) (s : State) : State :=
  let x := s.sess slot
  match x.cache.find? (fun e => e.1 == trans) with
  | some e =>
    sessionSend slot false e.2.1 trans e.2.2.1 e.2.2.2 (count 0x58C4 (p + 1) 1 (s.setSess slot { x with rxSeq := some seq }))
  | none => answerSession slot svc trans (run (s.setSess slot { x with rxSeq := some seq }))

/-- A frame for the port: its EtherType, no VLAN tag, and its address, which for IDENT may be the broadcast address (R486).
DESIGN CHOICE: log entry 32. -/
def camipMine (s : State) (h : CamipHead) (svc : Nat) : Bool :=
  h.etherType == s.num 0x1114 1 && !h.vlan && (h.dest == .port || (h.dest == .broadcast && svc == 0x11))

/-- The header of a request can be read: it is of version 1, and no response (R486). DESIGN CHOICE: log entry 32. -/
def headReads (h : CamipHead) : Bool := h.ver / 16 == 1 && !bit h.flags 7

/-- A request of n body bytes keeps to the table of R486. DESIGN CHOICE: log entry 32. -/
def headClear (f : CamipFrame) (n : Nat) : Bool :=
  let h := f.head
  h.ver % 16 == 0 && bits h.flags 5 0 == 0 && h.reserved == 0 && h.status == 0 && (h.len.getD n) == n
    && (if f.secured = none then h.stray == 0 && decide (n ≤ 1476) else decide (n ≤ 1460))

/-- The response to a frame with SECURED 0, which goes to its source address (R486). -/
def answerPlain (p : Nat) (peer : List Byte) (svc trans : Nat) (a : Answer) : State :=
  let frame := etherFrame a.2 p peer (camipHeader 0x10 svc 0x80 0 0 0 trans a.1.2.length a.1.1 ++ a.1.2)
  closeAsked (camipSend p (.camip p false frame) (noteAnswer 0 a.1.1 a.1.2 a.2))

/-- The services that are accepted in a frame with SECURED 0: SPDM and IDENT (R487). -/
def freeService (svc : Nat) : Bool := svc == 0x10 || svc == 0x11

/-- A Camip request (R486, R487, R489, R492); one that breaks R486 is answered with MALFORMED. DESIGN CHOICE: log entry 32. -/
def serveCamip (p : Nat) (f : CamipFrame) (svc : Nat) (body : List Byte) (run : State → Answer) (s : State) : State :=
  let trans := f.trans % 65536
  if !camipUp s p || !camipMine s f.head svc then s
  else
    let s := count 0x58C0 (p + 1) 1 s
    let run := if headClear f body.length then run else badRequest []
    if !headReads f.head then s
    else match f.secured with
    | none => answerPlain p f.peer svc trans (if freeService svc || !headClear f body.length then run s else ((stNotAuthorised, []), s))
    | some (slot, seq) =>
      if !sessOpen s slot || s.num 0x1121 (slot + 1) != p then s
      else if 4 ≤ f.head.waiting then count 0x58C3 (p + 1) 1 s
      else if max64 < seq then closeSession slot 4 s
      else if !Config.tagOk slot (s.sess slot).key seq (headIn s f svc slot seq body.length ++ body) f.tag then authFail p slot s
      else
        let x := s.sess slot
        let s := s.setSess slot { x with failPosted := false }
        if x.rxSeq.any (seq ≤ ·) then s else sessionRequest p slot seq svc trans run s

/-- The link that carries a host channel's CMD where the command names none. DESIGN CHOICE: log entry 33. -/
def mailLink (s : State) : Nat := if linkState s 0 = 0 then 1 else 0

/-- A request by its path: SERVICE, body, and what the service does on the path numbered as in R498. A host channel serves once a
link has trained (R500). DESIGN CHOICE: log entry 32. -/
def servePath (rq : Request) (svc : Nat) (body : List Byte) (run : Nat → State → Answer) (s : State) : State :=
  match rq.src with
  | .camip p peer sec tag => serveCamip p { peer := peer, secured := sec, tag := tag, trans := rq.trans, head := rq.head } svc body (run 0) s
  | .host c => if linkState s (mailLink s) = 0 then s else serveChan false c (mailLink s) rq.trans (run 1) s
  | .core c => serveChan true c 0 rq.trans (run 2) s

/-- The body of an IDENT response (R481). -/
def identBody (s : State) (p : Nat) : List Byte :=
  s.oct 0x1000 3 ++ leBytes 1 (s.num 0x1000 2) ++ leBytes 1 (s.num 0x1111 (p + 1)) ++ leBytes 2 p ++ s.oct 0x1115 (p + 1)

/-- A SERVICE and body as they were sent: IDENT is a service of Camip alone (R481). DESIGN CHOICE: log entry 32. -/
def runRaw (rq : Request) (path svc : Nat) (l : List Byte) : State → Answer :=
  match rq.src with
  | .camip p _ _ _ => if svc = 0x11 ∧ l = [] then pureAnswer (fun s => (stOk, identBody s p)) else runService path svc l
  | .host _ => runService path svc l
  | .core _ => runService path svc l

/-- A request by its path; one whose SERVICE or body is not the command's is run as it was sent (R484).
DESIGN CHOICE: log entry 32. -/
def serve (rq : Request) (svc : Nat) (body : List Byte) (run : Nat → State → Answer) (s : State) : State :=
  match rq.raw with
  | none => servePath rq svc body run s
  | some (c, l) => servePath rq c l (fun path => runRaw rq path c l) s

/-! ### The services as commands -/

/-- READ (R481). -/
def execRead (rq : Request) (index sub : Nat) (s : State) : Host.Outcome State Fault Refusal :=
  forUnit (Instr.wf (.read rq index sub)) (serve rq 1 (readReq index sub) (fun _ => pureAnswer (svcRead index sub)) s)

/-- A WRITE of one object. -/
def serveWrite (rq : Request) (i j type : Nat) (l : List Byte) (s : State) : State :=
  serve rq 2 (writeReq i j type l) (fun path s => bare (writeObj path i j type l s)) s

/-- WRITE (R477, R481). -/
def execWrite (rq : Request) (index sub type : Nat) (value : List Byte) (s : State) : Host.Outcome State Fault Refusal :=
  forUnit (Instr.wf (.write rq index sub type value)) (serveWrite rq index sub type value s)

/-- READ_MULTI (R481, R482). -/
def execReadMulti (rq : Request) (items : List (Nat × Nat)) (s : State) : Host.Outcome State Fault Refusal :=
  forUnit (Instr.wf (.readMulti rq items)) (serve rq 3 (readMultiReq items) (fun _ => pureAnswer (svcReadMulti items)) s)

/-- WRITE_MULTI (R482). -/
def execWriteMulti (rq : Request) (items : List WriteItem) (s : State) : Host.Outcome State Fault Refusal :=
  forUnit (Instr.wf (.writeMulti rq items)) (serve rq 4 (writeMultiReq items) (fun path => svcWriteMulti path items) s)

/-- DESCRIBE (R483). -/
def execDescribe (rq : Request) (index sub : Nat) (s : State) : Host.Outcome State Fault Refusal :=
  forUnit (Instr.wf (.describe rq index sub)) (serve rq 5 (readReq index sub) (fun _ => pureAnswer (svcDescribe index sub)) s)

/-- DOM_READ (R481). -/
def execDomRead (rq : Request) (index sub offset length : Nat) (s : State) : Host.Outcome State Fault Refusal :=
  forUnit (Instr.wf (.domRead rq index sub offset length))
    (serve rq 6 (domReq index sub offset length) (fun _ => pureAnswer (svcDomRead index sub offset length)) s)

/-- DOM_WRITE (R481). -/
def execDomWrite (rq : Request) (index sub offset : Nat) (bytes : List Byte) (s : State) : Host.Outcome State Fault Refusal :=
  forUnit (Instr.wf (.domWrite rq index sub offset bytes))
    (serve rq 7 (domReq index sub offset bytes.length ++ bytes) (fun path s => bare (svcDomWrite path index sub offset bytes s)) s)

/-- A CMD write (R495): with GO 0, or while the channel is BUSY, discarded and counted. -/
def mailbox (core : Bool) (chan link word : Nat) (s : State) : State :=
  if !s.pwr.opened ∨ (!core && linkState s link == 0) then s
  else if !bit word 0 then count 0x58C6 (b2n core + 1) 1 s
  else
    let n := bits word 31 16
    let l := (List.range n).map fun k => tget 0 k (s.chan (if core then chan + 4 else chan)).body
    let run : State → Answer := fun s =>
      if 16320 < n ∨ bits word 55 48 ≠ 0 ∨ bits word 15 1 ≠ 0 then badRequest [] s
      else runService (if core then 2 else 1) (bits word 63 56) l s
    serveChan core chan link (bits word 47 32) run s

/-- MAILBOX_CMD (R495). -/
def execMailboxCmd (core : Bool) (chan link word : Nat) (s : State) : Host.Outcome State Fault Refusal :=
  forUnit (Instr.wf (.mailboxCmd core chan link word)) (mailbox core chan link word s)

/-! ### SPDM and IDENT (R488, R523 to R525) -/

/-- HEARTBEAT, a session message (R523). -/
def heartbeatCode : Nat := 0xE8

/-- The lowest free session slot (R488). -/
def freeSession (s : State) : Option Nat := (List.range 16).find? fun k => s.num 0x1120 (k + 1) == 0

/-- KEY_EXCHANGE: the session takes the slot, with a session ID, new keys and the requester roots of this moment (R488, R525). -/
def openHandshake (p slot : Nat) (peer : List Byte) (s : State) : State :=
  let roots := ((upTo 1 4).map fun j => s.oct 0x5406 j).filter fun h => !h.all (· == 0)
  let r := s.draw
  let s := r.2.setSess slot { Sess.init with id := r.1 % 2 ^ 32, key := r.2.free, roots := roots }
  let s := { s with free := s.free + 1 }
  ((s.setNum 0x1120 (slot + 1) 1).setNum 0x1121 (slot + 1) p).setOct 0x1122 (slot + 1) (sliceOf peer 0 6)

/-- FINISH completes: the session is OPEN, and ring deliveries are tried again (R469, R505). -/
def openSession (p slot : Nat) (s : State) : State :=
  let peer := leNat (s.oct 0x1122 (slot + 1))
  deliverAll (post 0x1001 (src 0 0) 0x1F [(1, p), (1, slot), (6, peer)] (s.setNum 0x1120 (slot + 1) 2))

/-- A session slot of a port in a given state. -/
def sessionAt (s : State) (p slot state : Nat) : Bool := s.num 0x1120 (slot + 1) == state && s.num 0x1121 (slot + 1) == p

/-- An SPDM message of a session that is OPEN on the port, in a secured frame of that session, or an ERROR message: UnsupportedRequest
over DOE, SessionRequired in an unsecured frame, UnexpectedRequest for another session. PRESUMED: log entry 16.
DEDUCED: log entry 30. -/
def inSession (p slot code : Nat) (sec : Option (Nat × Nat)) (act : State → Answer) (s : State) : Answer :=
  if 2 ≤ p then spdmError 0x07 code s
  else match sec with
    | none => spdmError 0x0B code s
    | some (k, _) => if k = slot ∧ sessionAt s p slot 2 then act s else spdmError 0x04 0 s

/-- What an SPDM message does, on a Camip port or over DOE, where the session messages are not supported: `sec` is the session of
the frame that carries it. PRESUMED: log entry 16. DEDUCED: log entries 30, 34. -/
def spdmTake (p : Nat) (sec : Option (Nat × Nat)) (m : SpdmMsg) (s : State) : Answer :=
  match m with
  | .attest code body =>
    if code = heartbeatCode then inSession p ((sec.map (·.1)).getD 16) code sec (spdmReply (spdmHead 0x68 0 0)) s
    else attestReply p code body s
  | .measurement b => measurements b s
  | .keyExchange peer =>
    if 2 ≤ p then spdmError 0x07 0xE4 s
    else match freeSession s with
      | some slot => keyExchangeReply slot (openHandshake p slot peer s)
      | none => spdmError 0x0A 0 s
  | .finish slot root ok =>
    if 2 ≤ p then spdmError 0x07 0xE5 s
    else if !sessionAt s p slot 1 then spdmError 0x04 0 s
    else if ok ∧ (s.sess slot).roots.contains root then finishReply (openSession p slot s)
    else spdmError 0x06 0 (closeSession slot 0 s)
  | .keyUpdate slot =>
    inSession p slot 0xE9 sec (fun s =>
      let s := s.setSess slot { s.sess slot with key := s.free }
      updateReply { s with free := s.free + 1 }) s
  | .endSession slot =>
    inSession p slot 0xEC sec (fun s =>
      spdmReply (spdmHead 0x6C 0 0) { s with dict := { s.dict with closing := s.dict.closing ++ [(slot, 0)] } }) s

/-- A FINISH for a session that is in its handshake on the other port, which is dropped (R488). -/
def wrongPort (s : State) (p : Nat) : SpdmMsg → Bool
  | .finish slot _ _ => s.num 0x1120 (slot + 1) == 1 && s.num 0x1121 (slot + 1) != p
  | .attest _ _ => false
  | .measurement _ => false
  | .keyExchange _ => false
  | .keyUpdate _ => false
  | .endSession _ => false

/-- What an SPDM frame does: its message, or the part of one that a CHUNK_SEND carries (R488). PRESUMED: log entry 16. -/
def spdmServe (p : Nat) (sec : Option (Nat × Nat)) (m : SpdmFrame) (s : State) : Answer :=
  match m.chunk with
  | none => fitted p dataTransfer (spdmTake p sec m.msg s)
  | some (handle, seq, last) => chunkSend p handle seq last (fun s => fitted p (dataTransfer - 6) (spdmTake p sec m.msg s)) s

/-- An SPDM message arrives: on Camip from the opening of the dictionary, over DOE from ready (R487, R523).
DEDUCED: log entry 34. DESIGN CHOICE: log entry 32. -/
def spdmArrives (p : Nat) (m : SpdmFrame) (s : State) : State :=
  if p < 2 then
    if !wrongPort s p m.msg then serveCamip p m.frame 0x10 m.bytes (spdmServe p m.frame.secured m) s
    else if camipUp s p && camipMine s m.frame.head 0x10 then count 0x58C0 (p + 1) 1 s
    else s
  else if packageReady s && linkExists s (p - 2) && linkState s (p - 2) != 0 then
    let a := spdmServe p none m s
    a.2.emit (.pcieCpl (p - 2) 0 a.1.2)
  else s

/-- SPDM (R488, R523). -/
def execSpdm (port : Nat) (msg : SpdmFrame) (s : State) : Host.Outcome State Fault Refusal :=
  forUnit (Instr.wf (.spdm port msg)) (spdmArrives port msg s)

/-- IDENT (R481). -/
def execIdent (port : Nat) (frame : CamipFrame) (s : State) : Host.Outcome State Fault Refusal :=
  forUnit (Instr.wf (.ident port frame)) (serveCamip port frame 0x11 [] (pureAnswer fun s => (stOk, identBody s port)) s)

/-! ### Sessions and PLCA -/

/-- CAMIP_SESSION_IDLE_TIMEOUT (R490). DEDUCED: log entry 30. -/
def execCamipSessionIdleTimeout (slot : Nat) (s : State) : Host.Outcome State Fault Refusal :=
  forUnit (Instr.wf (.camipSessionIdleTimeout slot)) (if timeRuns s then closeSession slot 1 s else s)

/-- PLCA_BEACON_LOST (R485). -/
def execPlcaBeaconLost (port : Nat) (s : State) : Host.Outcome State Fault Refusal :=
  forUnit (Instr.wf (.plcaBeaconLost port)) (plcaLost port s)

/-- A frame that is a response, which goes ahead of NOTIFY frames (R492). -/
def isResponse : Out → Bool
  | .camip _ notice _ => !notice
  | .linkUnit _ _ _ _ _ => false
  | .imsic _ _ _ => false
  | .msix _ _ => false
  | .pcieRead _ _ => false
  | .pcieWrite _ _ _ _ => false
  | .pcieCpl _ _ _ => false
  | .lowPowerOff _ => false

/-- PLCA status of a port becomes TRUE: what its queue holds is sent (R485, R492). DEDUCED: log entry 31. -/
def plcaHeard (p : Nat) (s : State) : State :=
  if s.pwr.opened && s.on domNet then
    let mine := (s.dict.txq.filter (·.1 == p)).map (·.2)
    let rest := s.dict.txq.filter (·.1 != p)
    let s := refreshCamip p { s with dict := { s.dict with plca := lset s.dict.plca p true, txq := rest } }
    (mine.filter isResponse ++ mine.filter (fun o => !isResponse o)).foldl (fun s o => camipSend p o s) s
  else s

/-- PLCA_STATUS_TRUE (R485). DEDUCED: log entry 31. -/
def execPlcaStatusTrue (port : Nat) (s : State) : Host.Outcome State Fault Refusal :=
  forUnit (Instr.wf (.plcaStatusTrue port)) (plcaHeard port s)

end Sys2Proof.Machine
end

