-- ==== Sys2Proof/Machine/ObjectRows.lean ====
section
/-!
DEFINITION. Machine/ObjectRows.lean: the commands that are a write of one object with a behaviour of its own. Each is a WRITE of
that object by the path that the command names (R477, R481); what the write does stands in Machine/ObjectWrites.lean.
-/

namespace Sys2Proof.Machine

/-- A WRITE of an object with the type that the object has. -/
def serveObj (rq : Request) (i j : Nat) (l : List Byte) (s : State) : State :=
  match rowOf i j with
  | some r => serveWrite rq i j r.type l s
  | none => s

/-- SEC_READY (R508). -/
def execSecReady (rq : Request) (value : List Byte) (s : State) : Host.Outcome State Fault Refusal :=
  forUnit (Instr.wf (.secReady rq value)) (serveObj rq 0x5401 1 value s)

/-- CAMIP_SESSION_CLOSE (R490). -/
def execCamipSessionClose (rq : Request) (slot : Nat) (value : List Byte) (s : State) :
    Host.Outcome State Fault Refusal :=
  forUnit (Instr.wf (.camipSessionClose rq slot value)) (serveObj rq 0x1123 (slot + 1) value s)

/-- CAMIP_ENABLE (R503). -/
def execCamipEnable (rq : Request) (port : Nat) (value : List Byte) (s : State) : Host.Outcome State Fault Refusal :=
  forUnit (Instr.wf (.camipEnable rq port value)) (serveObj rq 0x1110 (port + 1) value s)

/-- CAMIP_NODE_ID (R490). -/
def execCamipNodeId (rq : Request) (port : Nat) (value : List Byte) (s : State) : Host.Outcome State Fault Refusal :=
  forUnit (Instr.wf (.camipNodeId rq port value)) (serveObj rq 0x1111 (port + 1) value s)

/-- DICT_REPLAY_DONE (R500). -/
def execDictReplayDone (rq : Request) (value : List Byte) (s : State) : Host.Outcome State Fault Refusal :=
  forUnit (Instr.wf (.dictReplayDone rq value)) (serveObj rq 0x1101 1 value s)

/-- DICT_HOLD_MS (R500). -/
def execDictHoldMs (rq : Request) (value : List Byte) (s : State) : Host.Outcome State Fault Refusal :=
  forUnit (Instr.wf (.dictHoldMs rq value)) (serveObj rq 0x1101 2 value s)

/-- DICT_PATH_WRITE (R498). -/
def execDictPathWrite (rq : Request) (value : List Byte) (s : State) : Host.Outcome State Fault Refusal :=
  forUnit (Instr.wf (.dictPathWrite rq value)) (serveObj rq 0x1102 1 value s)

/-- MEM_INIT_START (R507). -/
def execMemInitStart (rq : Request) (value : List Byte) (s : State) : Host.Outcome State Fault Refusal :=
  forUnit (Instr.wf (.memInitStart rq value)) (serveObj rq 0x2404 1 value s)

/-- SEC_KEY_REVOKE (R521). -/
def execSecKeyRevoke (rq : Request) (value : List Byte) (s : State) : Host.Outcome State Fault Refusal :=
  forUnit (Instr.wf (.secKeyRevoke rq value)) (serveObj rq 0x5403 2 value s)

/-- SEC_SVN_COMMIT (R521). -/
def execSecSvnCommit (rq : Request) (value : List Byte) (s : State) : Host.Outcome State Fault Refusal :=
  forUnit (Instr.wf (.secSvnCommit rq value)) (serveObj rq 0x5404 3 value s)

/-- SRV_TIME_RESELECT (R416). -/
def execSrvTimeReselect (rq : Request) (value : List Byte) (s : State) : Host.Outcome State Fault Refusal :=
  forUnit (Instr.wf (.srvTimeReselect rq value)) (serveObj rq 0x6003 3 value s)

/-- TNS_DIE_ENABLE (R123). -/
def execTnsDieEnable (rq : Request) (value : List Byte) (s : State) : Host.Outcome State Fault Refusal :=
  forUnit (Instr.wf (.tnsDieEnable rq value)) (serveObj rq 0x3C00 2 value s)

/-- TNS_QUAD_ENABLE (R123). -/
def execTnsQuadEnable (rq : Request) (die : Nat) (value : List Byte) (s : State) : Host.Outcome State Fault Refusal :=
  forUnit (Instr.wf (.tnsQuadEnable rq die value)) (serveObj rq 0x3C01 (die + 1) value s)

/-- TNS_CANOPY_ENABLE (R123). -/
def execTnsCanopyEnable (rq : Request) (die : Nat) (value : List Byte) (s : State) : Host.Outcome State Fault Refusal :=
  forUnit (Instr.wf (.tnsCanopyEnable rq die value)) (serveObj rq 0x3C06 (die + 1) value s)

/-- SRV_CLUSTER_ENABLE (R423). -/
def execSrvClusterEnable (rq : Request) (hd : Nat) (value : List Byte) (s : State) : Host.Outcome State Fault Refusal :=
  forUnit (Instr.wf (.srvClusterEnable rq hd value)) (serveObj rq 0x6001 (hd + 1) value s)

/-- PWR_MEMGRP_ENABLE (R554). -/
def execPwrMemgrpEnable (rq : Request) (value : List Byte) (s : State) : Host.Outcome State Fault Refusal :=
  forUnit (Instr.wf (.pwrMemgrpEnable rq value)) (serveObj rq 0x2006 1 value s)

/-- PWR_LD_ENABLE (R554). -/
def execPwrLdEnable (rq : Request) (value : List Byte) (s : State) : Host.Outcome State Fault Refusal :=
  forUnit (Instr.wf (.pwrLdEnable rq value)) (serveObj rq 0x2006 2 value s)

/-- PWR_INPUT_W_PEAK (R554). -/
def execPwrInputWPeak (rq : Request) (value : List Byte) (s : State) : Host.Outcome State Fault Refusal :=
  forUnit (Instr.wf (.pwrInputWPeak rq value)) (serveObj rq 0x2000 4 value s)

/-- PWR_RAIL_TARGET_MV (R539). -/
def execPwrRailTargetMv (rq : Request) (die : Nat) (value : List Byte) (s : State) : Host.Outcome State Fault Refusal :=
  forUnit (Instr.wf (.pwrRailTargetMv rq die value)) (serveObj rq 0x2002 (die + 1) value s)

/-- TNS_SELFTEST_START (R124). -/
def execTnsSelftestStart (rq : Request) (value : List Byte) (s : State) : Host.Outcome State Fault Refusal :=
  forUnit (Instr.wf (.tnsSelftestStart rq value)) (serveObj rq 0x3C08 1 value s)

/-- TNS_DQ_CTRL (R156). -/
def execTnsDqCtrlEnable (rq : Request) (die queue : Nat) (value : List Byte) (s : State) :
    Host.Outcome State Fault Refusal :=
  forUnit (Instr.wf (.tnsDqCtrlEnable rq die queue value)) (serveObj rq (0x3C28 + die) (queue + 1) value s)

/-- TNS_DQ_RESET (R156). -/
def execTnsDqReset (rq : Request) (value : List Byte) (s : State) : Host.Outcome State Fault Refusal :=
  forUnit (Instr.wf (.tnsDqReset rq value)) (serveObj rq 0x3C38 1 value s)

/-- TNS_SLOT_BIND with BOUND 1 (R152). -/
def execTnsSlotBindBound (rq : Request) (slot : Nat) (value : List Byte) (s : State) :
    Host.Outcome State Fault Refusal :=
  forUnit (Instr.wf (.tnsSlotBindBound rq slot value)) (serveObj rq 0x3C40 (slot + 1) value s)

/-- TNS_SLOT_BIND with BOUND 0 (R152). -/
def execTnsSlotBindRelease (rq : Request) (slot : Nat) (value : List Byte) (s : State) :
    Host.Outcome State Fault Refusal :=
  forUnit (Instr.wf (.tnsSlotBindRelease rq slot value)) (serveObj rq 0x3C40 (slot + 1) value s)

/-- TNS_STASH_POOL_PEAK (R192). -/
def execTnsStashPoolPeak (rq : Request) (die job : Nat) (value : List Byte) (s : State) :
    Host.Outcome State Fault Refusal :=
  forUnit (Instr.wf (.tnsStashPoolPeak rq die job value)) (serveObj rq (0x3C60 + die) (job + 1) value s)

/-- COH_HOME_ENABLE with a bit set (R250). -/
def execCohHomeEnableSet (rq : Request) (value : List Byte) (s : State) : Host.Outcome State Fault Refusal :=
  forUnit (Instr.wf (.cohHomeEnableSet rq value)) (serveObj rq 0x2801 1 value s)

/-- COH_HOME_ENABLE with a bit cleared (R251). -/
def execCohHomeEnableClear (rq : Request) (value : List Byte) (s : State) : Host.Outcome State Fault Refusal :=
  forUnit (Instr.wf (.cohHomeEnableClear rq value)) (serveObj rq 0x2801 1 value s)

/-- FAB_PORT_ENABLE (R295). -/
def execFabPortEnable (rq : Request) (value : List Byte) (s : State) : Host.Outcome State Fault Refusal :=
  forUnit (Instr.wf (.fabPortEnable rq value)) (serveObj rq 0x3000 1 value s)

/-- FAB_PORT_EXPECT, or FAB_PORT_EXPECT_PORT (R292). -/
def execFabPortExpect (rq : Request) (port : Nat) (portNumber : Bool) (value : List Byte) (s : State) :
    Host.Outcome State Fault Refusal :=
  forUnit (Instr.wf (.fabPortExpect rq port portNumber value)) (serveObj rq (if portNumber then 0x3004 else 0x3003) (port + 1) value s)

/-- JOB_CTRL START (R373). -/
def execJobCtrlStart (rq : Request) (job : Nat) (s : State) : Host.Outcome State Fault Refusal :=
  forUnit (Instr.wf (.jobCtrlStart rq job)) (serveObj rq (jobIx job 0) 2 [1] s)

/-- JOB_CTRL STOP (R369). -/
def execJobCtrlStop (rq : Request) (job : Nat) (s : State) : Host.Outcome State Fault Refusal :=
  forUnit (Instr.wf (.jobCtrlStop rq job)) (serveObj rq (jobIx job 0) 2 [2] s)

/-- JOB_CTRL SPARE (R373). -/
def execJobCtrlSpare (rq : Request) (job : Nat) (s : State) : Host.Outcome State Fault Refusal :=
  forUnit (Instr.wf (.jobCtrlSpare rq job)) (serveObj rq (jobIx job 0) 2 [3] s)

/-- JOB_KICK (R378). -/
def execJobKick (rq : Request) (job : Nat) (value : List Byte) (s : State) : Host.Outcome State Fault Refusal :=
  forUnit (Instr.wf (.jobKick rq job value)) (serveObj rq (jobIx job 3) 4 value s)

/-- JOB_SWITCH (R387). -/
def execJobSwitch (rq : Request) (job : Nat) (value : List Byte) (s : State) : Host.Outcome State Fault Refusal :=
  forUnit (Instr.wf (.jobSwitch rq job value)) (serveObj rq (jobIx job 4) 1 value s)

/-- EVT_RING_ENABLE (R473). -/
def execEvtRingEnable (rq : Request) (ring : Nat) (value : List Byte) (s : State) : Host.Outcome State Fault Refusal :=
  forUnit (Instr.wf (.evtRingEnable rq ring value)) (serveObj rq 0x5001 (ring + 1) value s)

/-- EVT_GLOBAL_ENABLE (R468). -/
def execEvtGlobalEnable (rq : Request) (value : List Byte) (s : State) : Host.Outcome State Fault Refusal :=
  forUnit (Instr.wf (.evtGlobalEnable rq value)) (serveObj rq 0x5000 1 value s)

/-- EVT_RING_TARGET (R469). -/
def execEvtRingTarget (rq : Request) (ring : Nat) (value : List Byte) (s : State) : Host.Outcome State Fault Refusal :=
  forUnit (Instr.wf (.evtRingTarget rq ring value)) (serveObj rq 0x5005 (ring + 1) value s)

end Sys2Proof.Machine
end

