-- ==== Sys2Proof/Machine/Registers.lean ====
section
/-!
DEFINITION. Machine/Registers.lean: a store to the control window or to BAR0 by its address, and a host's read of BAR0: which doorbell,
register or channel it reaches, what it reads, and what is discarded (R135, R194, R289, R304, R346, R414, R415, R419, R430, R431, R450, R462, R473, R494, R509).
-/

namespace Sys2Proof.Machine

/-! ### Doorbell pages -/

/-- Doorbell page of TDn: an aligned 32-bit write at 8 q; anything else is discarded (R135). -/
def tdPage (n off width v : Nat) (s : State) : State :=
  if width = 4 ∧ off % 8 = 0 ∧ off / 8 < 32 then ringDq n (off / 8) v s else s

/-- Link-die doorbell page: send rings, collectives and landing queues of the jobs (R289, R304, R346). -/
def ldPage (off width v : Nat) (s : State) : State :=
  if width ≠ 4 ∨ off % 8 ≠ 0 then s
  else if off < 0x80 then ringSend (off / 8) v s
  else if 0x100 ≤ off ∧ off < 0x180 then ringCol ((off - 0x100) / 8) v s
  else if 0x200 ≤ off ∧ off < 0x280 then ringLu ((off - 0x200) / 8) v s
  else s

/-! ### Server cores -/

/-- A store into a 64-bit word that takes it at any width. DEDUCED: log entry 38. -/
def mergeWord (old off width v : Nat) : Nat :=
  if width = 8 then v % 2 ^ 64
  else if width < 4 then leNat (spliceOf (leBytes 8 old) (off % 8) (leBytes width v))
  else if off % 8 = 0 then old / 2 ^ 32 * 2 ^ 32 + v % 2 ^ 32
  else old % 2 ^ 32 + v % 2 ^ 32 * 2 ^ 32

/-- The bytes of a 32-bit word in the other order. -/
def swap32 (v : Nat) : Nat := beNat (leBytes 4 v)

/-- A page of an IMSIC file: seteipnum_le at 0 and seteipnum_be at 4 make an identity pending. PRESUMED: the RISC-V AIA, which R414
names (log entry 23). The files lie in the uncore of the hart's die (R407). -/
def imsicPage (h file off width v : Nat) (s : State) : State :=
  let id := if off = 0 then v % 2 ^ 32 else swap32 v
  if width = 4 ∧ off < 8 ∧ 1 ≤ id ∧ id ≤ 255 ∧ s.on (domHdUncore (h / 36)) then sendImsic h file id s else s

/-- A store to mtimecmp, of 32 or 64 bits: a value above the counter ends the timer interrupt (R415). DEDUCED: log entry 38. -/
def putTimecmp (h off width v : Nat) (s : State) : State :=
  if width < 4 then s else
  let x := s.hart h
  let c := mergeWord x.mtimecmp off width v
  s.setHart h { x with mtimecmp := c, timerM := x.timerM && decide (c ≤ s.tim.now) }

/-- A store to HART_START_PC (R419). DEDUCED: log entry 38. -/
def putStartPc (h width v : Nat) (s : State) : State :=
  if width = 8 ∧ s.hartState h = 1 ∧ hartOn s h then startHart h (v % 2 ^ 64) (s.hart h).arg s else s

/-- A store to the post slot of a hart (R462). DEDUCED: log entry 37. -/
def putPost (h off width v : Nat) (s : State) : State :=
  let a := postSlot h + off / 8 * 8
  if off = 8 then (if width = 8 then postFromHart h v s else s)
  else if 16 ≤ off then { s with ctl := tset 0 a (mergeWord (ctlWord s a) off width v) s.ctl }
  else s

/-- A store to the control-window words of a ring (R473). -/
def putRing (k off width v : Nat) (s : State) : State :=
  if off = 0 ∧ width = 4 then (applyCons k (v % 2 ^ 32) s).2 else if off = 8 then ringDone k s else s

/-! ### Channels (R494) -/

/-- A store to a channel: its registers take only 64-bit writes, and its body any. The reserved bits of IRQ read 0 (R8). -/
def chanPage (core : Bool) (chan link off width v : Nat) (s : State) : State :=
  let c := if core then chan + 4 else chan
  let x := s.chan c
  if 0x40 ≤ off then s.setChan c { x with body := putMem x.body (off - 0x40) (leBytes width v) }
  else if width ≠ 8 then s
  else if off = 0 then mailbox core chan link v s
  else if off = 0x10 then s.setChan c { x with irq := if core then bits v 63 43 * 2 ^ 43 else bits v 63 63 * 2 ^ 63 }
  else s

/-! ### The control window (R194, R414) -/

/-- An offset of the control window at which a register or a page of registers stands; every other is a hole (R194, R414).
DEDUCED: log entry 38. -/
def ctrlAssigned (o : Nat) : Bool :=
  decide (o < 0x8000) || within 0x10000 0x10FFF o || within 0x100000 0x147FFF o || within 0x200000 0x43FFFF o
    || within 0x500000 0x50023F o || within 0x507FF8 0x507FFF o || within 0x510000 0x51047F o || within 0x600000 0x6008FF o
    || within 0x610000 0x6103FF o || within 0x700000 0x70FFFF o

/-- An aligned store at an offset of the control window. DEDUCED: log entry 38. -/
def ctrlStore (o width v : Nat) (s : State) : State :=
  if o < 0x8000 then tdPage (o / 0x1000) (o % 0x1000) width v s
  else if 0x10000 ≤ o ∧ o < 0x11000 then ldPage (o % 0x1000) width v s
  else if 0x100000 ≤ o ∧ o < 0x100000 + 72 * 0x1000 then
    imsicPage ((o - 0x100000) / 0x1000) 0 (o % 0x1000) width v s
  else if 0x200000 ≤ o ∧ o < 0x200000 + 72 * 0x8000 then
    imsicPage ((o - 0x200000) / 0x8000) (1 + (o - 0x200000) / 0x1000 % 8) (o % 0x1000) width v s
  else if 0x500000 ≤ o ∧ o < 0x500000 + 8 * 72 then putTimecmp ((o - 0x500000) / 8) (o % 8) width v s
  else if 0x510000 ≤ o ∧ o < 0x510000 + 16 * 72 then
    let h := (o - 0x510000) / 16
    if o % 16 = 0 then putStartPc h width v s
    else if 8 ≤ o % 16 ∧ 4 ≤ width then s.setHart h { s.hart h with arg := mergeWord (s.hart h).arg (o % 8) width v }
    else s
  else if 0x600000 ≤ o ∧ o < 0x600000 + 32 * 72 then putPost ((o - 0x600000) / 32) (o % 32) width v s
  else if 0x610000 ≤ o ∧ o < 0x610000 + 16 * 64 then putRing ((o - 0x610000) / 16) (o % 16) width v s
  else if 0x700000 ≤ o ∧ o < 0x710000 then chanPage true ((o - 0x700000) / 0x4000) 0 (o % 0x4000) width v s
  else s

/-! ### BAR0 (R430, R431, R450, R509) -/

/-- The host-coupling registers of a link (R431). -/
def couplePage (k off width v : Nat) (s : State) : State :=
  if width ≠ 8 then s
  else if off = 0x08 then doAttach k v s
  else if off = 0x10 then doDetach k s
  else if off = 0x18 then biasCmd k v s
  else s

/-- The link on which the delivery registers of a job depend: the one that HST_DLOG_LINK binds, else the one written through.
DEDUCED: log entry 102. -/
def deliveryLink (s : State) (k j : Nat) : Nat := if s.num 0x2C21 (j + 1) < 2 then s.num 0x2C21 (j + 1) else k

/-- The delivery registers of a job (R450); the reserved bits of HRING and of HWRITTEN read 0 (R8). DEDUCED: log entry 102. -/
def deliveryRegs (k j off width v : Nat) (s : State) : State :=
  if width ≠ 8 then s
  else if off = 0x10 then acknowledge j (v % 2 ^ 64) s
  else if linkState s (deliveryLink s k j) ≠ 1 then s
  else if off = 0 then { s with hst := { s.hst with hring := tset 0 j (bits v 63 12 * 2 ^ 12 + bits v 4 0) s.hst.hring } }
  else if off = 8 then { s with hst := { s.hst with hwritten := tset 0 j (v % 2 ^ 64 / 8 * 8) s.hst.hwritten } }
  else s

/-- A mask bit of the MSI-X table changes; an entry that was left pending is sent when its mask is cleared. -/
def setMask (k entry : Nat) (mask : Bool) (s : State) : State :=
  let l := s.hlink k
  if mask then s.setHlink k { l with msixMask := insNat entry l.msixMask }
  else flushMsix k (s.setHlink k { l with msixMask := l.msixMask.filter (· != entry) })

/-- The MSI-X table of a link, which takes 32-bit and 64-bit writes: address and data are kept, and bit 0 of the fourth word masks
the entry. DEDUCED: log entry 38. -/
def msixTable (k off width v : Nat) (s : State) : State :=
  if width < 4 then s else
  let a := msixWord k off
  let s := { s with ctl := tset 0 a (mergeWord (ctlWord s a) off width v) s.ctl }
  if off % 16 < 8 then s
  else if width = 8 then setMask k (off / 16) (bit v 32) s
  else if off % 16 = 12 then setMask k (off / 16) (bit v 0) s
  else s

/-- The areas of BAR0 that the package serves before it is ready: mailbox, MSI-X table and PBA (R509). -/
def barEarly (o : Nat) : Bool :=
  within 0x200000 0x20FFFF o || within 0x300000 0x30040F o || within 0x301000 0x30100F o

/-- The assigned areas of BAR0 (R430). -/
def barAssigned (o : Nat) : Bool :=
  decide (o < 0x8000) || within 0x10000 0x10FFF o || within 0x100000 0x100FFF o || within 0x101000 0x1011FF o || barEarly o

/-- An aligned store at an assigned offset of BAR0; the PBA takes none. -/
def barRegs (k o width v : Nat) (s : State) : State :=
  if o < 0x8000 then tdPage (o / 0x1000) (o % 0x1000) width v s
  else if o < 0x11000 then ldPage (o % 0x1000) width v s
  else if o < 0x101000 then couplePage k (o % 0x1000) width v s
  else if o < 0x101200 then deliveryRegs k ((o - 0x101000) / 32) (o % 32) width v s
  else if o < 0x210000 then chanPage false ((o - 0x200000) / 0x4000) k (o % 0x4000) width v s
  else if o < 0x300410 then msixTable k (o - 0x300000) width v s
  else s

/-- A store at an offset of BAR0: refused stores and those at unassigned offsets are counted (R430, R509).
DEDUCED: log entry 38. -/
def barStore (k o width v : Nat) (s : State) : State :=
  if !barReach s k then s
  else if !barAssigned o || !(packageReady s || barEarly o) then inboundErr k s
  else if o % width ≠ 0 then s
  else barRegs k o width v s

/-- A store of a core to the host window: a posted write of its own bytes alone, with no attribute set, or on a link that is not
ATTACHED a discarded and counted one (R438, R439, R447). DEDUCED: log entry 38. -/
def coreToHost (b width v : Nat) (s : State) : State := postEach true b (leBytes width v) s

/-- A store by a hart at a physical address of the control window or of the host window: PMP may forbid it, and a hole is a bus error
(R195, R412, R414). One to the control window that is not aligned is discarded. One to device memory is no store of this row
(R194). DEDUCED: log entry 38. PRESUMED: log entry 119. -/
def hartStore (h a width v : Nat) (s : State) : State :=
  if !(s.hart h).pmpOk a width true then trapHart h causeStore a s
  else if a < 0x30000000000 ∨ 0x40000000000 ≤ a then match hostOf s a with
    | some b => coreToHost b width v s
    | none => if memOk s (lineOf a) then s else trapHart h causeStore a s
  else if !ctrlAssigned (a - 0x30000000000) then trapHart h causeStore a s
  else if a % width = 0 then ctrlStore (a - 0x30000000000) width v s
  else s

/-- A store by its address: through BAR0 of a link, or by a hart at a physical address. DEDUCED: log entry 38. -/
def regStore (source : StoreBy) (a width v : Nat) (s : State) : State :=
  if !s.pwr.on then s
  else match source with
    | .bar0 k => if a < 0x4000000 then barStore k a width v s else s
    | .hart h => hartStore h a width v s

/-- CONTROL_REGISTER_WRITE (R135, R194, R414, R430, R438). DESIGN CHOICE: log entry 114. -/
def execControlRegisterWrite (source : StoreBy) (addr width value : Nat) (s : State) : Host.Outcome State Fault Refusal :=
  forUnit (Instr.wf (.controlRegisterWrite source addr width value)) (regStore source addr width value s)

/-! ### A host's reads of BAR0 (R428, R430, R431, R450, R494, R509) -/

/-- A 64-bit register as an access reads it: an aligned 64-bit one reads it, any other 0. DEDUCED: log entry 38. -/
def word64 (n v : Nat) : List Byte := if n = 8 then leBytes 8 v else List.replicate n 0

/-- LINK_INFO and BIAS_DONE; the rest of the page reads 0 (R431). -/
def coupleRead (k off n : Nat) (s : State) : List Byte :=
  word64 n (if off = 0 then s.num 0x2C04 (k + 1) * 2 ^ 32 + linkState s k
            else if off = 0x20 then s.num 0x2C0C (k + 1) else 0)

/-- The delivery registers of a job as they read: ACK gives ACKED_SEQ and LAST gives LAST_SEQ (R450). -/
def deliveryRead (j off n : Nat) (s : State) : List Byte × State :=
  if off = 0x18 then
    let r := ctrlField j 0 8 s
    (word64 n r.1, r.2)
  else (word64 n (if off = 0 then tget 0 j s.hst.hring else if off = 8 then tget 0 j s.hst.hwritten
                  else if off = 0x10 then ackedSeq s j else 0), s)

/-- RESP of a channel (R494). -/
def chanResp (x : Chan) : Nat := x.status * 2 ^ 56 + x.trans * 2 ^ 32 + x.len * 2 ^ 16 + x.state

/-- A channel as it reads: CMD is write-only, 0x18 to 0x3F read 0, and the body takes any access (R494). -/
def chanRead (c off n : Nat) (s : State) : List Byte :=
  let x := s.chan c
  if 0x40 ≤ off then (List.range n).map fun i => tget 0 (off - 0x40 + i) x.body
  else word64 n (if off = 8 then chanResp x else if off = 0x10 then x.irq else 0)

/-- A byte of the MSI-X table: what was stored, with the mask bits as they stand. -/
def msixByte (k off : Nat) (s : State) : Byte :=
  if off % 16 = 12 then BitVec.ofNat 8 (bits (ctlWord s (msixWord k off)) 39 33 * 2 + b2n ((s.hlink k).msixMask.contains (off / 16)))
  else (leBytes 8 (ctlWord s (msixWord k off)))[off % 8]?.getD 0

/-- What n bytes at an assigned offset of BAR0 read. Doorbell pages read 0 (R135, R430). DEDUCED: log entry 38. -/
def barLoad (k o n : Nat) (s : State) : List Byte × State :=
  if o < 0x100000 then (List.replicate n 0, s)
  else if o < 0x101000 then (coupleRead k (o % 0x1000) n s, s)
  else if o < 0x101200 then deliveryRead ((o - 0x101000) / 32) (o % 32) n s
  else if o < 0x210000 then (chanRead ((o - 0x200000) / 0x4000) (o % 0x4000) n s, s)
  else if o < 0x300410 then ((List.range n).map fun i => msixByte k (o - 0x300000 + i) s, s)
  else ((List.range n).map fun i => BitVec.ofNat 8 (maskOf (s.hlink k).pending / 2 ^ (8 * (o - 0x301000 + i))), s)

/-- A host's read of BAR0: refused with Unsupported Request while the package is not ready, but for the areas that it serves before,
and 0 at an offset that is unassigned or not aligned (R428, R430, R509); a function that does not decode memory answers Unsupported
Request (R427). DEDUCED: log entry 38. PRESUMED: log entry 48. -/
def readBar0 (k o n : Nat) (s : State) : State :=
  if linkState s k = 0 ∨ !linkExists s k ∨ n = 0 ∨ 0x4000000 < o + n then s
  else if !barReach s k then answerHost k 1 [] s
  else if !(packageReady s || barEarly o) then answerHost k 1 [] (inboundErr k s)
  else if !barAssigned o ∨ o % n ≠ 0 then answerHost k 0 (List.replicate n 0) (readBack k s)
  else
    let r := barLoad k o n s
    answerHost k 0 r.1 (readBack k r.2)

/-- A host's read by its place. -/
def hostRead (k : Nat) (p : BarPlace) (n : Nat) (s : State) : State :=
  match p with
  | .bar0 o => readBar0 k o n s
  | .bar2 o => readBar k o n s

/-- INBOUND_READ (R430, R434). -/
def execInboundRead (link : Nat) (place : BarPlace) (length : Nat) (s : State) : Host.Outcome State Fault Refusal :=
  forUnit (Instr.wf (.inboundRead link place length)) (hostRead link place length s)

end Sys2Proof.Machine
end

