-- ==== Sys2Proof/Machine/Dispatch.lean ====
section
/-!
DEFINITION. Machine/Dispatch.lean: which meaning each command has.
-/

namespace Sys2Proof.Machine

def exec (i : Instr) (s : State) : Host.Outcome State Fault Refusal :=
  match i with
  | .powerUp board => Sys2Proof.Machine.execPowerUp board s
  | .restIntervalExpiry board => Sys2Proof.Machine.execRestIntervalExpiry board s
  | .enDeassert => Sys2Proof.Machine.execEnDeassert s
  | .powerFault cause source => Sys2Proof.Machine.execPowerFault cause source s
  | .timeReferenceStart timeref refclk => Sys2Proof.Machine.execTimeReferenceStart timeref refclk s
  | .settingsHoldExpiry => Sys2Proof.Machine.execSettingsHoldExpiry s
  | .domainRamp domains => Sys2Proof.Machine.execDomainRamp domains s
  | .domainRampTimeout domain => Sys2Proof.Machine.execDomainRampTimeout domain s
  | .dieSelftestPowerup unit pass => Sys2Proof.Machine.execDieSelftestPowerup unit pass s
  | .memChannelTrainingDone group failed => Sys2Proof.Machine.execMemChannelTrainingDone group failed s
  | .memInitialisationDone group => Sys2Proof.Machine.execMemInitialisationDone group s
  | .coreImageLoad => Sys2Proof.Machine.execCoreImageLoad s
  | .secReady rq value => Sys2Proof.Machine.execSecReady rq value s
  | .configRequest link => Sys2Proof.Machine.execConfigRequest link s
  | .read rq index sub => Sys2Proof.Machine.execRead rq index sub s
  | .write rq index sub type value => Sys2Proof.Machine.execWrite rq index sub type value s
  | .readMulti rq items => Sys2Proof.Machine.execReadMulti rq items s
  | .writeMulti rq items => Sys2Proof.Machine.execWriteMulti rq items s
  | .describe rq index sub => Sys2Proof.Machine.execDescribe rq index sub s
  | .domRead rq index sub offset length => Sys2Proof.Machine.execDomRead rq index sub offset length s
  | .domWrite rq index sub offset bytes => Sys2Proof.Machine.execDomWrite rq index sub offset bytes s
  | .spdm port msg => Sys2Proof.Machine.execSpdm port msg s
  | .ident port tid => Sys2Proof.Machine.execIdent port tid s
  | .camipSessionIdleTimeout slot => Sys2Proof.Machine.execCamipSessionIdleTimeout slot s
  | .camipSessionClose rq slot value => Sys2Proof.Machine.execCamipSessionClose rq slot value s
  | .camipEnable rq port value => Sys2Proof.Machine.execCamipEnable rq port value s
  | .camipNodeId rq port value => Sys2Proof.Machine.execCamipNodeId rq port value s
  | .plcaBeaconLost port => Sys2Proof.Machine.execPlcaBeaconLost port s
  | .notifyRepeat ring => Sys2Proof.Machine.execNotifyRepeat ring s
  | .mailboxCmd core chan link word => Sys2Proof.Machine.execMailboxCmd core chan link word s
  | .dictReplayDone rq value => Sys2Proof.Machine.execDictReplayDone rq value s
  | .dictHoldMs rq value => Sys2Proof.Machine.execDictHoldMs rq value s
  | .dictPathWrite rq value => Sys2Proof.Machine.execDictPathWrite rq value s
  | .memInitStart rq value => Sys2Proof.Machine.execMemInitStart rq value s
  | .secKeyRevoke rq value => Sys2Proof.Machine.execSecKeyRevoke rq value s
  | .secSvnCommit rq value => Sys2Proof.Machine.execSecSvnCommit rq value s
  | .srvTimeReselect rq value => Sys2Proof.Machine.execSrvTimeReselect rq value s
  | .timerefLoss => Sys2Proof.Machine.execTimerefLoss s
  | .referenceLoss => Sys2Proof.Machine.execReferenceLoss s
  | .tnsDieEnable rq value => Sys2Proof.Machine.execTnsDieEnable rq value s
  | .tnsQuadEnable rq die value => Sys2Proof.Machine.execTnsQuadEnable rq die value s
  | .tnsCanopyEnable rq die value => Sys2Proof.Machine.execTnsCanopyEnable rq die value s
  | .srvClusterEnable rq hd value => Sys2Proof.Machine.execSrvClusterEnable rq hd value s
  | .pwrMemgrpEnable rq value => Sys2Proof.Machine.execPwrMemgrpEnable rq value s
  | .pwrLdEnable rq value => Sys2Proof.Machine.execPwrLdEnable rq value s
  | .domainSwitchOff domain => Sys2Proof.Machine.execDomainSwitchOff domain s
  | .domainRegulatorFail domain arrayRail => Sys2Proof.Machine.execDomainRegulatorFail domain arrayRail s
  | .cappingSample sample => Sys2Proof.Machine.execCappingSample sample s
  | .pwrInputWPeak rq value => Sys2Proof.Machine.execPwrInputWPeak rq value s
  | .lpddrRefresh group => Sys2Proof.Machine.execLpddrRefresh group s
  | .mr4Read group rates hot => Sys2Proof.Machine.execMr4Read group rates hot s
  | .memScrubVisit addr found strikes => Sys2Proof.Machine.execMemScrubVisit addr found strikes s
  | .canopyScrubVisit addr found => Sys2Proof.Machine.execCanopyScrubVisit addr found s
  | .memGroupFail group channel => Sys2Proof.Machine.execMemGroupFail group channel s
  | .hsRateMeasure rates => Sys2Proof.Machine.execHsRateMeasure rates s
  | .tnsSelftestStart rq value => Sys2Proof.Machine.execTnsSelftestStart rq value s
  | .selftestDone die failing => Sys2Proof.Machine.execSelftestDone die failing s
  | .tnsDoorbell die queue value => Sys2Proof.Machine.execTnsDoorbell die queue value s
  | .controlRegisterWrite source addr width value => Sys2Proof.Machine.execControlRegisterWrite source addr width value s
  | .tnsDqCtrlEnable rq die queue value => Sys2Proof.Machine.execTnsDqCtrlEnable rq die queue value s
  | .tnsDqReset rq value => Sys2Proof.Machine.execTnsDqReset rq value s
  | .dqResetDone die queue => Sys2Proof.Machine.execDqResetDone die queue s
  | .descriptorTake die => Sys2Proof.Machine.execDescriptorTake die s
  | .splitNotice root isn die => Sys2Proof.Machine.execSplitNotice root isn die s
  | .operationStart die isn => Sys2Proof.Machine.execOperationStart die isn s
  | .nop die isn => Sys2Proof.Machine.execNop die isn s
  | .mma die isn => Sys2Proof.Machine.execMma die isn s
  | .mmaDrain die isn => Sys2Proof.Machine.execMmaDrain die isn s
  | .drain die isn => Sys2Proof.Machine.execDrain die isn s
  | .tileRestore die isn => Sys2Proof.Machine.execTileRestore die isn s
  | .vecMap die isn => Sys2Proof.Machine.execVecMap die isn s
  | .vecReduce die isn => Sys2Proof.Machine.execVecReduce die isn s
  | .stashBegin die isn => Sys2Proof.Machine.execStashBegin die isn s
  | .stashPut die isn => Sys2Proof.Machine.execStashPut die isn s
  | .regrowPut die isn => Sys2Proof.Machine.execRegrowPut die isn s
  | .stashFree die isn => Sys2Proof.Machine.execStashFree die isn s
  | .operationComplete die isn => Sys2Proof.Machine.execOperationComplete die isn s
  | .tnsSlotBindBound rq slot value => Sys2Proof.Machine.execTnsSlotBindBound rq slot value s
  | .tnsSlotBindRelease rq slot value => Sys2Proof.Machine.execTnsSlotBindRelease rq slot value s
  | .slotReleaseDone slot => Sys2Proof.Machine.execSlotReleaseDone slot s
  | .tnsStashPoolPeak rq die job value => Sys2Proof.Machine.execTnsStashPoolPeak rq die job value s
  | .rdShare agent line => Sys2Proof.Machine.execRdShare agent line s
  | .rdUnique agent line => Sys2Proof.Machine.execRdUnique agent line s
  | .promote agent line => Sys2Proof.Machine.execPromote agent line s
  | .rdPeek agent line => Sys2Proof.Machine.execRdPeek agent line s
  | .rdPeekWatch agent line => Sys2Proof.Machine.execRdPeekWatch agent line s
  | .wrFull agent line data => Sys2Proof.Machine.execWrFull agent line data s
  | .wrHint agent line data targetOk => Sys2Proof.Machine.execWrHint agent line data targetOk s
  | .wrMasked agent line mask data => Sys2Proof.Machine.execWrMasked agent line mask data s
  | .atomicHome agent hart addr width op operand => Sys2Proof.Machine.execAtomicHome agent hart addr width op operand s
  | .snpShare agent line => Sys2Proof.Machine.execSnpShare agent line s
  | .snpUnique agent line => Sys2Proof.Machine.execSnpUnique agent line s
  | .snpKill agent line => Sys2Proof.Machine.execSnpKill agent line s
  | .snpPeek agent line => Sys2Proof.Machine.execSnpPeek agent line s
  | .watchNotice die line => Sys2Proof.Machine.execWatchNotice die line s
  | .rspNone agent line => Sys2Proof.Machine.execRspNone agent line s
  | .rspSentKeep agent line => Sys2Proof.Machine.execRspSentKeep agent line s
  | .rspSentGone agent line => Sys2Proof.Machine.execRspSentGone agent line s
  | .wbInFlight agent line => Sys2Proof.Machine.execWbInFlight agent line s
  | .dat agent line => Sys2Proof.Machine.execDat agent line s
  | .evDirty agent line => Sys2Proof.Machine.execEvDirty agent line s
  | .evClean agent line => Sys2Proof.Machine.execEvClean agent line s
  | .ackGrant agent line => Sys2Proof.Machine.execAckGrant agent line s
  | .ackEv agent line => Sys2Proof.Machine.execAckEv agent line s
  | .ackWr agent line => Sys2Proof.Machine.execAckWr agent line s
  | .cacheEviction agent line => Sys2Proof.Machine.execCacheEviction agent line s
  | .agentLost agent => Sys2Proof.Machine.execAgentLost agent s
  | .cohHomeEnableSet rq value => Sys2Proof.Machine.execCohHomeEnableSet rq value s
  | .cohHomeEnableClear rq value => Sys2Proof.Machine.execCohHomeEnableClear rq value s
  | .amo hart addr width op operand => Sys2Proof.Machine.execAmo hart addr width op operand s
  | .lr hart addr width => Sys2Proof.Machine.execLr hart addr width s
  | .sc hart addr width value => Sys2Proof.Machine.execSc hart addr width value s
  | .streamingStore hart addr data => Sys2Proof.Machine.execStreamingStore hart addr data s
  | .cboClean hart addr => Sys2Proof.Machine.execCboClean hart addr s
  | .cboFlush hart addr => Sys2Proof.Machine.execCboFlush hart addr s
  | .cboInval hart addr => Sys2Proof.Machine.execCboInval hart addr s
  | .hartStartPc hart pc => Sys2Proof.Machine.execHartStartPc hart pc s
  | .coreCacheUe hd error hart addr => Sys2Proof.Machine.execCoreCacheUe hd error hart addr s
  | .fabPortEnable rq value => Sys2Proof.Machine.execFabPortEnable rq value s
  | .cmisRead port result => Sys2Proof.Machine.execCmisRead port result s
  | .portLaneTrainingDone port => Sys2Proof.Machine.execPortLaneTrainingDone port s
  | .portTrainTimeout port => Sys2Proof.Machine.execPortTrainTimeout port s
  | .portRetryTimer port => Sys2Proof.Machine.execPortRetryTimer port s
  | .fabPortExpect rq port portNumber value => Sys2Proof.Machine.execFabPortExpect rq port portNumber value s
  | .laneFailure port => Sys2Proof.Machine.execLaneFailure port s
  | .linkUnitReceive port unit => Sys2Proof.Machine.execLinkUnitReceive port unit s
  | .nak port ackSeq => Sys2Proof.Machine.execNak port ackSeq s
  | .replayTimeout port => Sys2Proof.Machine.execReplayTimeout port s
  | .frameRoute port vl => Sys2Proof.Machine.execFrameRoute port vl s
  | .data port => Sys2Proof.Machine.execData port s
  | .rdReq port => Sys2Proof.Machine.execRdReq port s
  | .rdRsp port => Sys2Proof.Machine.execRdRsp port s
  | .wrReq port => Sys2Proof.Machine.execWrReq port s
  | .wrPart port => Sys2Proof.Machine.execWrPart port s
  | .wrAck port => Sys2Proof.Machine.execWrAck port s
  | .ctrl port => Sys2Proof.Machine.execCtrl port s
  | .fellNotice port => Sys2Proof.Machine.execFellNotice port s
  | .identExchange port => Sys2Proof.Machine.execIdentExchange port s
  | .ringRecordWrite port => Sys2Proof.Machine.execRingRecordWrite port s
  | .remoteTimeout tag => Sys2Proof.Machine.execRemoteTimeout tag s
  | .vlStall port vl => Sys2Proof.Machine.execVlStall port vl s
  | .sendDoorbell job value => Sys2Proof.Machine.execSendDoorbell job value s
  | .sendDescriptor job => Sys2Proof.Machine.execSendDescriptor job s
  | .colDoorbell job value => Sys2Proof.Machine.execColDoorbell job value s
  | .colDescriptorTake job => Sys2Proof.Machine.execColDescriptorTake job s
  | .colNop job path => Sys2Proof.Machine.execColNop job path s
  | .reduce job path => Sys2Proof.Machine.execReduce job path s
  | .reduceHop job path => Sys2Proof.Machine.execReduceHop job path s
  | .broadcast job path => Sys2Proof.Machine.execBroadcast job path s
  | .prism job path => Sys2Proof.Machine.execPrism job path s
  | .collectiveComplete job path => Sys2Proof.Machine.execCollectiveComplete job path s
  | .luDoorbell job value => Sys2Proof.Machine.execLuDoorbell job value s
  | .luNop job => Sys2Proof.Machine.execLuNop job s
  | .ortho job => Sys2Proof.Machine.execOrtho job s
  | .norm job => Sys2Proof.Machine.execNorm job s
  | .update job => Sys2Proof.Machine.execUpdate job s
  | .stemRecord job payload => Sys2Proof.Machine.execStemRecord job payload s
  | .stragglerRelease job step => Sys2Proof.Machine.execStragglerRelease job step s
  | .memberList job list step => Sys2Proof.Machine.execMemberList job list step s
  | .normReport job payload => Sys2Proof.Machine.execNormReport job payload s
  | .clipRecord job payload step clipAddr => Sys2Proof.Machine.execClipRecord job payload step clipAddr s
  | .heartbeat job payload => Sys2Proof.Machine.execHeartbeat job payload s
  | .faultReport job payload => Sys2Proof.Machine.execFaultReport job payload s
  | .epochPlan job plan => Sys2Proof.Machine.execEpochPlan job plan s
  | .ready job payload => Sys2Proof.Machine.execReady job payload s
  | .start job payload => Sys2Proof.Machine.execStart job payload s
  | .prismPlan job payload planAddr targetAddr targets path => Sys2Proof.Machine.execPrismPlan job payload planAddr targetAddr targets path s
  | .switch job payload => Sys2Proof.Machine.execSwitch job payload s
  | .partDone job payload => Sys2Proof.Machine.execPartDone job payload s
  | .ckptDone job payload => Sys2Proof.Machine.execCkptDone job payload s
  | .snagReport job payload => Sys2Proof.Machine.execSnagReport job payload s
  | .jobCtrlStart rq job => Sys2Proof.Machine.execJobCtrlStart rq job s
  | .jobCtrlStop rq job => Sys2Proof.Machine.execJobCtrlStop rq job s
  | .jobCtrlSpare rq job => Sys2Proof.Machine.execJobCtrlSpare rq job s
  | .jobKick rq job value => Sys2Proof.Machine.execJobKick rq job value s
  | .jobSwitch rq job value => Sys2Proof.Machine.execJobSwitch rq job value s
  | .watchdogExpiry job => Sys2Proof.Machine.execWatchdogExpiry job s
  | .heartbeatTimer job => Sys2Proof.Machine.execHeartbeatTimer job s
  | .deadTimeout job device => Sys2Proof.Machine.execDeadTimeout job device s
  | .restartTimeout job => Sys2Proof.Machine.execRestartTimeout job s
  | .journalReplay turn => Sys2Proof.Machine.execJournalReplay turn s
  | .requestAccept job payload source layers positions form table => Sys2Proof.Machine.execRequestAccept job payload source layers positions form table s
  | .resultDelivery turn => Sys2Proof.Machine.execResultDelivery turn s
  | .attach link value => Sys2Proof.Machine.execAttach link value s
  | .detach link => Sys2Proof.Machine.execDetach link s
  | .pcieLinkUp link speed width => Sys2Proof.Machine.execPcieLinkUp link speed width s
  | .pcieLinkDown link => Sys2Proof.Machine.execPcieLinkDown link s
  | .pcieReset link kind => Sys2Proof.Machine.execPcieReset link kind s
  | .busMasterDisable link => Sys2Proof.Machine.execBusMasterDisable link s
  | .inboundRead link offset length => Sys2Proof.Machine.execInboundRead link offset length s
  | .inboundWrite link offset data poisoned => Sys2Proof.Machine.execInboundWrite link offset data poisoned s
  | .inboundAtomicop link offset width op operand => Sys2Proof.Machine.execInboundAtomicop link offset width op operand s
  | .setShared link word => Sys2Proof.Machine.execSetShared link word s
  | .setDevice link word => Sys2Proof.Machine.execSetDevice link word s
  | .flush link word => Sys2Proof.Machine.execFlush link word s
  | .ack job value => Sys2Proof.Machine.execAck job value s
  | .outboundReadCompletion id outcome => Sys2Proof.Machine.execOutboundReadCompletion id outcome s
  | .hostCplTimeout id => Sys2Proof.Machine.execHostCplTimeout id s
  | .eventPost hart word => Sys2Proof.Machine.execEventPost hart word s
  | .evtRingCons ring value => Sys2Proof.Machine.execEvtRingCons ring value s
  | .evtRingDone ring => Sys2Proof.Machine.execEvtRingDone ring s
  | .evtRingEnable rq ring value => Sys2Proof.Machine.execEvtRingEnable rq ring value s
  | .evtGlobalEnable rq value => Sys2Proof.Machine.execEvtGlobalEnable rq value s
  | .evtRingTarget rq ring value => Sys2Proof.Machine.execEvtRingTarget rq ring value s
  | .timerInterrupt hart level => Sys2Proof.Machine.execTimerInterrupt hart level s
  | .hartStop hart => Sys2Proof.Machine.execHartStop hart s
  | .timeReferenceReturn timeref => Sys2Proof.Machine.execTimeReferenceReturn timeref s
  | .plcaStatusTrue port => Sys2Proof.Machine.execPlcaStatusTrue port s
  | .vinCrosses20v rising => Sys2Proof.Machine.execVinCrosses20v rising s
  | .pwrRailTargetMv rq die value => Sys2Proof.Machine.execPwrRailTargetMv rq die value s
  | .domainRampDone domain => Sys2Proof.Machine.execDomainRampDone domain s
  | .landingOperationComplete job => Sys2Proof.Machine.execLandingOperationComplete job s

end Sys2Proof.Machine
end

