-- ==== Sys2Proof/Machine/Step.lean ====
section
/-!
DEFINITION. Machine/Step.lean: one step takes the command at the front of the queue; an empty queue lets the time counter
advance (log entry 10).
-/

namespace Sys2Proof.Machine

/-- One step. DESIGN CHOICE: log entries 10, 108. -/
def step (s : State) : Host.Outcome State Fault Refusal :=
  match s.pending with
  | [] => .next (Sys2Proof.Machine.tick s)
  | c :: r => exec c { s with pending := r }

/-- The state with the command that a word spells at the front of the queue. DESIGN CHOICE: log entry 13. -/
def State.withFetchWord (s : State) (nbits w : Nat) : State :=
  match decodeTableWord nbits w with
  | some c => { s with pending := c :: s.pending }
  | none => s

end Sys2Proof.Machine
end

