-- ==== Sys2Proof/Safety.lean ====
section
/-!
DEFINITION. Safety.lean: the terms in which statements speak of a safe run.
-/

namespace Sys2Proof

/-- Every waiting command names units that the package has. -/
def Machine.State.commandsOk (s : Machine.State) : Bool := s.pending.all Instr.wf

/-- No event waits to be offered to the rings: so it is between two steps (R464). -/
def Machine.State.Quiet (s : Machine.State) : Prop := s.evq = []

/-- A run of k steps that meets no fault and no refusal, and ends in t. -/
def Runs : Nat → Machine.State → Machine.State → Prop
  | 0, s, t => t = s
  | k + 1, s, t => ∃ u, Machine.step s = .next u ∧ Runs k u t

end Sys2Proof
end

