-- ==== Sys2Proof/Certificates/Slice0/Obligations.lean ====
section
/-!
DEFINITION. Certificates/Slice0/Obligations.lean: the statements about this model, for the provers. A command's result is stated as
the state that `exec` answers; `settle` ends a step by offering the events posted in it to the tally rings, and with none posted
changes nothing. `Quiet` (no event waits) holds between steps: statement EveryStepEndsQuiet. The rules that a docstring names are
those that a statement rests on; which of them it states whole, OBLIGATIONS.json says.
-/

open Sys2Proof Sys2Proof.Machine

/-! ### The block as a whole -/

/-- A step takes the command at the front of the queue and is that command's effect on the state with the queue's rest. -/
def Obligations.StepRunsFrontCommand : Prop :=
  ∀ (s : State) (c : Instr) (r : List Instr), s.pending = c :: r → step s = exec c { s with pending := r }

/-- The machine right after reset, before the package has power: it is off, no domain is on, no job runs, no hart, home, port or link is up,
no memory group is ready, the counter has not started, no ring holds a record, and nothing waits; device memory lists nothing, in its
canonical form. (Rests on R15, R221, R250, R295, R368, R415, R423, R444, R466, R541, R546.) -/
def Obligations.ResetState : Prop :=
  State.reset.pwr.on = false ∧ State.reset.pwr.opened = false ∧ State.reset.pending = [] ∧ State.reset.Quiet ∧ State.reset.out = []
  ∧ State.reset.mem = [] ∧ Memory.wf State.reset.mem = true
  ∧ State.reset.tim.started = false ∧ State.reset.tim.now = 0
  ∧ (∀ d, d < 80 → State.reset.domain d = 0) ∧ (∀ j, j < 16 → State.reset.jobState j = 0)
  ∧ (∀ n, n < 8 → State.reset.homeState n = 0 ∧ State.reset.memState n = 0)
  ∧ (∀ p, p < 24 → portState State.reset p = 0) ∧ (∀ k, k < 2 → linkState State.reset k = 0)
  ∧ (∀ h, h < 72 → State.reset.hartState h ≠ 0)
  ∧ (∀ k, k < 64 → State.reset.num 0x5001 (k + 1) = 0 ∧ ringProd State.reset k = 0 ∧ ringCons State.reset k = 0)

/-- Every command whose operands name units and values that exist answers a next state, in every state, and leaves no event waiting; one that
names a unit that does not exist faults, and no command is refused. -/
def Obligations.EveryCommandAnswers : Prop :=
  ∀ (c : Instr) (s : State),
    (c.wf = true → ∃ t, exec c s = .next t ∧ t.Quiet)
    ∧ (c.wf = false → exec c s = .fault .noSuchUnit)

/-- Between two steps no event waits to be offered: a step, of a command or of the empty queue, that starts so ends so. (Rests on R464.) -/
def Obligations.EveryStepEndsQuiet : Prop :=
  ∀ (s t : State), s.Quiet → step s = .next t → t.Quiet

/-- No command changes the queue of waiting commands, gives back a free value already drawn, or leaves device memory out of its canonical
form: a step takes one command from the queue and keeps the form, in every state. (That free values are numbered by a counter is the
model's, log entry 1.) -/
def Obligations.StepsKeepMemoryForm : Prop :=
  ∀ (s t : State), Memory.wf s.mem = true → step s = .next t →
    Memory.wf t.mem = true ∧ t.pending = s.pending.tail ∧ s.free ≤ t.free

/-- A masked write of a line stores each byte of its data where its mask bit is set, and every other byte of memory, in the line and outside
it, reads as before; bytes stored at an address are read back from it. (Rests on R113, R211, R215.) -/
def Obligations.WritesReadBack : Prop :=
  ∀ (s : State) (line mask : Nat) (data : List Byte), Memory.wf s.mem = true → data.length = 64 →
    (∀ x, getByte (memWriteLine line mask data s) x =
      if line ≤ x ∧ x < line + 64 ∧ mask.testBit (x - line) = true then data.getD (x - line) 0 else getByte s x)
    ∧ (∀ (l : List Byte) (x : Nat), getByte (putBytes s line l) x =
      if line ≤ x ∧ x < line + l.length then l.getD (x - line) 0 else getByte s x)

/-! ### Number formats, and rules stated whole -/

/-- The value of a QN4 element, and the heartwood of a QW32 value, which is that value truncated toward zero to QW16 precision; the
conversion of QW32 to QW16 gives it, and the canonical NaN for every NaN. (Rests on R33, R40, R64, R69; that a QW32 NaN whose fraction bits
[23:16] are 0 becomes the canonical QW16 NaN, and not the infinity that truncation would leave, is the model's reading, log entry 123.) -/
def Obligations.ElementsAndHeartwood : Prop :=
  (∀ q x : Nat, q < 16 → x < 128 →
    elemValue codeQN4 q (some x) = .fin (decide (8 ≤ q)) (if q < 8 then q else 16 - q) ((x : Int) - 63))
  ∧ (∀ bs, pairingOk codeQN4 bs = true ↔ bs = 1 ∨ bs = 2)
  ∧ (∀ w : Nat, w < 2 ^ 32 →
    bits w 31 16 = w / 2 ^ 16
    ∧ (∀ neg m e, decodeF qw32 w = .fin neg m e → decodeF qw16 (bits w 31 16) = .fin neg (m / 2 ^ 16) (e + 16))
    ∧ (∀ neg, decodeF qw32 w = .inf neg → decodeF qw16 (bits w 31 16) = .inf neg)
    ∧ (w = nanOf qw32 → bits w 31 16 = nanOf qw16)
    ∧ (∀ r s, (convElem codeQW32 codeQW16 r w s).code =
        if decodeF qw32 w = .nan then nanOf qw16 else bits w 31 16))

/-- The sum of a chunk with a non-finite product is non-finite, neither accumulator nor window is used, and its finite products do not count.
(Rests on R78.) -/
def Obligations.NonFiniteChunks : Prop :=
  ∀ (narrow : Bool) (t : Nat) (l : List (FV × Int)),
    let p := l.map (·.1)
    p.any (fun v => !v.isFinite) = true →
    promoteChunk narrow t l = promote t
      (if FV.nan ∈ p ∨ (FV.inf false ∈ p ∧ FV.inf true ∈ p) then .nan else if FV.inf false ∈ p then .inf false else .inf true) none
    ∧ (∀ l' : List (FV × Int), (l'.map (·.1)).filter (fun v => !v.isFinite) = p.filter (fun v => !v.isFinite) →
        ∀ narrow', promoteChunk narrow' t l' = promoteChunk narrow t l)

/-- A write hint whose target is powered off, failed or unreachable: the home writes the line to memory, places it nowhere and counts it; a
running target takes every line, in D, as its only holder. (Rests on R239.) -/
def Obligations.HintsMeetTheirTarget : Prop :=
  ∀ (s : State) (line t n : Nat) (data : List Byte),
    homeOf s line = some n → s.homeState n = 1 → t < 10 → (∀ d r, place s line = .canopy d r → t ≠ d) →
    dirRoom s line = true → waitsOf s (targetCache t) line = [] →
    let running := s.on (if t < 8 then domUncore t else domHdUncore (t - 8)) = true ∧ s.coh.lost.contains (targetCache t) = false
    let up := targetUp s t
    let u := placeLine line data (some t) up s
    (¬ running → up = false ∧ u = count 0x5854 (n + 1) 1 (memWriteLine line fullMask data s) ∧ u.coh = s.coh
      ∧ (s.num 0x5854 (n + 1) < max64 → u.num 0x5854 (n + 1) = s.num 0x5854 (n + 1) + 1))
    ∧ (running → up = true ∧ cacheLine u (targetCache t) line = some { st := .d, data := data, poisoned := false }
      ∧ (dirOf u line).sole = true ∧ (dirOf u line).holders = 1#10 <<< targetCache t)

/-- A line whose home is OFF has the effective mode MEMCTRL, whatever COH_ATOMIC_MODE, the predictor, the boot, the other homes or the jobs
say; an atomic on it is one access at the memory controller. (Rests on R249.) -/
def Obligations.OffHomesUseControllers : Prop :=
  ∀ (s : State) (addr n : Nat), homeOf s (lineOf addr) = some n → s.homeState n = 0 →
    lineMode s (lineOf addr) = 3
    ∧ (∀ h w op x old u, h < 72 → (w = 4 ∨ w = 8) →
      atomicTrap s h addr w true = none → atomicAt op addr w x s = ((old, false), u) →
      exec (.amo h addr w op x) s = .next (settle (giveHart h old u)))

/-- Subindex 0x00 of every index that holds an object is a U8 RO entry that reads the highest subindex in use there; an index and subindex
that no table lists, and that is not such an entry, names no object. (Rests on R475.) -/
def Obligations.SubindexZero : Prop :=
  (∀ r ∈ objRows, 1 ≤ r.slo ∧ r.slo ≤ r.shi ∧ r.shi < 256)
  ∧ (∀ (s : State) (i k : Nat), k ≠ 0 → rowOf i k ≠ none →
    ∃ h r, rowOf i h ≠ none ∧ (∀ j, rowOf i j ≠ none → j ≤ h) ∧ rowOf i 0 = some r ∧ r.type = 2 ∧ r.size = 1 ∧ r.access = 0
      ∧ readBytes s i 0 = (2, leBytes 1 h))
  ∧ (∀ (s : State) (i j path type : Nat) (l : List Byte), rowOf i j = none →
    readStatus s i j = stNoObject ∧ writeObj path i j type l s = (stNoObject, s)
    ∧ svcDescribe i j s = (stNoObject, []) ∧ svcDomRead i j 0 0 s = (stNoObject, []) ∧ svcDomWrite path i j 0 l s = (stNoObject, s))

/-! ### Pins, power-up and time -/

/-- What a fall of EN, a power fault and a crossing of 20 V leave: a package that is off keeps the fuses and what the stage-1 controller
holds, and nothing else. With the rest interval running, or the input below 36 V, EN is noted and the package stays off; with EN low the
end of the interval is noted. (Rests on R537, R546, R579; R579.) -/
def Obligations.PackagePower : Prop :=
  (∀ (s : State), s.Quiet →
        (∀ src : Nat, s.pwr.on = true →
          (s.pwr.en = true →
            exec .enDeassert s = .next { State.reset with
              pending := s.pending, fuses := s.fuses, free := s.free, out := s.out,
              pwr := { Pwr.init with vinMv := s.pwr.vinMv, latched := s.pwr.latched, latchedSource := s.pwr.latchedSource,
                                     en := false, restDone := false, resting := true, faulted := false } })
          ∧ (∀ cause, 1 ≤ cause → cause ≤ 5 →
            exec (.powerFault cause src) s = .next { State.reset with
              pending := s.pending, fuses := s.fuses, free := s.free, out := s.out,
              pwr := { Pwr.init with en := s.pwr.en, vinMv := s.pwr.vinMv, restDone := false, resting := false, faulted := true,
                                     latched := cause, latchedSource := if cause = 5 then src % 4096 else 0 } })
          ∧ exec (.vinCrosses20v false) s = .next { State.reset with
              pending := s.pending, fuses := s.fuses, free := s.free, out := s.out,
              pwr := { Pwr.init with en := s.pwr.en, restDone := false } })
        ∧ (s.pwr.on = false →
          (s.pwr.en = true →
            exec .enDeassert s = .next { s with pwr := { s.pwr with en := false, restDone := false, resting := true } })
          ∧ exec (.vinCrosses20v true) s =
              .next { s with pwr := { s.pwr with vinMv := 20000, restDone := false, resting := true } }))
  ∧ (∀ (s : State) (b : Board), s.Quiet → s.pwr.on = false →
        ((s.pwr.restDone = false ∨ b.vinMv < 36000) →
          exec (.powerUp b) s = .next { s with pwr := { s.pwr with en := true, vinMv := b.vinMv } })
        ∧ (s.pwr.resting = true → s.pwr.en = false →
          exec (.restIntervalExpiry b) s = .next { s with pwr := { s.pwr with resting := false, restDone := true } }))

/-- EN high with a good input and the rest interval over starts the boot: the package is on with the board's straps and references, and either
the dictionary has opened with the MC running, or the boot has stopped and shows it on the BSTAT pins; an IOD that fails its own check
reads no image and drives both pins. The fuses are as they were. (Rests on R577, R578, R579.) -/
def Obligations.BootStarts : Prop :=
  ∀ (s : State) (b : Board), s.Quiet → s.pwr.on = false → 36000 ≤ b.vinMv →
    ∀ c : Instr, (c = .powerUp b ∧ s.pwr.restDone = true)
        ∨ (c = .restIntervalExpiry b ∧ s.pwr.resting = true ∧ s.pwr.en = true) →
      ∃ t, exec c s = .next t ∧ t.pwr.on = true ∧ t.pwr.en = true ∧ t.pwr.board = b ∧ t.pwr.faulted = false
        ∧ t.tim.now = 0 ∧ t.tim.started = (b.timeref || b.refclk) ∧ t.fuses = s.fuses ∧ t.pending = s.pending
        ∧ (b.iodOk = false → t.pwr.bstat1 = true ∧ t.pwr.bstat0 = true ∧ t.pwr.opened = false)
        ∧ (b.iodOk = true → t.pwr.bstat0 = false ∧ (t.pwr.opened = true ↔ t.pwr.bstat1 = false))

/-- The counter counts on its reference at each step that finds no command waiting, and else holds. (That such a step is one unit of 100 ns is
the model's, log entry 10.) The start of the counter, the loss of one or of both of its references, and the return of one: the counter
goes on from its value, SRV_TIME_SOURCE follows, and the change is counted and reported; after both were lost it resumes on REFCLK when
that returns, and the return of TIMEREF is only noted (that the counter resumes so before a power-up or SRV_TIME_RESELECT is the model's
reading, log entry 14). A hart whose comparison register is at or below
the running counter has the timer interrupt of that level pending, and nothing else changes; above it nothing changes. (Rests on R415;
R415, R416, R576; R415.) -/
def Obligations.TimeBase : Prop :=
  (∀ (s : State), s.pending = [] →
        (timeRuns s = true → step s = .next { s with tim := { s.tim with now := s.tim.now + 1 } })
        ∧ (timeRuns s = false → step s = .next s))
  ∧ (∀ (s : State), s.Quiet →
        (∀ t r : Bool, s.pwr.on = true → s.tim.started = false →
          exec (.timeReferenceStart t r) s = .next
            ({ s with tim := { now := 0, started := t || r, timeref := t, refclk := r } }.setNum 0x6003 2
              (if t then 1 else if r then 2 else 0)))
        ∧ (s.tim.started = true →
          (s.timeSource = 1 → s.tim.timeref = true →
            exec .timerefLoss s = .next (settle
              (let u := { s with tim := { s.tim with timeref := false } }
               post 0x6002 (src 0 3) 0x1F [(1, 1), (1, if s.tim.refclk then 2 else 0), (8, s.tim.now)]
                 ((if s.tim.refclk then count 0x5892 1 1 u else u).setNum 0x6003 2 (if s.tim.refclk then 2 else 0)))))
          ∧ (s.timeSource ≠ 0 →
            exec .referenceLoss s = .next (settle
              (post 0x6002 (src 0 3) 0x1F [(1, s.timeSource), (1, 0), (8, s.tim.now)]
                ({ s with tim := { s.tim with timeref := false, refclk := false } }.setNum 0x6003 2 0))))
          ∧ (∀ t : Bool, s.timeSource = 0 →
            exec (.timeReferenceReturn t) s = .next (settle
              (let u := { s with tim := { s.tim with timeref := t || s.tim.timeref, refclk := !t || s.tim.refclk } }
               if t = true then u
               else post 0x6002 (src 0 3) 0x1F [(1, 0), (1, 2), (8, s.tim.now)] ((count 0x5892 1 1 u).setNum 0x6003 2 2))))))
  ∧ (∀ (s : State) (h : Nat), s.Quiet → h < 72 → timeRuns s = true →
        (exec (.timerInterrupt h .m) s = .next
          (if (s.hart h).mtimecmp ≤ s.tim.now then s.setHart h { s.hart h with timerM := true } else s))
        ∧ (exec (.timerInterrupt h .s) s = .next
          (if (s.hart h).stimecmp ≤ s.tim.now then s.setHart h { s.hart h with timerS := true } else s))
        ∧ (exec (.timerInterrupt h .vs) s = .next
          (if (s.hart h).vstimecmp ≤ s.tim.now then s.setHart h { s.hart h with timerVs := true } else s)))

/-- A write of HART_START_PC starts a STOPPED hart of a powered cluster in M-mode at that address with a0 its number and a1 its
HART_START_ARG; on any other hart it changes nothing; and a STARTED hart that stops reads STOPPED. What the hart holds when it enters:
translation and M-mode interrupts off, every other register as it was, with mhartid its number and time the package's counter (of the bits
that say so, satp and mstatus.MIE, the manual names none: log entry 119). (Rests on R419.) -/
def Obligations.HartStartAndStop : Prop :=
  (∀ (s : State) (h pc : Nat), s.Quiet → h < 72 →
    (s.hartState h = 1 → hartOn s h = true →
      exec (.hartStartPc h pc) s = .next
        ((s.setHart h ((s.hart h).enter pc h (s.hart h).arg)).setNum 0x6002 (h + 1) 0))
    ∧ (s.hartState h ≠ 1 ∨ hartOn s h = false → exec (.hartStartPc h pc) s = .next s)
    ∧ (s.hartState h = 0 → exec (.hartStop h) s = .next (s.setNum 0x6002 (h + 1) 1)))
  ∧ (∀ (x : Hart) (pc a0 a1 : Nat), tsorted x.x = true → tsorted x.csr = true →
    let y := x.enter pc a0 a1
    y.pc = pc ∧ y.mode = 3 ∧ y.virt = false ∧ y.xreg 10 = a0 ∧ y.xreg 11 = a1 ∧ y.csrAt 0x180 = 0 ∧ bit (y.csrAt 0x300) 3 = false
    ∧ (∀ r, r ≠ 10 → r ≠ 11 → y.xreg r = x.xreg r) ∧ (∀ n, n ≠ 0x180 → n ≠ 0x300 → y.csrAt n = x.csrAt n)
    ∧ y.f = x.f ∧ y.v = x.v ∧ y.files = x.files ∧ y.mtimecmp = x.mtimecmp
    ∧ ∀ (s : State) (h : Nat), hartCsr s h 0xF14 = h ∧ hartCsr s h 0xC01 = s.tim.now)

/-! ### Power domains, boot, memory and power housekeeping -/

/-- A domain that is asked for starts to ramp when its step is reached and what it needs is ON; a ramping one comes up or times out; a
regulator that fails takes all its domains with those that need them; an idle one is DRAINING once its home has drained, and OFF with the
next command, which stands for the fall of its rail. For a quadrant, which nothing needs, with no job about: OFF or FAILED, reported when
it failed, its tiles gone with the errors in them, and nothing else. (Rests on R541 to R545; that the report's domain number has one byte
is log entry 40's, what a quadrant takes with it and the two commands of a switch-off log entry 41's.) -/
def Obligations.DomainsRampAndFail : Prop :=
  ∀ (s : State) (d : Nat), s.Quiet → d < 80 →
    (s.pwr.opened = true →
      (∀ l, (∀ e ∈ l, e < 80) → exec (.domainRamp l) s =
        .next (l.foldl (fun u e => if stepReached u e then rampDomain e u else u) s))
      ∧ (stepReached s d = true → s.domain d = 0 → domWanted s d = true → needsMet s d = true → rampRoom s = true →
        exec (.domainRamp [d]) s = .next (s.setDomain d 1)))
    ∧ (s.domain d = 1 →
      exec (.domainRampDone d) s = .next (settle (startBoot (domainUp d (s.setDomain d 2))))
      ∧ (timeRuns s = true → exec (.domainRampTimeout d) s = .next (settle (failDomains [d] s))))
    ∧ (∀ rail e, e ∈ regulated d rail → s.domain e ≠ 0 → s.domain e ≠ 4 →
      exec (.domainRegulatorFail d rail) s = .next (settle (failDomains (regulated d rail) s)))
    ∧ (s.domain d = 3 → exec (.domainSwitchOff d) s = .next (settle (domainOff d s)))
    ∧ (offDue s d = true →
      (drained (drainDomain d s) d = true →
        exec (.domainSwitchOff d) s = .next (settle (domainClamp d (drainDomain d s)))
        ∧ (domainClamp d (drainDomain d s)).domain d = 3)
      ∧ (drained (drainDomain d s) d = false → exec (.domainSwitchOff d) s = .next (settle (drainDomain d s))))
    ∧ (∀ n q, n < 8 → q < 4 → d = domQuad n q →
      let off : Nat → Bool := fun k => k / 32 / 16 != q
      let gone : State → State := fun u =>
        u.setDie n { u.die n with tiles := tkeep off (u.die n).tiles, sramErr := tkeep off (u.die n).sramErr }
      (s.domain d = 2 → domWanted s d = false → (s.die n).ops = [] → exec (.domainSwitchOff d) s = .next (s.setDomain d 3))
      ∧ (s.domain d = 3 → domWanted s d = false → exec (.domainSwitchOff d) s = .next (gone (s.setDomain d 0)))
      ∧ (s.merr.gSet = true → s.memState 0 ≠ 3 → (∀ j, j < 16 → s.jobState j = 0) →
        (s.domain d = 1 → timeRuns s = true →
          exec (.domainRampTimeout d) s = .next (settle (gone (post 0x2004 (src 0 1) 0x1F [(1, d)] (s.setDomain d 4)))))
        ∧ (s.domain d = 2 →
          exec (.domainRegulatorFail d false) s = .next (settle (gone (post 0x2004 (src 0 1) 0x1F [(1, d)] (s.setDomain d 4)))))))

/-- What comes with a domain that has just become ON: the tiles of a quadrant read +0, the harts of a cluster are STOPPED with their
predictors at 0, the caching agent of a server-core die is no longer lost, a memory group is HELD, and nothing else changes while no boot
waits for the cluster. (What the other registers of a core hold after its reset is the model's, log entry 7; that a lost agent answers again
when its die comes up is log entry 41's.) (Rests on R105, R246, R252, R422, R543.) -/
def Obligations.DomainUpBrings : Prop :=
  ∀ (s : State) (n q : Nat), s.Quiet →
    (n < 8 → q < 4 → s.domain (domQuad n q) = 1 → s.pwr.handoff = none →
      ∃ t, exec (.domainRampDone (domQuad n q)) s = .next t
        ∧ t = (s.setDomain (domQuad n q) 2).setDie n
            (let off : Nat → Bool := fun k => k / 32 / 16 != q
             { s.die n with tiles := tkeep off (s.die n).tiles, sramErr := tkeep off (s.die n).sramErr }))
    ∧ (n < 2 → q < 4 → s.domain (domCluster n q) = 1 → s.pwr.handoff = none →
      exec (.domainRampDone (domCluster n q)) s = .next
        ((List.range 9).foldl (fun u k => u.setNum 0x6002 (36 * n + 9 * q + k + 1) 1)
          (resetCores n q (s.setDomain (domCluster n q) 2)))
      ∧ (∀ (u : State) h a, h ∈ clusterHarts n q → tget 0 (predKey h a) (resetCores n q u).coh.pred = 0))
    ∧ (n < 2 → s.domain (domHdUncore n) = 1 → s.pwr.handoff = none → exec (.domainRampDone (domHdUncore n)) s = .next
        (let u := s.setDomain (domHdUncore n) 2
         { u with coh := { u.coh with lost := u.coh.lost.filter (· != n) } }))
    ∧ (n < 8 → s.domain (domGroup n) = 1 → s.pwr.handoff = none →
      exec (.domainRampDone (domGroup n)) s = .next ((s.setDomain (domGroup n) 2).setNum 0x2401 (n + 1) 0))

/-- A die that has come up runs its self-test: a tensor die or server-core die that passes is reported present, one that fails is reported
absent and its domains fail. A self-test that runs ends with every tile of its die at +0, with no error left in one, and its result
written, and changes nothing else. The handshake rate of every die is measured in turn; a die with no powered quadrant reads 0.0,
HS_RATE_MIN is the lowest since power-up, and nothing else changes. (Rests on R543; R124; R123.) -/
def Obligations.SelfTestsAndRates : Prop :=
  (∀ (s : State) (u : Unit3), s.Quiet → unitOk u = true → selftestDue s u = true →
        exec (.dieSelftestPowerup u true) s = .next (settle (diePassed u s))
        ∧ exec (.dieSelftestPowerup u false) s = .next (settle (dieFailed u s))
        ∧ (∀ n, u = .td n →
            let v := { s with pwr := { s.pwr with selftestOk := s.pwr.selftestOk ++ [u] } }
            let v := v.setNum 0x3C00 1 (setBit (s.num 0x3C00 1) n true)
            diePassed u s = if v.on (domCanopy n) then zeroCanopy n v else v)
        ∧ (∀ d, u = .hd d →
            let v := { s with pwr := { s.pwr with selftestOk := s.pwr.selftestOk ++ [u] } }
            diePassed u s = startBoot (v.setNum 0x6000 1 (setBit (s.num 0x6000 1) d true)))
        ∧ (∀ k, u = .ld k → diePassed u s = { s with pwr := { s.pwr with selftestOk := s.pwr.selftestOk ++ [u] } }))
  ∧ (∀ (s : State) (n : Nat) (failing : List Nat), s.Quiet → n < 8 → (s.die n).testing = true →
        exec (.selftestDone n failing) s = .next
          ((s.setDie n { s.die n with testing := false, tiles := [], sramErr := tkeep (fun k => 2 ^ 48 ≤ k) (s.die n).sramErr }).setNum
            0x3C09 (n + 1) (selftestWord failing)))
  ∧ (∀ (s : State) (rates : List Nat), s.Quiet → s.pwr.opened = true → timeRuns s = true →
        exec (.hsRateMeasure rates) s = .next ((List.range 8).foldl (fun u n => measureDie n (lget 0 rates n) u) s)
        ∧ ∀ (u : State) (n rate : Nat),
            let r := if anyQuad u n then rate % 2 ^ 31 else 0
            let low := if u.pwr.hsSeen.contains n then min (u.num 0x3C03 (n + 1)) r else r
            let v := { u with pwr := { u.pwr with hsSeen := insNat n u.pwr.hsSeen } }
            measureDie n rate u = (v.setNum 0x3C02 (n + 1) r).setNum 0x3C03 (n + 1) low)

/-- The end of the settings hold by its timer reads EXPIRED, is reported with the number of settings written, takes the boot from HOLD to
MEM_INIT and commands memory initialisation. A group trains and is initialised in turn; a channel that does not train fails the group;
when the group of TD0 is READY the boot goes on to load the core image. With TD0's group READY, each bank of the flash as it is read then
is written to the address its header gives and verified there, and the first that passes every check is handed off; with neither good the
boot stops at FAILED_CORE. The boot hart starts at its entry point once HD0 has passed its self-test and HD0.CL0 is ON, and waits for them
till then. A configuration request is answered with Request Retry Status until the dictionary opens, which is all that changes; from
then on a read answers the register's value, and a write has its effect. Vendor and Device ID, Revision ID and Class Code read as the
device's, BAR4, BAR5 and the Expansion ROM BAR read 0, and a size that the host selects for BAR2 is what HST_BAR2_SIZE then reports. (The
offsets of the registers and their other bits are the model's: log entry 48; so are the order of the core image's steps, log entry 43, and
a link that does not train without an MC image, log entry 143.) (Rests on R500, R507, R510; R207, R212, R510; R519, R510;
R427, R428, R429, R509.) -/
def Obligations.BootStages : Prop :=
  (∀ (s : State), s.Quiet → s.pwr.opened = true → timeRuns s = true → s.num 0x1101 3 = 1 →
        exec .settingsHoldExpiry s = .next (settle (post 0x1005 (src 0 0) 0x1F [(4, s.dict.holdWrites)]
          (let u := s.setNum 0x1101 3 3
           let u := if u.num 0x5400 1 = 1 then u.setNum 0x5400 1 2 else u
           { u with dict := { u.dict with memInit := true } }))))
  ∧ (∀ (s : State) (n : Nat), s.Quiet → n < 8 →
        (s.num 0x1101 3 ≠ 1 → s.on (domGroup n) = true → s.pwr.selftestOk.contains (.td n) = true → s.memState n = 0 →
          exec (.memChannelTrainingDone n none) s =
            .next ((s.setNum 0x2401 (n + 1) 1).setNum 0x2400 1 (setBit (s.num 0x2400 1) n true))
          ∧ ∀ c, c < 4 → exec (.memChannelTrainingDone n (some (4 * n + c, c))) s = .next (settle (settleShare (checkPlatform
              (postGroupFail n (some (4 * n + c, c)) ((s.setNum 0x2401 (n + 1) 3).setNum 0x2400 1 (setBit (s.num 0x2400 1) n false)))))))
        ∧ (s.memState n = 1 → s.dict.memInit = true →
          exec (.memInitialisationDone n) s = .next (settle
            (let u := settleShare (startPass n ((forgetGroup n s).setNum 0x2401 (n + 1) 2))
             if n = 0 ∧ u.num 0x5400 1 = 2 then u.setNum 0x5400 1 3 else u))))
  ∧ (∀ (s : State), s.Quiet → s.pwr.opened = true → s.num 0x5400 1 = 3 → s.memState 0 = 2 → s.pwr.handoff = none →
          s.on domNet = true →
        let f := s.pwr.board.coreFlash
        let top := (120 - s.merr.effG) * gib
        let a := loadBank f top 0 s
        let b := loadBank f top 1 (rejectBank 2 0 (coreCause a f 0) a)
        exec .coreImageLoad s = .next (settle
          (if coreCause a f 0 = 0 then handOff f 0 a
           else if coreCause b f 1 = 0 then handOff f 1 b
           else failBoot 0xF0 0 (rejectBank 2 1 (coreCause b f 1) b))))
  ∧ (∀ (s : State) (pc : Nat), s.pwr.handoff = some pc → s.num 0x5400 1 = 3 →
        (s.pwr.selftestOk.contains (.hd 0) = true → s.on (domCluster 0 0) = true →
          startBoot s = startHart 0 pc 0 ({ s with pwr := { s.pwr with handoff := none } }.setNum 0x5400 1 4))
        ∧ (s.pwr.selftestOk.contains (.hd 0) = false ∨ s.on (domCluster 0 0) = false → startBoot s = s))
  ∧ (∀ (s : State) (a : ConfigAccess), s.Quiet → s.pwr.on = true → s.pwr.bstat1 = false → s.on domPcie = true → (a.link = 0 ∨ (a.link = 1 ∧ s.num 0x2C00 1 ≠ 0)) →
        (s.pwr.opened = false → exec (.configRequest a) s = .next { s with out := s.out ++ [.pcieCpl a.link 3 []] })
        ∧ (s.pwr.opened = true → linkState s a.link ≠ 0 →
          (a.value = none → exec (.configRequest a) s =
            .next { s with out := s.out ++ [.pcieCpl a.link 0 (leBytes 4 (configValue s a.link a.reg))] })
          ∧ (∀ v, a.value = some v → exec (.configRequest a) s =
            .next (settle (answerHost a.link 0 [] (configWrite a.link a.reg v s)))))
        ∧ configValue s a.link .ident % 2 ^ 16 = s.num 0x1000 4 % 2 ^ 16
        ∧ configValue s a.link .ident / 2 ^ 16 = s.num 0x1000 5 % 2 ^ 16
        ∧ configValue s a.link .classRev = 0x120000B0
        ∧ configValue s a.link (.bar 4) = 0 ∧ configValue s a.link (.bar 5) = 0 ∧ configValue s a.link .expansionRom = 0
        ∧ (∀ code, 16 ≤ code → code ≤ 20 → tsorted s.obj = true →
          (configWrite a.link .barSize (code * 2 ^ 8) s).num 0x2C08 (a.link + 1) = 2 ^ (20 + code)))

/-- A refresh changes no value; a reading of MR4 updates the refresh rate, and a package above range is reported when it rises above it. A
scrub visit to a READY line corrects what can be corrected and poisons the rest, as a read does; one that finds nothing changes nothing,
but for the pass count and the channels' counts at the end of a pass, which comes only while the reference of R11 counts. (Rests on R205,
R217, R553; R115, R213, R214, R216. That the visit of the highest offset ends a pass is log entry 17's, that MEM_HOT names the hot channel
log entry 51's, and the device errors that appear with a visit are log entry 133's.) -/
def Obligations.MemoryHousekeeping : Prop :=
  (∀ (s : State) (n : Nat) (rates : List Nat) (hot : List Bool), s.Quiet → n < 8 →
        exec (.lpddrRefresh n) s = .next s
        ∧ (s.on (domGroup n) = true →
          let u := s.setNum 0x2407 (n + 1) (rates.foldl max 0 % 256)
          ((∀ b ∈ hot.take 4, b = false) → exec (.mr4Read n rates hot) s =
            .next { u with pwr := { u.pwr with memHot := lset u.pwr.memHot n false } })
          ∧ (∀ m, (hot.take 4).findIdx? id = some m → lget false s.pwr.memHot n = false → exec (.mr4Read n rates hot) s =
            .next (settle (post 0x2006 (src 0 1) 0x1F [(1, n), (1, 4 * n + m)]
              { u with pwr := { u.pwr with memHot := lset u.pwr.memHot n true } })))))
  ∧ (∀ (s : State) (a n o : Nat), s.Quiet →
        (place s (lineOf a) = .dram n o → s.memState n = 2 →
          (o ≠ lastOffset → tfind (lineOf a) s.merr.latent = none → exec (.memScrubVisit a none []) s = .next s)
          ∧ (o = lastOffset → tfind (lineOf a) s.merr.latent = none →
            (timeRuns s = true → exec (.memScrubVisit a none []) s = .next (settle (startPass n (count 0x5842 (n + 1) 1 s))))
            ∧ (timeRuns s = false → exec (.memScrubVisit a none []) s = .next s))
          ∧ (∀ k, o ≠ lastOffset → (k = .ue ∨ tfind (lineOf a) s.merr.latent ≠ some .ue) → exec (.memScrubVisit a (some k) []) s =
            .next (settle (readUnit true (lineOf a)
              { s with merr := { s.merr with latent := tput (lineOf a) k s.merr.latent } }))))
        ∧ (∀ l, place s (lineOf a) = .dram n o → s.memState n = 2 → o ≠ lastOffset → exec (.memScrubVisit a none l) s =
            .next (settle (scrubLine a none (l.foldl strike s))))
        ∧ (place s (a / 8 * 8) = .canopy n o → placeOk s (.canopy n o) = true →
          (tfind (a / 8 * 8) s.merr.latent = none → exec (.canopyScrubVisit a none) s = .next s)
          ∧ (∀ k, (k = .ue ∨ tfind (a / 8 * 8) s.merr.latent ≠ some .ue) → exec (.canopyScrubVisit a (some k)) s =
            .next (settle (readUnit true (a / 8 * 8)
              { s with merr := { s.merr with latent := tput (a / 8 * 8) k s.merr.latent } })))))

/-- What a read finds at a unit of memory: a correctable error of an LPDDR5X line is gone and counted at its package and channel; an
uncorrectable one poisons the line, is counted, and MEM_LAST_UE holds its address; those of a Canopy word likewise, at the die. A clean
unit reads with no effect. A READY group that fails reads FAILED, is reported, and faults with code 0x0E every running job that requires
it, and a boot that waits for TD0's group fails. (Rests on R114, R213, R214; R218, R223, R510, R557. The SOURCE of a group's failure that
names no channel is log entry 51's, the errors that a unit holds are log entry 133's.) -/
def Obligations.MemoryErrors : Prop :=
  (∀ (s : State) (u n o : Nat) (scrub : Bool),
        (tfind u s.merr.latent = none → readUnit scrub u s = s)
        ∧ (u ∉ s.merr.poison →
          (place s u = .dram n o → tfind u s.merr.latent = some .ue →
            readUnit scrub u s = post 0x2401 (src 6 (packageOf n o)) 0x1F
              [(8, u), (1, packageOf n o), (1, channelOf o % 4), (1, b2n scrub)]
              ((count 0x5841 (packageOf n o + 1) 1 (setPoison (clearLatent s u) u true)).setNum 0x2408 1 u))
          ∧ (place s u = .canopy n o → tfind u s.merr.latent = some .ce →
            readUnit scrub u s = count 0x5900 (n + 1) 1 (clearLatent s u))
          ∧ (place s u = .canopy n o → tfind u s.merr.latent = some .ue →
            readUnit scrub u s = post 0x3C03 (src 1 n) 0x1F [(1, n), (8, o)]
              (count 0x5901 (n + 1) 1 (setPoison (clearLatent s u) u true)))
          ∧ (place s u = .dram n o → tfind u s.merr.latent = some .ce →
            (s.num 0x2406 1 = 0 ∨ tget 0 (16 * n + channelOf o) s.merr.chanCe + 1 ≤ s.num 0x2406 1) →
            readUnit scrub u s = count 0x5840 (packageOf n o + 1) 1
              (let v := clearLatent s u
               let k := tget 0 (16 * n + channelOf o) s.merr.chanCe + 1
               { v with merr := { v.merr with chanCe := tset 0 (16 * n + channelOf o) k v.merr.chanCe } }))))
  ∧ (∀ (s : State) (n : Nat), s.Quiet → n < 8 → s.memState n = 2 →
        exec (.memGroupFail n none) s = .next (settle (checkPlatform (faultJobs (fun s j => needsGroup s j n) 0x0E 0xFFFFFF
            (post 0x2403 (src 6 (4 * n)) 0x1F [(1, n), (1, 0xFF), (1, 0xFF)] (s.setNum 0x2401 (n + 1) 3)))))
        ∧ ∀ c, c < 4 → exec (.memGroupFail n (some (4 * n + c, c))) s =
          .next (settle (checkPlatform (faultJobs (fun s j => needsGroup s j n) 0x0E 0xFFFFFF
            (post 0x2403 (src 6 (4 * n + c)) 0x1F [(1, n), (1, 4 * n + c), (1, c)] (s.setNum 0x2401 (n + 1) 3))))))

/-- A power sample sets the electrical readings and runs the thermal loop over its thirteen temperatures, and the capping loop once ten
samples have come; a sensor above 115 °C is a power fault with the sensor's SOURCE. Above PWR_LIMIT_W every capped value falls by 5 mV,
but not below 0.55 V, with PWR_CAPPED at the first step; after ten samples below 97 % of it every one rises by 5 mV, but not above 0.80 V;
between the two nothing moves. (That a run of ten starts again after a raise is the model's reading, log entry 49; the SOURCE of a sensor above
115 °C is log entry 50's.) (Rests on R535, R548, R552; R548.) -/
def Obligations.PowerLoops : Prop :=
  (∀ (s : State) (x : PowerSample), s.Quiet → s.pwr.opened = true →
        (∀ e, ((x.temps.take 13).zipIdx).find? (fun e => decide (115000 < e.1)) = some e →
          exec (.cappingSample x) s = .next (settle (powerFault 5 (tempSource e.2) s)))
        ∧ (((x.temps.take 13).zipIdx).find? (fun e => decide (115000 < e.1)) = none →
          let l := (x.milliwatts :: s.pwr.samples).take 10
          let sum : Nat := l.foldl (fun a b => a + b) 0
          let w := f32Ratio sum (1000 * l.length)
          let u := { s with pwr := { s.pwr with samples := l } }
          let u := ((u.setNum 0x2000 1 (x.volts % 2 ^ 32)).setNum 0x2000 2 (x.amps % 2 ^ 32)).setNum 0x2000 3 w
          let u := u.setNum 0x2000 4 (max (u.num 0x2000 4) w)
          exec (.cappingSample x) s = .next (settle
            (((x.temps.take 13).zipIdx).foldl senseDie (if l.length = 10 then capLoop sum u else u)))))
  ∧ (∀ (s : State) (sum : Nat),
        let lim := powerLimit s
        let down := s.pwr.capped.map (fun v => max 550 (v - 5))
        (lim * 10000 < sum → atFloor s = false → capActive s = true →
          capLoop sum s = count 0x58D0 1 1 { s with pwr := { s.pwr with lowRun := 0, capped := down } })
        ∧ (lim * 10000 < sum → atFloor s = false → capActive s = false →
          capLoop sum s = post 0x2001 (src 0 1) 0x1F [(2, lim), (2, min 0xFFFF (sum / 10000))] (count 0x58D0 1 1
            { s with pwr := { s.pwr with lowRun := 0, capped := down } }))
        ∧ (lim * 10000 < sum → atFloor s = true → s.pwr.floorPosted = true →
          capLoop sum s = { s with pwr := { s.pwr with lowRun := 0 } })
        ∧ (sum * 100 < 97 * (lim * 10000) → s.pwr.lowRun = 9 →
          capLoop sum s = (let up := s.pwr.capped.map (fun v => min 800 (v + 5))
             { s with pwr := { s.pwr with lowRun := 0, floorPosted := false, capped := up } }))
        ∧ (¬ lim * 10000 < sum → ¬ sum * 100 < 97 * (lim * 10000) →
          capLoop sum s = { s with pwr := { s.pwr with lowRun := 0 } }))

/-! ### The dictionary and its paths -/

/-- Each of the seven services on each of its paths, and what was sent in place of one of them (an unknown service, a body that breaks its
layout). A host or core channel that is not BUSY takes the request, a host's once a link has trained, and the answer goes into that
channel; a secured Camip request whose session is open, whose SEQ passes, and whose TRANS_ID is new runs once if its tag passes, and its
response goes to that session (MALFORMED where its header breaks the table of R486); with a bad tag it is dropped; an unsecured one is
answered NOT_AUTHORISED unless its service is IDENT; the tag covers the header as it was received and the body, and a response carries
the request's SERVICE; a frame with another EtherType, a VLAN tag or another address is dropped, and one of another version, or a
response, is counted and dropped. A READ of a readable object on a host channel with no completion interrupt leaves TYPE, VLEN and the
value in the channel, with STATUS OK and its TRANS_ID, and changes nothing else but the record of the last answer. (Rests on R481, R484,
R486, R487, R489, R491, R494, R495; R481, R494, R495. Which breach of R486 is MALFORMED and which drops the frame is log entry 32's, the
link of a host channel's answer log entry 33's.) -/
def Obligations.ServicesRunOnTheirPath : Prop :=
  (∀ (s : State) (rq : Request) (c : Instr) (svc : Nat) (body : List Byte) (run : Nat → State → Answer),
        rqOk rq = true → s.pwr.opened = true →
        ((∃ i j, c = .read rq i j ∧ svc = 1 ∧ body = readReq i j ∧ run = fun _ => pureAnswer (svcRead i j))
          ∨ (∃ i j t l, c = .write rq i j t l ∧ svc = 2 ∧ body = writeReq i j t l
              ∧ run = fun path u => bare (writeObj path i j t l u))
          ∨ (∃ x, c = .readMulti rq x ∧ svc = 3 ∧ body = readMultiReq x ∧ run = fun _ => pureAnswer (svcReadMulti x))
          ∨ (∃ x, c = .writeMulti rq x ∧ svc = 4 ∧ body = writeMultiReq x ∧ run = fun path => svcWriteMulti path x)
          ∨ (∃ i j, c = .describe rq i j ∧ svc = 5 ∧ body = readReq i j ∧ run = fun _ => pureAnswer (svcDescribe i j))
          ∨ (∃ i j o n, c = .domRead rq i j o n ∧ svc = 6 ∧ body = domReq i j o n
              ∧ run = fun _ => pureAnswer (svcDomRead i j o n))
          ∨ (∃ i j o l, c = .domWrite rq i j o l ∧ svc = 7 ∧ body = domReq i j o l.length ++ l
              ∧ run = fun path u => bare (svcDomWrite path i j o l u))) →
        let sent : Nat × List Byte := rq.raw.getD (svc, body)
        let answer : Nat → State → Answer := fun path => if rq.raw = none then run path else runRaw rq path sent.1 sent.2
        (∀ k, rq.src = .host k → linkState s (mailLink s) ≠ 0 → (s.chan k).state ≠ 1 →
          exec c s = .next (settle (answerChan false k (mailLink s) rq.trans (answer 1 s))))
        ∧ (∀ k, rq.src = .core k → (s.chan (k + 4)).state ≠ 1 →
          exec c s = .next (settle (answerChan true k 0 rq.trans (answer 2 s))))
        ∧ (∀ p peer sec tag, rq.src = .camip p peer sec tag → camipUp s p = true →
          let f : CamipFrame := { peer := peer, secured := sec, tag := tag, trans := rq.trans, head := rq.head }
          let id := rq.trans % 65536
          let t := count 0x58C0 (p + 1) 1 s
          (camipMine s rq.head sent.1 = false → exec c s = .next (settle s))
          ∧ (camipMine s rq.head sent.1 = true →
            (headReads rq.head = false → exec c s = .next (settle t))
            ∧ (headReads rq.head = true →
              (sec = none → exec c s = .next (settle (answerPlain p peer sent.1 id
                (if headClear f sent.2.length = false then ((stMalformed, []), t)
                 else if freeService sent.1 = true then answer 0 t else ((stNotAuthorised, []), t)))))
              ∧ (∀ slot seq, sec = some (slot, seq) →
                let x := t.sess slot
                sessOpen t slot = true → t.num 0x1121 (slot + 1) = p → rq.head.waiting < 4 → seq ≤ max64 →
                x.rxSeq.any (seq ≤ ·) = false →
                let y := (t.setSess slot { x with failPosted := false }).sess slot
                y.cache.find? (fun e => e.1 == id) = none →
                let u := (t.setSess slot { x with failPosted := false }).setSess slot { y with rxSeq := some seq }
                exec c s = .next (settle (if Config.tagOk slot x.key seq (headIn t f sent.1 slot seq sent.2.length ++ sent.2) tag = true
                  then answerSession slot sent.1 id (if headClear f sent.2.length = true then answer 0 u else ((stMalformed, []), u))
                  else authFail p slot t)))))))
  ∧ (∀ (s : State) (k tr i j : Nat), s.Quiet → k < 4 → s.pwr.opened = true → (s.chan k).state ≠ 1 → bit (s.chan k).irq 63 = false →
        linkState s (mailLink s) ≠ 0 → s.dict.closing = [] → readStatus s i j = stOk →
        let v := readBytes s i j
        let b := leBytes 2 v.1 ++ leBytes 2 v.2.length ++ v.2
        let x := s.chan k
        let y : Chan := { state := 2, status := 0, trans := tr % 65536, len := b.length, irq := x.irq, body := putMem x.body 0 b }
        exec (.read { src := .host k, trans := tr } i j) s = .next { s with
          dict := { s.dict with lastStatus := 0, lastBody := b, chans := lset s.dict.chans k y } })

/-- What refuses a WRITE, first to last: no object, not ready, the path, not writable, the type or length, a busy subsystem, the value; and an
allowed one is applied. (The order among the statuses is log entry 22.) A WRITE that is not OK, by a check before it or by the object
itself, writes nothing; so does a DOM_WRITE. (Rests on R477, R479, R482, R484, R498; R477, R482, R484.) -/
def Obligations.WriteChecks : Prop :=
  (∀ (s : State) (path i j type : Nat) (l : List Byte),
        (rowOf i j = none → writeObj path i j type l s = (stNoObject, s))
        ∧ (∀ r, rowOf i j = some r →
          (objReady s i j r.access = false → writeObj path i j type l s = (stNotReady, s))
          ∧ (objReady s i j r.access = true →
            (pathAllowed s path = false ∨ pathConfined path i j = true → writeObj path i j type l s = (stPathDenied, s))
            ∧ (pathAllowed s path = true → pathConfined path i j = false →
              (r.access = 0 → writeObj path i j type l s = (stNotWritable, s))
              ∧ (r.access ≠ 0 →
                (r.type ≠ 11 → type = r.type → l.length = r.size →
                  (objIdle s i j (leNat l) = false → writeObj path i j type l s = (stBusy, s))
                  ∧ (objIdle s i j (leNat l) = true →
                    ((typeTaken r.type (leNat l) l && rangeTaken s i j (leNat l)) = false →
                      writeObj path i j type l s = (stValue, s))
                    ∧ ((typeTaken r.type (leNat l) l && rangeTaken s i j (leNat l)) = true →
                      (applyObj i j (leNat l) l (noteHold s)).1 = stOk →
                      writeObj path i j type l s = applyObj i j (leNat l) l (noteHold s))))
                ∧ (type ≠ r.type → writeObj path i j type l s = (stType, s))
                ∧ (l.length ≠ r.size → writeObj path i j type l s = (stType, s)))))))
  ∧ (∀ (s : State) (path i j type off : Nat) (l : List Byte),
        ((writeObj path i j type l s).1 ≠ stOk → (writeObj path i j type l s).2 = s)
        ∧ ((svcDomWrite path i j off l s).1 ≠ stOk → (svcDomWrite path i j off l s).2 = s))

/-- A CMD write with GO 1 on a channel that is not BUSY runs the request in the channel's body; with GO 0, or while the channel is BUSY, it is
discarded and counted. (Rests on R481, R494, R495.) -/
def Obligations.MailboxCommands : Prop :=
  ∀ (s : State) (core : Bool) (chan link word : Nat), chan < 4 → link < 2 → s.pwr.opened = true →
    (core = false → linkState s link ≠ 0) →
    let c := if core then chan + 4 else chan
    let n := bits word 31 16
    let l := (List.range n).map fun k => tget 0 k (s.chan c).body
    (bit word 0 = false →
      exec (.mailboxCmd core chan link word) s = .next (settle (count 0x58C6 (b2n core + 1) 1 s)))
    ∧ (bit word 0 = true → (s.chan c).state = 1 →
      exec (.mailboxCmd core chan link word) s = .next (settle (count 0x58C6 (b2n core + 1) 1 s)))
    ∧ (bit word 0 = true → (s.chan c).state ≠ 1 → n ≤ 16320 → bits word 55 48 = 0 → bits word 15 1 = 0 →
      exec (.mailboxCmd core chan link word) s = .next (settle (answerChan core chan link (bits word 47 32)
        (runService (if core then 2 else 1) (bits word 63 56) l s))))

/-- The commands that are a write of one object are the WRITE of that object: its checks pass and its own effect, given by `applyObj`,
happens, on a host channel, on a core channel, and, with a tag that passes, on a Camip session. (Rests on R477, R481.) -/
def Obligations.DedicatedWrites : Prop :=
  ∀ (s : State) (rq : Request) (l : List Byte) (c : Instr) (i j : Nat) (r : ObjRow), c.wf = true → rowOf i j = some r →
    ((c = .secReady rq l ∧ i = 0x5401 ∧ j = 1) ∨ (∃ n, c = .camipSessionClose rq n l ∧ i = 0x1123 ∧ j = n + 1)
      ∨ (∃ n, c = .camipEnable rq n l ∧ i = 0x1110 ∧ j = n + 1) ∨ (∃ n, c = .camipNodeId rq n l ∧ i = 0x1111 ∧ j = n + 1)
      ∨ (c = .dictReplayDone rq l ∧ i = 0x1101 ∧ j = 1) ∨ (c = .dictHoldMs rq l ∧ i = 0x1101 ∧ j = 2)
      ∨ (c = .dictPathWrite rq l ∧ i = 0x1102 ∧ j = 1) ∨ (c = .memInitStart rq l ∧ i = 0x2404 ∧ j = 1)
      ∨ (c = .secKeyRevoke rq l ∧ i = 0x5403 ∧ j = 2) ∨ (c = .secSvnCommit rq l ∧ i = 0x5404 ∧ j = 3)
      ∨ (c = .srvTimeReselect rq l ∧ i = 0x6003 ∧ j = 3) ∨ (c = .tnsDieEnable rq l ∧ i = 0x3C00 ∧ j = 2)
      ∨ (∃ n, c = .tnsQuadEnable rq n l ∧ i = 0x3C01 ∧ j = n + 1)
      ∨ (∃ n, c = .tnsCanopyEnable rq n l ∧ i = 0x3C06 ∧ j = n + 1)
      ∨ (∃ n, c = .srvClusterEnable rq n l ∧ i = 0x6001 ∧ j = n + 1)
      ∨ (c = .pwrMemgrpEnable rq l ∧ i = 0x2006 ∧ j = 1) ∨ (c = .pwrLdEnable rq l ∧ i = 0x2006 ∧ j = 2)
      ∨ (c = .pwrInputWPeak rq l ∧ i = 0x2000 ∧ j = 4) ∨ (∃ n, c = .pwrRailTargetMv rq n l ∧ i = 0x2002 ∧ j = n + 1)
      ∨ (c = .tnsSelftestStart rq l ∧ i = 0x3C08 ∧ j = 1)
      ∨ (∃ n q, c = .tnsDqCtrlEnable rq n q l ∧ i = 0x3C28 + n ∧ j = q + 1) ∨ (c = .tnsDqReset rq l ∧ i = 0x3C38 ∧ j = 1)
      ∨ (∃ n, c = .tnsSlotBindBound rq n l ∧ i = 0x3C40 ∧ j = n + 1)
      ∨ (∃ n, c = .tnsSlotBindRelease rq n l ∧ i = 0x3C40 ∧ j = n + 1)
      ∨ (∃ n k, c = .tnsStashPoolPeak rq n k l ∧ i = 0x3C60 + n ∧ j = k + 1)
      ∨ (c = .cohHomeEnableSet rq l ∧ i = 0x2801 ∧ j = 1) ∨ (c = .cohHomeEnableClear rq l ∧ i = 0x2801 ∧ j = 1)
      ∨ (c = .fabPortEnable rq l ∧ i = 0x3000 ∧ j = 1) ∨ (∃ p, c = .fabPortExpect rq p false l ∧ i = 0x3003 ∧ j = p + 1)
      ∨ (∃ p, c = .fabPortExpect rq p true l ∧ i = 0x3004 ∧ j = p + 1)
      ∨ (∃ k, c = .jobCtrlStart rq k ∧ l = [1] ∧ i = jobIx k 0 ∧ j = 2)
      ∨ (∃ k, c = .jobCtrlStop rq k ∧ l = [2] ∧ i = jobIx k 0 ∧ j = 2)
      ∨ (∃ k, c = .jobCtrlSpare rq k ∧ l = [3] ∧ i = jobIx k 0 ∧ j = 2)
      ∨ (∃ k, c = .jobKick rq k l ∧ i = jobIx k 3 ∧ j = 4) ∨ (∃ k, c = .jobSwitch rq k l ∧ i = jobIx k 4 ∧ j = 1)
      ∨ (∃ k, c = .evtRingEnable rq k l ∧ i = 0x5001 ∧ j = k + 1) ∨ (c = .evtGlobalEnable rq l ∧ i = 0x5000 ∧ j = 1)
      ∨ (∃ k, c = .evtRingTarget rq k l ∧ i = 0x5005 ∧ j = k + 1)) →
    let done : Nat → State → Prop := fun path u =>
      writeStatus u path i j r.type l = stOk ∧ (applyObj i j (leNat l) l (noteHold u)).1 = stOk
    let after : State → State := fun u => (applyObj i j (leNat l) l (noteHold u)).2
    s.pwr.opened = true → rq.raw = none →
    (∀ k, rq.src = .host k → linkState s (mailLink s) ≠ 0 → (s.chan k).state ≠ 1 → done 1 s →
      exec c s = .next (settle (answerChan false k (mailLink s) rq.trans ((stOk, []), after s))))
    ∧ (∀ k, rq.src = .core k → (s.chan (k + 4)).state ≠ 1 → done 2 s →
      exec c s = .next (settle (answerChan true k 0 rq.trans ((stOk, []), after s))))
    ∧ (∀ p peer slot seq tag, rq.src = .camip p peer (some (slot, seq)) tag → camipUp s p = true →
      let f : CamipFrame := { peer := peer, secured := some (slot, seq), tag := tag, trans := rq.trans, head := rq.head }
      let t := count 0x58C0 (p + 1) 1 s
      let x := t.sess slot
      camipMine s rq.head 2 = true → headReads rq.head = true →
      sessOpen t slot = true → t.num 0x1121 (slot + 1) = p → rq.head.waiting < 4 → seq ≤ max64 →
      x.rxSeq.any (seq ≤ ·) = false →
      let y := (t.setSess slot { x with failPosted := false }).sess slot
      y.cache.find? (fun e => e.1 == rq.trans % 65536) = none →
      let u := (t.setSess slot { x with failPosted := false }).setSess slot { y with rxSeq := some seq }
      done 0 u → exec c s = .next (settle
        (if Config.tagOk slot x.key seq (headIn t f 2 slot seq (writeReq i j r.type l).length ++ writeReq i j r.type l) tag = true
         then answerSession slot 2 (rq.trans % 65536)
           (if headClear f (writeReq i j r.type l).length = true then ((stOk, []), after u) else ((stMalformed, []), u))
         else authFail p slot t)))

/-- What those writes do to the boot, the dictionary and the fuses. What the writes of CAMIP_ENABLE and CAMIP_NODE_ID do: the port's sessions
close when its enable goes FALSE or its node ID changes, a silenced port drops what it had queued, and its state follows. (Rests on R416,
R490, R500, R507, R508, R520, R521; R485, R490, R503. That a port that is silenced drops its queue is log entry 31's, that the fuses are
blown whole log entry 62's.) -/
def Obligations.BootAndPortObjects : Prop :=
  (∀ (u : State) (v : Nat) (l : List Byte),
        (u.num 0x5400 1 = 4 → u.num 0x1101 3 ≠ 1 →
          applyObj 0x5401 1 v l u = (stOk, post 0x5403 (src 0 2) 0x1F [(8, u.tim.now)] (u.setNum 0x5400 1 5)))
        ∧ ((u.num 0x5400 1 ≠ 4 ∨ u.num 0x1101 3 = 1) → applyObj 0x5401 1 v l u = (stNotReady, u))
        ∧ (let w := u.setNum 0x1101 1 1
           applyObj 0x1101 1 v l u = (stOk, if holdEnded w then w else endHold 2 w))
        ∧ applyObj 0x1101 2 v l u = (stOk, u.setNum 0x1101 2 v)
        ∧ applyObj 0x1102 1 v l u = (stOk, u.setNum 0x1102 1 v)
        ∧ applyObj 0x2404 1 v l u = (stOk, { u with dict := { u.dict with memInit := true } })
        ∧ (∀ slot, applyObj 0x1123 (slot + 1) v l u =
            (stOk, { u with dict := { u.dict with closing := u.dict.closing ++ [(slot, 2)] } }))
        ∧ (u.num 0x5400 1 = 5 →
          (let r := (u.fuses.revoked ||| v) % 16
           bit v u.pwr.mcSlot = false → bit v u.pwr.coreSlot = false → (List.range 4).any (slotLive u r) = true →
           r ≠ u.fuses.revoked % 16 →
           applyObj 0x5403 2 v l u =
             (stOk, post 0x5404 (src 0 2) 0x1F [(1, 0), (1, v)] { u with fuses := { u.fuses with revoked := r } }))
          ∧ (let mc := if bit v 0 then u.fuses.svnMc ||| thermo u.pwr.mcSvn else u.fuses.svnMc
             let core := if bit v 1 then u.fuses.svnCore ||| thermo u.pwr.coreSvn else u.fuses.svnCore
             ¬ (mc = u.fuses.svnMc ∧ core = u.fuses.svnCore) →
             applyObj 0x5404 3 v l u = (stOk, post 0x5404 (src 0 2) 0x1F [(1, 1), (1, v)]
               { u with fuses := { u.fuses with svnMc := mc, svnCore := core } })))
        ∧ applyObj 0x6003 3 v l u = (stOk, if u.tim.timeref then setSource 1 u else u)
        ∧ applyObj 0x2000 4 v l u = (stOk, u.setNum 0x2000 4 v)
        ∧ (∀ n, n < 8 → applyObj 0x2002 (n + 1) v l u = (stOk, u.setNum 0x2002 (n + 1) v)))
  ∧ (∀ (u : State) (p v : Nat) (l : List Byte),
        let quiet : Nat × Out → Bool := fun e => e.1 != p
        let off : State → State := fun w => { w with dict := { w.dict with txq := w.dict.txq.filter quiet } }
        (v ≠ 0 → applyObj 0x1110 (p + 1) v l u = (stOk, refreshCamip p (u.setNum 0x1110 (p + 1) v)))
        ∧ applyObj 0x1110 (p + 1) 0 l u = (stOk, refreshCamip p (closePort p (off (u.setNum 0x1110 (p + 1) 0))))
        ∧ (v ≠ 0 → u.num 0x1111 (p + 1) = v → applyObj 0x1111 (p + 1) v l u = (stOk, refreshCamip p (u.setNum 0x1111 (p + 1) v)))
        ∧ (v ≠ 0 → u.num 0x1111 (p + 1) ≠ v →
          applyObj 0x1111 (p + 1) v l u = (stOk, refreshCamip p (closePort p (u.setNum 0x1111 (p + 1) v))))
        ∧ (u.num 0x1111 (p + 1) ≠ 0 →
          applyObj 0x1111 (p + 1) 0 l u = (stOk, refreshCamip p (off (closePort p (u.setNum 0x1111 (p + 1) 0))))))

/-- What the writes of the enable objects do: an enable that asks for a domain whose needs are not met is refused; an allowed one is stored
and starts what can ramp; homes rise and drain, ports train and go down. What the writes of the queue, slot, pool and job objects do.
(Rests on R123, R124, R250, R251, R266, R292, R295, R423, R542, R543, R554; R152, R156, R192, R369, R373, R378, R387, R403. The order in
which domains ramp is log entry 53's, the drain of a home log entry 60's, a queue's reset log entry 64's, a slot's binding log entry 65's,
the training of a port log entry 77's, and the boundary step that a switch names log entry 136's.) -/
def Obligations.EnableAndQueueObjects : Prop :=
  (∀ (u : State) (v : Nat) (l : List Byte),
        (∀ i j, (i = 0x3C01 ∨ i = 0x3C06 ∨ i = 0x6001 ∨ (i = 0x2006 ∧ j = 2)
            ∨ (i = 0x3C00 ∧ j = 2 ∧ (bitList v 8).all (bit (u.num 0x3C00 1)) = true)) →
          let t := u.setNum i j v
          let asked := allDomains.filter fun d => domWanted t d && !domWanted u d
          (asked.all (mayEnable t) = true → applyObj i j v l u = (stOk, rampAll asked t))
          ∧ (asked.all (mayEnable t) = false → applyObj i j v l u = (stValue, u)))
        ∧ (let t := u.setNum 0x2006 1 v
           let asked := allDomains.filter fun d => domWanted t d && !domWanted u d
           asked.all (mayEnable t) = true → applyObj 0x2006 1 v l u = (stOk, closeGroups (rampAll asked t)))
        ∧ ((bitList v 8).all (bit (u.num 0x3C00 1)) = false → applyObj 0x3C00 2 v l u = (stValue, u))
        ∧ ((bitList v 8).all (dieReady u) = true →
          applyObj 0x3C08 1 v l u = (stOk, (bitList v 8).foldl
            (fun w n => (w.setDie n { w.die n with testing := true }).setNum 0x3C09 (n + 1) 0) u))
        ∧ (let old := u.num 0x2801 1
           let rising := (List.range 8).filter fun n => bit v n && !bit old n
           let falling := (List.range 8).filter fun n => !bit v n && bit old n
           rising.all (homeOnAllowed u) = true →
           applyObj 0x2801 1 v l u = (stOk, falling.foldl (fun w n => if w.homeState n = 1 then drainHome n w else w)
             (rising.foldl (fun w n => w.setNum 0x2800 (n + 1) 1) (u.setNum 0x2801 1 v))))
        ∧ (let old := u.num 0x3000 1
           let rising := allPorts.filter fun p => bit v p && !bit old p
           let falling := allPorts.filter fun p => !bit v p && bit old p
           v < 2 ^ 24 → (rising.all fun p => mayEnable u (domOfPort p)) = true →
           applyObj 0x3000 1 v l u = (stOk, rising.foldl (fun w p => rampDomain (domOfPort p) (startTraining p w))
             (falling.foldl (fun w p => disablePort p w) (u.setNum 0x3000 1 v))))
        ∧ (∀ p, p < 24 →
          (let w := u.setNum 0x3003 (p + 1) v
           applyObj 0x3003 (p + 1) v l u = (stOk, if portState w p = 5 then startTraining p w else w))
          ∧ (v < 24 ∨ v = 0xFF →
            let w := u.setNum 0x3004 (p + 1) v
            applyObj 0x3004 (p + 1) v l u = (stOk, if portState w p = 5 then startTraining p w else w))))
  ∧ (∀ (u : State) (v : Nat) (l : List Byte),
        (∀ n q, n < 8 → q < 32 →
          (dqOn u n q = false → bits v 30 4 = 0 → bit v 31 = false →
            applyObj (0x3C28 + n) (q + 1) v l u = (stOk, u.setNum (0x3C28 + n) (q + 1) v))
          ∧ (dqOn u n q = true → v ≠ dqCtrl u n q → applyObj (0x3C28 + n) (q + 1) v l u = (stBusy, u))
          ∧ (bits v 10 8 = n → bits v 4 0 = q → bits v 15 11 = 0 → bits v 7 5 = 0 → dqOn u n q = true →
            let w := if dqState u n q = 1 then stopReset n q u else u
            applyObj 0x3C38 1 v l u = (stOk, abortOps n (fun o => o.queue == q && o.partOf.isNone)
              (w.setQueue n q { w.queue n q with resetting := true }))))
        ∧ (∀ k, bits v 6 5 ≤ 1 →
          (bit v 7 = true → slotFree u k = true → applyObj 0x3C40 (k + 1) v l u = (stOk, u.setNum 0x3C40 (k + 1) (setBit v 4 false)))
          ∧ (bit v 7 = true → slotFree u k = false → applyObj 0x3C40 (k + 1) v l u = (stValue, u))
          ∧ (bit v 7 = false → bit (slotBind u k) 7 = true →
            applyObj 0x3C40 (k + 1) v l u = (stOk, u.setNum 0x3C40 (k + 1) (slotBind u k - 128 + 16))))
        ∧ (∀ n j, n < 8 → applyObj (0x3C60 + n) (j + 1) 0 l u = (stOk, u.setNum (0x3C60 + n) (j + 1) (u.num (0x3C58 + n) (j + 1))))
        ∧ (∀ j, j < 16 →
          (u.jobState j = 0 → applyObj (jobIx j 0) 2 1 l u = (stOk, startJob false j u)
            ∧ applyObj (jobIx j 0) 2 3 l u = (stOk, startJob true j u))
          ∧ (u.jobState j ≠ 0 → applyObj (jobIx j 0) 2 1 l u = (stBusy, u) ∧ applyObj (jobIx j 0) 2 3 l u = (stBusy, u)
            ∧ applyObj (jobIx j 0) 2 2 l u = (stOk, stopJob j u))
          ∧ applyObj (jobIx j 3) 4 1 l u = (stOk, armWatchdog j u)
          ∧ (isCoord u j = true → u.jobState j = 2 → u.num (jobIx j 4) 2 ≠ 0 →
            let x := u.job j
            let w := u.setJob j { x with coord := { x.coord with switchDue := true, prismSent := false, prisms := [], planHashes := [] } }
            applyObj (jobIx j 4) 1 1 l u = (stOk, sendSigned j 0x26 160
              (leBytes 1 (b2n ((w.job j).desc.kind != 0)) ++ [0] ++ leBytes 8 (boundaryStep w j)) (membersOf w j) w))))

/-! ### Camip, events and registers -/

/-- An SPDM message is taken on a Camip port from the opening of the dictionary, in an unsecured frame or in one of an open session whose
checks pass, like a service; over DOE it is taken from ready, and its answer goes to that link's host. A FINISH for a session of the other
port is counted as received and dropped. An answer above 1460 bytes is fetched in chunks, and a CHUNK_SEND that is not the last is only
acknowledged. What the session messages do on a Camip port: KEY_EXCHANGE takes the lowest free slot with a session ID and new keys, a FINISH
whose proof holds under one of the requester roots of its KEY_EXCHANGE opens it and any other frees it, KEY_UPDATE renews the keys of an
open session, and END_SESSION closes it once its answer is sent; with no slot free KEY_EXCHANGE is answered with the ERROR
SessionLimitExceeded. GET_DIGESTS and GET_CERTIFICATE answer with slot 0's chain of root, device and alias certificate,
NEGOTIATE_ALGORITHMS with the algorithms of R488, and GET_MEASUREMENTS with the block asked for, signed with the alias key. (Rests on R486 to
R489, R491, R523; R488, R489, R505, R523 to R525. The layouts and codes of SPDM are log entry 16's; which session messages need which state is
log entry 30's, the breaches of R486 log entry 32's, DOE log entry 34's.) -/
def Obligations.SpdmAndSessions : Prop :=
  (∀ (s : State) (p : Nat) (m : SpdmMsg) (l : List Byte) (f : CamipFrame), spdmOk m = true → frameSlotOk f = true →
        let c : Instr := .spdm p { msg := m, bytes := l, frame := f }
        let take : Option (Nat × Nat) → State → Answer := fun sec w => fitted p 1460 (spdmTake p sec m w)
        (p < 2 → wrongPort s p m = true → exec c s =
          .next (settle (if camipUp s p = true ∧ camipMine s f.head 0x10 = true then count 0x58C0 (p + 1) 1 s else s)))
        ∧ (p < 2 → camipUp s p = true → wrongPort s p m = false → camipMine s f.head 0x10 = true → headReads f.head = true →
          let id := f.trans % 65536
          let t := count 0x58C0 (p + 1) 1 s
          (f.secured = none → exec c s = .next (settle
            (answerPlain p f.peer 0x10 id (if headClear f l.length = true then take none t else ((stMalformed, []), t)))))
          ∧ (∀ slot seq, f.secured = some (slot, seq) →
            let x := t.sess slot
            sessOpen t slot = true → t.num 0x1121 (slot + 1) = p → f.head.waiting < 4 → seq ≤ max64 →
            x.rxSeq.any (seq ≤ ·) = false →
            let y := (t.setSess slot { x with failPosted := false }).sess slot
            y.cache.find? (fun e => e.1 == id) = none →
            let u := (t.setSess slot { x with failPosted := false }).setSess slot { y with rxSeq := some seq }
            exec c s = .next (settle (if Config.tagOk slot x.key seq (headIn t f 0x10 slot seq l.length ++ l) f.tag = true
              then answerSession slot 0x10 id
                (if headClear f l.length = true then take (some (slot, seq)) u else ((stMalformed, []), u))
              else authFail p slot t))))
        ∧ (2 ≤ p → p < 4 → packageReady s = true → linkExists s (p - 2) = true → linkState s (p - 2) ≠ 0 →
          exec c s = .next (settle ((take none s).2.emit (.pcieCpl (p - 2) 0 (take none s).1.2)))))
  ∧ (∀ (u : State) (p : Nat),
        (∀ (a : Answer) room, a.1.2.length ≤ room → fitted p room a = a)
        ∧ (∀ sec m h q, (q = 0 ∨ u.dict.chunks.contains (p, h, q) = true) → m.chunk = some (h, q, false) →
          spdmServe p sec m u = ((stOk, spdmHead 0x05 0 h ++ leBytes 2 q),
            { u with dict := { u.dict with chunks := (p, h, q + 1) :: u.dict.chunks.filter (·.1 != p) } })))
  ∧ (∀ (u : State) (p : Nat), p < 2 →
        (∀ peer sec slot, freeSession u = some slot → spdmTake p sec (.keyExchange peer) u =
          keyExchangeReply slot
            (let roots := ((upTo 1 4).map fun j => u.oct 0x5406 j).filter fun h => !h.all (· == 0)
             let w := u.setSess slot { Sess.init with id := Config.freeNat u.free % 2 ^ 32, key := u.free + 1, roots := roots }
             let w := { w with free := u.free + 2 }
             ((w.setNum 0x1120 (slot + 1) 1).setNum 0x1121 (slot + 1) p).setOct 0x1122 (slot + 1) (sliceOf peer 0 6)))
        ∧ (∀ peer sec, freeSession u = none → spdmTake p sec (.keyExchange peer) u = spdmError 0x0A 0 u)
        ∧ (∀ sec slot root ok, sessionAt u p slot 1 = true →
          (ok = true → (u.sess slot).roots.contains root = true → spdmTake p sec (.finish slot root ok) u =
            finishReply (deliverAll (post 0x1001 (src 0 0) 0x1F
              [(1, p), (1, slot), (6, leNat (u.oct 0x1122 (slot + 1)))] (u.setNum 0x1120 (slot + 1) 2))))
          ∧ ((ok = false ∨ (u.sess slot).roots.contains root = false) → spdmTake p sec (.finish slot root ok) u =
            spdmError 0x06 0 (closeSession slot 0 u)))
        ∧ (∀ slot seq, sessionAt u p slot 2 = true →
          spdmTake p (some (slot, seq)) (.keyUpdate slot) u = updateReply
            (let w := u.setSess slot { u.sess slot with key := u.free }
             { w with free := w.free + 1 })
          ∧ spdmTake p (some (slot, seq)) (.endSession slot) u =
            spdmReply (spdmHead 0x6C 0 0) { u with dict := { u.dict with closing := u.dict.closing ++ [(slot, 0)] } })
        ∧ (∀ sec b v, measurementOf u b = some v → spdmTake p sec (.measurement b) u =
            (let n := Config.freeNat u.free
             let form := leNat (spdmOwn n 0xE0 b 1) % 128 + 128 * b2n v.1
             let block := leBytes 1 b ++ leBytes 1 1 ++ leBytes 2 (v.2.length + 3) ++ leBytes 1 form ++ leBytes 2 v.2.length ++ v.2
             let l := [0x12, 0x60, 0, 0, 1] ++ leBytes 3 block.length ++ block ++ spdmOwn n 0xE0 0 32 ++ [0, 0]
             ((stOk, l ++ sliceOf (Config.sign u.pwr.aliasKey n l) 0 96), { u with free := u.free + 1 })))
        ∧ (∀ sec body,
          let certs := u.oct 0x1001 3 ++ u.oct 0x1001 1 ++ u.oct 0x1001 4
          let chain := leBytes 2 (52 + certs.length) ++ [0, 0] ++ sha384 (u.oct 0x1001 3) ++ certs
          spdmTake p sec (.attest 0x81 body) u = ((stOk, [0x12, 0x01, 0, 1] ++ sha384 chain), u)
          ∧ spdmTake p sec (.attest 0xE3 body) u = ((stOk, algorithms), u)
          ∧ (∀ off n, off < chain.length → off < 2 ^ 16 → n < 2 ^ 16 →
            let k := min n (chain.length - off)
            spdmTake p sec (.attest 0x82 ([0, 0] ++ leBytes 2 off ++ leBytes 2 n)) u =
              ((stOk, [0x12, 0x02, 0, 0] ++ leBytes 2 k ++ leBytes 2 (chain.length - off - k) ++ sliceOf chain off k), u))))

/-- IDENT is answered without a session, at once while PLCA status is TRUE; the loss of the beacon is reported and holds the port's frames
back, and its return sends them, responses first. A session whose idle time has passed, in its handshake or open, closes: its slot is
free, its cache and addresses are gone, and it is reported with cause 1. A due repeat sends the ring's NOTIFY frame to its session again,
with its PROD and LAST_SEQ, and changes no state of the ring; when none is due nothing happens. (Rests on R481, R485, R486, R487, R492;
R490, R505; R493. That a session in its handshake is reported is log entry 30's, the queue of a silent port log entry 31's, the breaches of
R486 log entry 32's, and what AES-256-GCM makes of a frame log entry 16's.) -/
def Obligations.IdentPlcaAndNotify : Prop :=
  (∀ (s : State) (p : Nat), p < 2 →
        (∀ f, f.secured = none → camipUp s p = true → camipMine s f.head 0x11 = true → headReads f.head = true →
          let t := count 0x58C0 (p + 1) 1 s
          let b := t.oct 0x1000 3 ++ leBytes 1 (t.num 0x1000 2) ++ leBytes 1 (t.num 0x1111 (p + 1)) ++ leBytes 2 p ++ t.oct 0x1115 (p + 1)
          exec (.ident p f) s = .next (settle (answerPlain p f.peer 0x11 (f.trans % 65536)
            ((if headClear f 0 = true then (stOk, b) else (stMalformed, [])), t))))
        ∧ (lget false s.dict.plca p = true →
          let u := refreshCamip p { s with dict := { s.dict with plca := lset s.dict.plca p false } }
          u.num 0x1111 (p + 1) ≠ 0 →
          exec (.plcaBeaconLost p) s = .next (settle (post 0x1004 (src 0 0) 0x1F [(1, p)] u)))
        ∧ (s.pwr.opened = true → s.on domNet = true →
          let mine := (s.dict.txq.filter (·.1 == p)).map (·.2)
          let rest := s.dict.txq.filter (·.1 != p)
          exec (.plcaStatusTrue p) s = .next (settle
            ((mine.filter isResponse ++ mine.filter (fun o => !isResponse o)).foldl (fun u o => camipSend p o u)
              (refreshCamip p { s with dict := { s.dict with plca := lset s.dict.plca p true, txq := rest } })))))
  ∧ (∀ (s : State) (k : Nat), s.Quiet → k < 16 → timeRuns s = true →
        (s.num 0x1120 (k + 1) = 0 → exec (.camipSessionIdleTimeout k) s = .next s)
        ∧ (s.num 0x1120 (k + 1) ≠ 0 →
          exec (.camipSessionIdleTimeout k) s = .next (settle
            (let u := post 0x1002 (src 0 0) 0x1F [(1, s.num 0x1121 (k + 1)), (1, k), (1, 1)] s
             let w := ((u.setNum 0x1120 (k + 1) 0).setNum 0x1121 (k + 1) 0xFF).setOct 0x1122 (k + 1) (List.replicate 6 0)
             w.setSess k { Sess.init with key := (w.sess k).key }))))
  ∧ (∀ (s : State) (k : Nat), s.Quiet → k < 64 →
        (repeatDue s k = false → exec (.notifyRepeat k) s = .next s)
        ∧ (let slot := bits (s.num 0x5005 (k + 1)) 39 36
           let p := s.num 0x1121 (slot + 1)
           let x := s.sess slot
           let body := leBytes 4 k ++ leBytes 4 (ringProd s k) ++ leBytes 8 (s.ring k).lastSeq
           let h := camipHeader 0x10 8 0xC0 0 x.id x.txSeq 0 16 0
           let o : Out := .camip p true (etherFrame s p (s.oct 0x1122 (slot + 1)) (h ++ sliceOf (Config.gcmSeal x.key x.txSeq h body) 0 32))
           repeatDue s k = true → x.txSeq ≤ max64 → lget false s.dict.plca p = false →
           exec (.notifyRepeat k) s = .next
             (let u := s.setSess slot { x with txSeq := x.txSeq + 1 }
              { u with dict := { u.dict with txq := u.dict.txq ++ [(p, o)] } })))

/-- A well-formed post of software is offered, with SOURCE set by the package, to each ring that is enabled and whose filter takes it; a
malformed one is counted as dropped; before the dictionary opens nothing is posted. An event that no ring takes is counted and lost, but for
the report of a loss that its own ring holds; each ring that takes it gets a record in ascending number of the ring, or, when it is full,
remembers the loss. (Rests on R462, R464; R464, R465, R466. The bound of `settle` is log entry 24's, that a ring's report of its loss goes to
the other rings log entry 35's, and that software posts only then log entry 37's.) -/
def Obligations.PostsAreOffered : Prop :=
  (∀ (s : State) (h w : Nat), s.Quiet → h < 72 →
        (s.pwr.opened = true → postGood w = true →
          exec (.eventPost h w) s = .next (drainEvents 0x100000000 (offer (postedEvent s h w) s))
          ∧ (postedEvent s h w).code = bits w 39 24 ∧ (postedEvent s h w).source = src 2 h)
        ∧ (s.pwr.opened = true → postGood w = false → exec (.eventPost h w) s = .next (settle (count 0x58B2 1 1 s)))
        ∧ (s.pwr.opened = false → exec (.eventPost h w) s = .next s))
  ∧ (∀ (s : State) (e : Ev),
        (takers s e = [] → offer e s = if ownRing s e = true then s else count 0x58B2 1 1 s)
        ∧ (ownRing s e = true ↔ ∃ k, e.except = some k ∧ ringOn s k = true ∧ filterMatch s k e = true)
        ∧ (takers s e ≠ [] → offer e s = (takers s e).foldl (fun u k =>
            if ringFull u k then loseRecord k u else writeRecord k e u) s)
        ∧ (∀ k, k ∈ takers s e ↔ k < 64 ∧ ringOn s k = true ∧ filterMatch s k e = true ∧ e.except ≠ some k))

/-- A record whose write and whose shadow write succeed is counted, PROD goes one slot on, LAST_SEQ is the record's SEQ, an edge and a
delivery follow if the ring was empty, and SEQ goes on; one that cannot be written disables the ring. A PENDING ring is delivered, while
interrupts are enabled, by IMSIC to a hart of a powered cluster, by MSI-X to an attached host, and by NOTIFY to an open session that has a
SEQ left, each where its target enables it; the ring is then ACTIVE; with no target able to take it, it stays. (Rests on R465, R467; R468,
R469. That a masked MSI-X entry counts as sent is log entry 36's.) -/
def Obligations.RecordsAndDelivery : Prop :=
  (∀ (s : State) (k : Nat) (e : Ev),
        let seq := s.num 0x500A (k + 1)
        let prod := ringProd s k
        let next := (prod + 1) % ringSlots s k
        let r1 := tryWrite (ringBase s k + 32 * prod) (recordOf seq e) s
        let r2 := tryWrite (ringShadow s k) (leBytes 8 next ++ leBytes 8 seq) r1.2
        (r1.1 = true → r2.1 = true →
          let u := count 0x58B0 (k + 1) 1 (r2.2.setNum 0x5009 (k + 1) next)
          let u := u.setRing k { u.ring k with lastSeq := seq }
          writeRecord k e s = takeSeq k (if prod = ringCons s k then edge k u else u))
        ∧ (r1.1 = false → writeRecord k e s = ringFailed k seq (takeSeq k r1.2))
        ∧ (r1.1 = true → r2.1 = false → writeRecord k e s = ringFailed k seq (takeSeq k r2.2)))
  ∧ (∀ (s : State) (k : Nat),
        let t := s.num 0x5005 (k + 1)
        let im := bit t 63 && hartOn s (bits t 60 54)
        let ms := bit t 62 && msixReady s (bits t 40 40)
        let no := bit t 61 && sessOpen s (bits t 39 36) && decide ((s.sess (bits t 39 36)).txSeq ≤ max64)
        ((s.num 0x5000 1 ≠ 1 ∨ s.num 0x5008 (k + 1) ≠ 1) → deliver k s = s)
        ∧ (s.num 0x5000 1 = 1 → s.num 0x5008 (k + 1) = 1 →
          (im = false → ms = false → no = false → deliver k s = s)
          ∧ ((im || ms || no) = true →
            let u := if im then sendImsic (bits t 60 54) (imsicFile (bits t 53 52) (bits t 51 49)) (bits t 48 41) s else s
            let u := if ms then sendMsix (bits t 40 40) k u else u
            let u := if no then sendNotify (bits t 39 36) k u else u
            deliver k s = u.setNum 0x5008 (k + 1) 2)))

/-- A CONS write that is below 2^s and not past PROD moves CONS, and first reports what a full ring lost; any other is rejected. DONE makes an
ACTIVE ring PENDING again unless it is empty, and an ACTIVE_AND_PENDING one PENDING, and delivery is tried; otherwise it does nothing.
What the writes of the ring objects do: an enable zeroes the indices and the shadow line of a ring that is placed and has numbers left, a
disable discards what was pending, and the global enable that becomes TRUE and a new target try delivery. (Rests on R466, R467; R463,
R468, R469, R470, R473. Where the report of a loss goes, and the enable of a ring that is enabled, are log entry 35's.) -/
def Obligations.RingMoves : Prop :=
  (∀ (s : State) (k v : Nat), s.Quiet → k < 64 →
        let n := ringSlots s k
        let ahead : Nat → Nat := fun x => (x + n - ringCons s k % n) % n
        (v < n → ahead v ≤ ahead (ringProd s k) →
          exec (.evtRingCons k v) s = .next (settle (lostRecord k (s.setNum 0x5006 (k + 1) v)))
          ∧ ((s.ring k).lostSince = 0 → exec (.evtRingCons k v) s = .next (s.setNum 0x5006 (k + 1) v)))
        ∧ ((n ≤ v ∨ ahead (ringProd s k) < ahead v) → exec (.evtRingCons k v) s = .next s)
        ∧ (s.num 0x5008 (k + 1) = 2 → exec (.evtRingDone k) s =
            .next (settle (deliver k (s.setNum 0x5008 (k + 1) (if ringProd s k = ringCons s k then 0 else 1)))))
        ∧ (s.num 0x5008 (k + 1) = 3 → exec (.evtRingDone k) s = .next (settle (deliver k (s.setNum 0x5008 (k + 1) 1))))
        ∧ (s.num 0x5008 (k + 1) < 2 → exec (.evtRingDone k) s = .next s))
  ∧ (∀ (u : State) (k v : Nat) (l : List Byte),
        (applyObj 0x5001 (k + 1) 0 l u = (stOk,
          let w := (u.setNum 0x5001 (k + 1) 0).setNum 0x5008 (k + 1) 0
          w.setRing k { w.ring k with firstLost := none, lostSince := 0 }))
        ∧ (let r := tryWrite (ringShadow u k) (List.replicate 64 0) u
           ringBaseOk u (u.num 0x5002 (k + 1)) = true → ringShadowOk u (ringShadow u k) = true → u.num 0x500A (k + 1) ≠ 0 → r.1 = true →
           applyObj 0x5001 (k + 1) 1 l u = (stOk,
            ((((r.2.setNum 0x5009 (k + 1) 0).setNum 0x5006 (k + 1) 0).setNum 0x5008 (k + 1) 0).setNum 0x5001 (k + 1) 1).setRing k Ring.init))
        ∧ ((ringBaseOk u (u.num 0x5002 (k + 1)) = false ∨ u.num 0x500A (k + 1) = 0) → applyObj 0x5001 (k + 1) 1 l u = (stValue, u))
        ∧ (u.num 0x5000 1 = 0 →
          applyObj 0x5000 1 v l u = (stOk, (List.range 64).foldl (fun w n => deliver n w) (u.setNum 0x5000 1 v)))
        ∧ (u.num 0x5000 1 ≠ 0 → applyObj 0x5000 1 v l u = (stOk, u.setNum 0x5000 1 v))
        ∧ applyObj 0x5005 (k + 1) v l u = (stOk, deliver k (u.setNum 0x5005 (k + 1) v)))

/-- An aligned store of a hart in the control window that the PMP of the hart lets pass is the doorbell, register, post or channel command of
its address; in a doorbell page one of any width but 32 bits is discarded; one that the PMP forbids, or at a hole, traps with a store
access fault. One to the host window is a posted write of its own bytes, or where its link takes none, is discarded and counted. (What a
PMP forbids, and the trap, are log entry 119's; which widths a register takes, and the hole of an unassigned offset, log entry 38's; the
count of a store that its link does not take, log entry 39's; the registers of an IMSIC page, log entry 23's.) A store through BAR0 of a link that is up reaches the same doorbells once the package is
ready; before that only the mailbox and the MSI-X table are served, and a store that is refused, or at an unassigned offset, is counted
and has no other effect. (Rests on R135, R194, R195, R289, R304, R346, R412, R414, R415, R419, R438, R447, R462, R473, R495; R430, R509.) -/
def Obligations.WindowStores : Prop :=
  (∀ (s : State) (g v : Nat), s.pwr.on = true → g < 72 →
        let at_ : Nat → Nat → Instr := fun o w => .controlRegisterWrite (.hart g) (0x30000000000 + o) w v
        (∀ o w, storeWidth w = true → o < 0x10000000000 →
          ((s.hart g).pmpOk (0x30000000000 + o) w true = false ∨ ctrlAssigned o = false) →
          exec (at_ o w) s = .next (settle (s.setHart g ((s.hart g).trap 7 (0x30000000000 + o)))))
        ∧ (∀ a w, storeWidth w = true → a < 0x30000000000 ∨ 0x40000000000 ≤ a → (s.hart g).pmpOk a w true = true →
          (∀ b, hostOf s a = some b →
            exec (.controlRegisterWrite (.hart g) a w v) s = .next (settle (postEach true b (leBytes w v) s))
            ∧ (∀ k, hostParts s b (leBytes w v).length = [(k, b, w)] → linkAttached s k = false →
              exec (.controlRegisterWrite (.hart g) a w v) s = .next (settle (count 0x58A1 (k + 1) 1 s)))
            ∧ (∀ k, hostParts s b (leBytes w v).length = [(k, b, w)] → linkAttached s k = true →
              exec (.controlRegisterWrite (.hart g) a w v) s = .next (settle
                ((s.setHlink k { s.hlink k with posted := (s.hlink k).posted ++ [(b, leBytes w v, none)] }).emit
                  (.pcieWrite k b (leBytes w v) false)))))
          ∧ (hostOf s a = none → memOk s (lineOf a) = false →
            exec (.controlRegisterWrite (.hart g) a w v) s = .next (settle (s.setHart g ((s.hart g).trap 7 a)))))
        ∧ (let ok : Nat → Nat → Prop := fun o w => (s.hart g).pmpOk (0x30000000000 + o) w true = true
        (∀ n q, n < 8 → q < 32 → ok (0x1000 * n + 8 * q) 4 → exec (at_ (0x1000 * n + 8 * q) 4) s = exec (.tnsDoorbell n q v) s)
        ∧ (∀ o w, (w = 1 ∨ w = 2 ∨ w = 8) → (o < 0x8000 ∨ (0x10000 ≤ o ∧ o < 0x11000)) → ok o w → exec (at_ o w) s = .next (settle s))
        ∧ (∀ j, j < 16 →
          (ok (0x10000 + 8 * j) 4 → exec (at_ (0x10000 + 8 * j) 4) s = exec (.sendDoorbell j v) s)
          ∧ (ok (0x10100 + 8 * j) 4 → exec (at_ (0x10100 + 8 * j) 4) s = exec (.colDoorbell j v) s)
          ∧ (ok (0x10200 + 8 * j) 4 → exec (at_ (0x10200 + 8 * j) 4) s = exec (.luDoorbell j v) s))
        ∧ (∀ h, h < 72 →
          (1 ≤ v → v ≤ 255 → s.on (domHdUncore (h / 36)) = true → ok (0x100000 + 0x1000 * h) 4 → exec (at_ (0x100000 + 0x1000 * h) 4) s = .next (settle (sendImsic h 0 v s)))
          ∧ (ok (0x500000 + 8 * h) 8 → exec (at_ (0x500000 + 8 * h) 8) s = .next (settle
            (let x := s.hart h
             s.setHart h { x with mtimecmp := v % 2 ^ 64, timerM := x.timerM && decide (v % 2 ^ 64 ≤ s.tim.now) })))
          ∧ (ok (0x510000 + 16 * h) 8 → exec (at_ (0x510000 + 16 * h) 8) s = exec (.hartStartPc h (v % 2 ^ 64)) s)
          ∧ (ok (0x510008 + 16 * h) 8 →
            exec (at_ (0x510008 + 16 * h) 8) s = .next (settle (s.setHart h { s.hart h with arg := v % 2 ^ 64 })))
          ∧ (ok (0x600008 + 32 * h) 8 → exec (at_ (0x600008 + 32 * h) 8) s = exec (.eventPost h v) s))
        ∧ (∀ k, k < 64 →
          (ok (0x610000 + 16 * k) 4 → exec (at_ (0x610000 + 16 * k) 4) s = exec (.evtRingCons k (v % 2 ^ 32)) s)
          ∧ (ok (0x610008 + 16 * k) 4 → exec (at_ (0x610008 + 16 * k) 4) s = exec (.evtRingDone k) s))
        ∧ (∀ c, c < 4 → ok (0x700000 + 0x4000 * c) 8 → exec (at_ (0x700000 + 0x4000 * c) 8) s = exec (.mailboxCmd true c 0 v) s)))
  ∧ (∀ (s : State) (k v : Nat), s.Quiet → s.pwr.on = true → k < 2 → barReach s k = true →
        (∀ n q, packageReady s = true → n < 8 → q < 32 →
          exec (.controlRegisterWrite (.bar0 k) (0x1000 * n + 8 * q) 4 v) s = exec (.tnsDoorbell n q v) s)
        ∧ (∀ c, c < 4 → exec (.controlRegisterWrite (.bar0 k) (0x200000 + 0x4000 * c) 8 v) s = exec (.mailboxCmd false c k v) s)
        ∧ (∀ o w, storeWidth w = true → o < 0x4000000 → (barAssigned o = false ∨ (packageReady s = false ∧ barEarly o = false)) →
          exec (.controlRegisterWrite (.bar0 k) o w v) s = .next (settle (inboundErr k s))))

/-! ### Tensor dies -/

/-- A doorbell of a running queue sets PROD, or, past the end of the ring, stops the queue (and faults its job where the shadow line cannot be
written, R588); on a queue that does not run it is counted and changes nothing else. A queue under reset with nothing in flight is
disabled and empty; a releasing slot that no operation names is free, its pages back with its job. Neither changes anything else. (Rests
on R135; R152, R156. What a queue under reset keeps is log entry 64's, a releasing slot log entry 65's.) -/
def Obligations.DoorbellsAndReset : Prop :=
  (∀ (s : State) (n q v : Nat), s.Quiet → n < 8 → q < 32 →
        let p := v % 2 ^ 32
        (dqState s n q = 1 → sub32 p (s.queue n q).cons ≤ dqSlots s n q →
          exec (.tnsDoorbell n q v) s = .next (s.setQueue n q { s.queue n q with prod := p }))
        ∧ (dqState s n q = 1 → dqSlots s n q < sub32 p (s.queue n q).cons →
          exec (.tnsDoorbell n q v) s = .next (settle (stopQueueOr n q 1 0 s)))
        ∧ (dqState s n q ≠ 1 → exec (.tnsDoorbell n q v) s = .next (settle (count 0x5907 (n + 1) 1 s))))
  ∧ (∀ (s : State), s.Quiet →
        (∀ n q, n < 8 → q < 32 → (s.queue n q).resetting = true → (s.queue n q).order.all (·.2) = true →
          ((s.die n).ops.all fun o => !(o.queue == q && o.partOf.isNone)) = true →
          let u := putDqOr n q 0 s
          exec (.dqResetDone n q) s = .next (settle
            ((u.setNum (0x3C28 + n) (q + 1) (dqCtrl u n q % 2 ^ 31)).setQueue n q DQ.init)))
        ∧ (∀ k, k < 32 → bit (slotBind s k) 4 = true →
          (s.dies.any fun d => d.ops.any fun o => o.slotEn && o.slot == k) = false →
          let j := slotBind s k % 16
          let x := s.job j
          exec (.slotReleaseDone k) s = .next
            ((s.setJob j { x with front := { x.front with pages := tset [] k [] x.front.pages } }).setNum 0x3C40 (k + 1) 0)))

/-- A die takes a descriptor from the queue whose turn it is: CQ_HEAD is read, and with room in the completion ring the descriptor; the
operation gets the next ISN, goes to the end of the die's operations and of the queue's order, CONS goes one on and is written to the
shadow line; with no queue to take from, with 512 operations in flight, or with the last ISN used (R472), nothing happens. A descriptor
that breaks its form completes with MALFORMED and the offset, one outside its job with ACCESS_ERROR, and any other waits to start. (Rests
on R134, R137, R143, R472; R137, R148, R151. That the two reads and the taking are one step is log entry 69's, which structures may lie in
host memory log entry 68's, and the uncounted effect of an error in the queue's SRAM log entry 118's.) -/
def Obligations.DescriptorsAreTaken : Prop :=
  (∀ (s : State) (n q : Nat), s.Quiet → n < 8 → (s.die n).testing = false →
        ((s.die n).ops.length < 512 → (s.die n).nextIsn ≤ max64 → nextQueue s n = some q → takeHost s n q = [] →
          exec (.descriptorTake n) s = .next (settle (takeRead n q s))
          ∧ ∀ (l raw : List Byte) (u t : State), queueRead n q (dqShadow s n q + 8) 4 s = (.ok l, u) → cqRoom u n q (leNat l) = true →
              queueRead n q (dqBase u n q + 256 * ((u.queue n q).cons % dqSlots u n q)) 256 (sramRead n 3 q 0x7F u).2 = (.ok raw, t) →
              takeRead n q s = takeOp n q raw t)
        ∧ ((s.die n).ops.length < 512 → nextQueue s n = none → exec (.descriptorTake n) s = .next s)
        ∧ ((512 ≤ (s.die n).ops.length ∨ max64 < (s.die n).nextIsn) → exec (.descriptorTake n) s = .next s)
        ∧ (∀ raw, let o := admitOp s n q (newOp (s.die n).nextIsn q raw)
            (o.phase = .done ∨ (o.dies n).filter (· != n) = []) →
            let x := s.queue n q
            let u := s.setDie n { s.die n with nextIsn := (s.die n).nextIsn + 1, ops := (s.die n).ops ++ [o], round := [q] }
            let y : DQ := { x with cons := add32 x.cons 1, taken := add32 x.taken 1, order := x.order ++ [(o.isn, false)], asked := false }
            takeOp n q raw s = queuePut n q (dqShadow s n q) (leBytes 4 (add32 x.cons 1)) (noteSlot o.slot (u.setQueue n q y))))
  ∧ (∀ (s : State) (n q : Nat) (o : Op),
        (∀ d, firstBroken (opChecks n o) = some d → admitOp s n q o = { o with phase := .done, status := 1, detail := d })
        ∧ (firstBroken (opChecks n o) = none → outsideJob s n q o = true → admitOp s n q o = { o with phase := .done, status := 2 })
        ∧ (firstBroken (opChecks n o) = none → outsideJob s n q o = false → o.phase = .waiting →
            (admitOp s n q o).phase = .waiting ∧ (admitOp s n q o).status = o.status ∧ (admitOp s n q o).isn = o.isn))

/-- The notice of a split operation gives the part the die's next ISN and its place among the die's operations; without a notice, or with 512
operations in flight, nothing happens. A waiting operation whose wait is met and which FENCE, slot order and the tile scoreboard release
starts, on every die of its group; one that is held stays as it is. (Rests on R143; R138, R144, R150. Where a split operation counts its
waits is log entry 71's.) -/
def Obligations.OperationsStart : Prop :=
  (∀ (s : State) (root isn n : Nat) (o : Op), s.Quiet → root < 8 → n < 8 →
        (s.die root).ops.find? (fun o => o.isn == isn && o.partOf.isNone) = some o →
        let d := s.die n
        (d.notices.contains (root, isn) = true → d.ops.length < 512 → d.testing = false → d.nextIsn ≤ max64 →
          let p : Op := { o with isn := d.nextIsn, partOf := some (root, isn) }
          exec (.splitNotice root isn n) s = .next (s.setDie n { d with
            nextIsn := d.nextIsn + 1, notices := d.notices.filter (· != (root, isn)), ops := d.ops ++ [{ p with sbWaited := tileHeld d p }] }))
        ∧ (d.notices.contains (root, isn) = false → exec (.splitNotice root isn n) s = .next s))
  ∧ (∀ (s : State) (n isn : Nat) (o : Op), s.Quiet → n < 8 → findOp s n isn = some o → o.phase = .waiting → o.waitAddr = 0 →
        (released s n o = true → exec (.operationStart n isn) s = .next (settle
          (pruneWatch n (mapParts n isn (fun p => { p with phase := .started }) (putOp n { o with phase := .started } (countWaits n o s))))))
        ∧ (released s n o = false → exec (.operationStart n isn) s = .next s))

/-- A started operation whose operands from elsewhere, where it has any, have all been asked for and have come does its work in one command:
with success the state that the work leaves, with the operation ended; with a failure the operation ends with the status that the work
names, and what it would have written holds values that nobody may rely on (R151), but D stays as it is where the failure is poisoned data
(R114). Each of the eleven opcodes on a die whose units are on, with operands that can be read and a destination that can be written: the
operation ends, its status OK, with its tile, its rows of D, its entry, its records and its chain as the rule of its opcode has them. What
a put writes when its layer, its source and its checkpoint space are in order: with room in the pool its rows in transposed order go to
the lowest free run, without it the layer is marked, and a layer with a checkpoint bit has an exact copy of A in its slot's share; the
record and the header follow, and with them the counters. The tile that an unsplit MMA computes: every entry is the dot product of its row
of A and its row of B over the reduction range, from the root tile's entry in add mode and from +0 otherwise; a row outside its view
contributes nothing. (Rests on R126, R131, R140, R146, R147, R177, R178, R183, R185; R126, R131, R140, R146, R147, R177, R178, R183, R185;
R178, R179, R180; R126, R131, R146. What a failed operation leaves is log entry 70's, the order of the stash checks log entry 73's, what a
merge reads first and writes log entries 12, 121 and 140's, the conversions of VEC_MAP Convert log entry 123's, and the contents of staging
buffers log entry 117's.) -/
def Obligations.OperationsRun : Prop :=
  (∀ (s : State) (n isn code : Nat) (o : Op) (c : Instr) (work : Ctx → State → Res Op), n < 8 →
        ((c = .nop n isn ∧ code = 0x00 ∧ work = fun x u => (.ok x.op, u))
          ∨ (c = .mma n isn ∧ code = 0x01 ∧ work = fun x u => thenRes (productTile x u) fun t u => (.ok x.op, leaveTiles x t u))
          ∨ (c = .mmaDrain n isn ∧ code = 0x02 ∧ work = fun x u => thenRes (productTile x u) fun t u =>
              thenRes (drainTile x t u) fun o u => (.ok o, leaveTiles x t u))
          ∨ (c = .drain n isn ∧ code = 0x03 ∧ work = fun x u => thenRes (enginesOn x u) fun _ u =>
              thenRes (useTile n (tileKey x.op.engine x.op.tile) u) fun t u => drainTile x t u)
          ∨ (c = .tileRestore n isn ∧ code = 0x05 ∧ work = fun x u => thenRes (enginesOn x u) fun _ u =>
              thenRes (leafRows x n x.op.a 0 0 (min 64 x.op.a.cols) u) fun r u =>
                (.ok x.op, writeTile n (tileKey x.op.engine x.op.tile)
                  ((List.range 4096).map fun i => match r.getD (i / 64) none with
                    | some l => (l.map (·.code)).getD (i % 64) 0
                    | none => 0) u))
          ∨ (c = .vecMap n isn ∧ code = 0x10 ∧ work = fun y u =>
              if y.op.vfunc = 0 ∧ y.op.a.fmt ≠ codeB32 then convertWork y u else vectorWork mapRow y u)
          ∨ (c = .vecReduce n isn ∧ code = 0x11 ∧ work = vectorWork redRow)
          ∨ (c = .stashBegin n isn ∧ code = 0x20 ∧ work = beginWork)
          ∨ (c = .stashPut n isn ∧ code = 0x21 ∧ work = putWork)
          ∨ (c = .regrowPut n isn ∧ code = 0x22 ∧ work = regrowWork)
          ∨ (c = .stashFree n isn ∧ code = 0x23 ∧ work = freeWork)) →
        startedOp s n isn code = some o → (awayRanges s o).drop o.asked = [] →
        let x : Ctx := { die := n, job := opJob s n o, op := o }
        readsOpen x s = false → remoteFailed x s = none →
        (∀ p t, work x s = (.ok p, t) → exec c s = .next (settle (endOp n p t)))
        ∧ (∀ e t, work x s = (.error e, t) →
            exec c s = .next (settle (endOp n { o with status := e.status, errorAddr := e.addr, detail := e.detail }
              (let y : Ctx := { die := n, job := opJob t n o, op := o }
               if e.status = 3 then spoilTiles y t else spoilOp y t)))))
  ∧ (∀ (s : State) (n isn : Nat) (o : Op), n < 8 → findOp s n isn = some o → o.phase = .started →
        (awayRanges s o).drop o.asked = [] →
        let x : Ctx := { die := n, job := opJob s n o, op := o }
        readsOpen x s = false → remoteFailed x s = none →
        let ends : Instr → Op → State → Prop := fun c p t => exec c s = .next (settle (endOp n p t))
        let leaves := o.splitEng + o.splitDie
        let out : List Nat → List (Nat × RowOut) := fun tile =>
          ((List.range 64).filter fun p => decide (o.dm0 + p < o.d.rows)).map fun p => (p, drainRow x tile p)
        let stores : List Nat → State → List Put := fun tile u =>
          (out tile).flatMap fun r => rowStores x u o.d (o.dm0 + r.1) o.dn0 r.2
        (o.opcode = 0x00 → ends (.nop n isn) o s)
        ∧ (offEngine s n o = none → ∀ l u, mapRes (leafTile x) (List.range (2 ^ leaves)) s = (.ok l, u) →
          let tile := (combineTree (List.zipWith qaAdd) leaves l).headD []
          (o.opcode = 0x01 → ends (.mma n isn) o (leaveTiles x tile u))
          ∧ (o.opcode = 0x02 → ∀ w v, storeAll x o.d (stores tile (calmMerges o u)) (calmMerges o u) = (.ok w, v) →
              ends (.mmaDrain n isn) (withOut o ((out tile).map (·.2)) w) (leaveTiles x tile v)))
        ∧ (o.opcode = 0x03 → offEngine s n o = none → ∀ tile u w v, useTile n (tileKey o.engine o.tile) s = (.ok tile, u) →
            storeAll x o.d (stores tile (calmMerges o u)) (calmMerges o u) = (.ok w, v) → ends (.drain n isn) (withOut o ((out tile).map (·.2)) w) v)
        ∧ (o.opcode = 0x05 → offEngine s n o = none → ∀ rows u, leafRows x n o.a 0 0 (min 64 o.a.cols) s = (.ok rows, u) →
            ends (.tileRestore n isn) o (writeTile n (tileKey o.engine o.tile)
              ((List.range 4096).map fun i => match rows.getD (i / 64) none with
                | some l => (l.map (·.code)).getD (i % 64) 0
                | none => 0) u))
        ∧ (∀ u, vectorUnit x s = (.ok (), u) →
          (∀ rows v w z, o.opcode = 0x10 → ¬ (o.vfunc = 0 ∧ o.a.fmt ≠ codeB32) →
            mapRes (mapRow x) (List.range o.a.rows) u = (.ok rows, v) → storeRows x rows v = (.ok w, z) → ends (.vecMap n isn) w z)
          ∧ (∀ rows v w z, o.opcode = 0x10 → o.vfunc = 0 → o.a.fmt ≠ codeB32 →
            mapRes (fun r s => readElems x n o.a r 0 o.a.cols s) (List.range o.a.rows) u = (.ok rows, v) →
            let c := rows.mapIdx fun r e => convRow o.cv o.d o.a.fmt false r 0 (e.map fun e => (e.code, e.scale))
            storeAll x o.d (c.mapIdx (fun r y => rowStores x v o.d r 0 y)).flatten v = (.ok w, z) →
            ends (.vecMap n isn) (withOut o c w) z)
          ∧ (∀ rows v w z, o.opcode = 0x11 → mapRes (redRow x) (List.range o.a.rows) u = (.ok rows, v) →
            storeRows x rows v = (.ok w, z) → ends (.vecReduce n isn) w z)
          ∧ (∀ raw r chain t, stashCtx x u = (.ok (raw, r, chain), t) → bit r.slotMask o.slot = true →
            (∀ h v z, o.opcode = 0x20 → stashRead x chain 64 t = (.ok h, v) → (chainOf h).active = false →
              regionBroken v n x.job r = none → partsAllowed x r v = (.ok (), v) →
              stashWrite x [(chain, (newChain (o.w 4) r.layers).bytes ++ (List.replicate r.layers emptyRec).flatten)] v = (.ok (), z) →
              ends (.stashBegin n isn) o (addChain n x.job o.slot chain z))
            ∧ (∀ hl v, stashRead x chain 64 t = (.ok hl, v) → o.layer < r.layers →
              let h := chainOf hl
              (∀ tbl a rl b, o.opcode = 0x21 → h.active = true → (h.lastPut = 0xFFFF ∨ h.lastPut < o.layer) → sourceBroken o.a r = none →
                stashRead x r.ckptTable (o.layer / 8 + 1) v = (.ok tbl, a) → stashRead x (chain + 64 + 64 * o.layer) 64 a = (.ok rl, b) →
                let run := if h.overflow then none else
                  freeRun (entryBytes (entryRef r 0 o.a.cols o.a.rows 0 0)) (r.poolBase + r.poolBytes) r.poolBase (jobRuns b n x.job)
                let ck := ckptBit tbl o.layer
                (run.isSome = true ∨ (List.range (o.layer + 1)).any (ckptBit tbl) = true) →
                (ck = true → h.ckptUsed + (ckptGeom o.a).2.2 ≤ r.ckptShare) →
                ∀ p z, putEntry x r chain h (lrecOf rl) ck run b = (.ok p, z) → ends (.stashPut n isn) p z)
              ∧ (∀ rl b, o.opcode = 0x22 → stashRead x (chain + 64 + 64 * o.layer) 64 v = (.ok rl, b) →
                let rc := lrecOf rl
                ((rc.state = recStashed ∨ rc.state = recRegrown) → ends (.regrowPut n isn) o b)
                ∧ (let a := r.regrowBase + shareIx r o.slot * r.regrowShare + h.regrowUsed
                  let e := entryRef r a rc.rows rc.cols rc.rowOff rc.colOff
                  rc.state = recMarked → sourceDiffers o.a rc = none → h.regrowUsed + entryBytes e ≤ r.regrowShare →
                  ∀ rows y z, readAll x b = (.ok rows, y) →
                  let c := entryRows { rnd := rc.rnd, seed := rc.seed, stream := rc.stream,
                                       given := if rc.dxEn then some rc.dx else none } e o.a.fmt rows
                  stashWrite x (entryStores x y e c ++ [(chain + 64 + 64 * o.layer, { rc with entry := a, state := recRegrown }.bytes),
                    (chain, { h with regrowUsed := h.regrowUsed + rc.bytes_, regrown := h.regrown + rc.bytes_ }.bytes)]) y = (.ok (), z) →
                  ends (.regrowPut n isn) (withOut o c []) (count 0x590A (n + 1) rc.bytes_ z))))
            ∧ (∀ b v z, o.opcode = 0x23 → (o.layer = 0xFFFFFFFF ∨ o.layer < r.layers) →
              stashRead x chain (64 + 64 * r.layers) t = (.ok b, v) →
              let all := o.layer == 0xFFFFFFFF
              let f := freeChain all (fun i => all || i == o.layer) (chainOf b)
                ((List.range r.layers).map fun i => lrecOf (sliceOf b (64 + 64 * i) 64))
              stashWrite x [(chain, f.1)] v = (.ok (), z) →
              let y := freeRuns n x.job f.2 z
              ends (.stashFree n isn) o (if all then y.setDie n { y.die n with
                chains := (y.die n).chains.filter fun e => !(e.1 == x.job && e.2.1 == o.slot) } else y)))))
  ∧ (∀ (x : Ctx) (r : Region) (chain : Nat) (h : Chain) (rc : LRec) (ck : Bool) (s u z : State) (rows : List (List Elem)),
        readAll x s = (.ok rows, u) →
        let o := x.op
        let l := o.layer
        let k := (ckptGeom o.a).2.2
        let ca := if ck then some (r.ckptBase + shareIx r o.slot * r.ckptShare + h.ckptUsed) else none
        let copy := match ca with | some a => ckptStores o.a a rows | none => []
        let g : Chain := { h with lastPut := l, ckptUsed := h.ckptUsed + (if ck then k else 0) }
        (∀ a,
          let t := entryRef r a o.a.cols o.a.rows o.a.colOff o.a.rowOff
          let eb := entryBytes t
          let out := entryRows o.cv t o.a.fmt rows
          stashWrite x (copy ++ entryStores x u t out ++ [(chain + 64 + 64 * l, { putRec o rc t ca with entry := a, state := recStashed }.bytes),
            (chain, { g with stashed := g.stashed + eb }.bytes)]) u = (.ok (), z) →
          putEntry x r chain h rc ck (some a) s = (.ok (withOut o out []),
            count 0x5908 (x.die + 1) eb (allocRun x.die { job := x.job, addr := a, bytes := eb } z)))
        ∧ (let t := entryRef r 0 o.a.cols o.a.rows o.a.colOff o.a.rowOff
           let eb := entryBytes t
           stashWrite x (copy ++ [(chain + 64 + 64 * l, { putRec o rc t ca with state := recMarked }.bytes),
             (chain, { g with marked := g.marked + eb, overflow := true, firstMarked := if h.overflow then g.firstMarked else l }.bytes)]) u
               = (.ok (), z) →
           let y := count 0x5909 (x.die + 1) eb z
           putEntry x r chain h rc ck none s = (.ok o, if h.overflow then y else
             post 0x3C01 (src 1 x.die) x.job [(1, x.die), (1, x.job), (1, o.slot), (8, h.step), (2, l)] (count 0x590B (x.die + 1) 1 y))))
  ∧ (∀ (x : Ctx) (s s0 s1 s2 s3 : State) (t : List Nat) (ra rb : List (Option (List Elem))),
        x.op.splitEng = 0 → x.op.splitDie = 0 → enginesOn x s = (.ok (), s) → useStaging x.die x.op.engine s = (.ok (), s0) →
        (if x.op.acc then useTile x.die (tileKey x.op.engine x.op.tile) s0 else (.ok (List.replicate 4096 0), s0)) = (.ok t, s1) →
        leafRows x x.die x.op.a x.op.m0 (leafRange x.op 0).1 (leafRange x.op 0).2 s1 = (.ok ra, s2) →
        leafRows x x.die x.op.b x.op.n0 (leafRange x.op 0).1 (leafRange x.op 0).2 s2 = (.ok rb, s3) →
        productTile x s = (.ok (t.mapIdx fun i c =>
          tileEntry x.op.a.fmt x.op.b.fmt c (leafRange x.op 0).2 (ra.getD (i / 64) none) (rb.getD (i % 64) none)), s3))

/-- An operation whose work is done, whose remote accesses have been answered and which wrote no host memory completes: its record is written,
RETIRED goes past it, and it leaves the die. The operations of a queue retire in the order in which they were taken: the count goes past
the completed ones at the head and no further. (Rests on R139, R149, R151, R286, R441; R139. What an operation waits for elsewhere is log
entries 67 and 125's.) -/
def Obligations.OperationsRetire : Prop :=
  (∀ (s : State) (n isn : Nat) (o : Op), s.Quiet → n < 8 → findOp s n isn = some o →
        let x : Ctx := { die := n, job := opJob s n o, op := o }
        (o.phase = .done → s.fab.remotes.any (fun r => r.owner == x.owner && r.answer.isNone) = false → remoteFailed x s = none →
          o.hostWrote = [] → askedHost s (.flush n isn) = false →
          exec (.operationComplete n isn) s = .next (settle (completeOp n o s)))
        ∧ (o.phase ≠ .done → exec (.operationComplete n isn) s = .next s))
  ∧ (∀ (done : List Nat) (rest : List (Nat × Bool)) (k : Nat), (rest.head?.map (·.2) ≠ some true) →
        retire (done.map (fun i => (i, true)) ++ rest) k = (rest, k + done.length))

/-- Element k of a row packed from codes that fit the format is code k, and the row takes whole groups. Rounding to nearest a finite value
that a format holds gives the code of that value back, with no saturation and no non-finite result; in QF6 and QF8 for every code whose
exponent field is not 0, since those with 0 all stand for zero. (Rests on R49, R53, R54; R31, R36, R61 to R64.) -/
def Obligations.FormatsAreExact : Prop :=
  (∀ (fmt : Nat) (codes : List Nat), fmt ≤ 8 → fmt ≠ codeQR16 → (∀ c ∈ codes, c < 2 ^ widthOf fmt) →
        (packRow fmt codes).length = rowBytes fmt codes.length
        ∧ ∀ k (h : k < codes.length), elemAt fmt (packRow fmt codes) k = codes[k])
  ∧ (∀ (f : Fmt) (c : Nat) (a : Bool) (m : Nat) (e : Int),
        f ∈ [qf6, qf8, qf12, qw16, qw32, qa40, b32] → c < 2 ^ (1 + f.eb + f.fb) →
        (f.full = true ∨ c / 2 ^ f.fb % 2 ^ f.eb ≠ 0) → decodeF f c = .fin a m e →
        encodeF f .rne (decodeF f c) = { code := c, sat := false, nonfin := false })

/-! ### Coherence -/

/-- A request for accessible device memory reaches the home of its line: it is served as one access when the home is OFF, waits while the line
is busy, its directory set has no room or others wait before it, or is admitted; a caching agent that misses, or that writes a line it
shares, first takes its transient state, once its cache has or can make a way for the line; a stream cache asks for no line to write, nor
for one of its own die's Canopy. In a device-bias page of a host link the access is noted first.
(Rests on R107, R195, R225, R229, R230, R231, R237, R250. The sets of a directory and the room of a cache, and so the clauses of a cache that
can make no way, are log entries 56 and 57's; the note of a device-bias page is log entry 139's.) -/
def Obligations.RequestsReachTheHome : Prop :=
  ∀ (s : State) (a : Agent) (line n : Nat), agentOk a = true → lineOk line = true → memOk s line = true → homeOf s line = some n →
    (∀ c, cacheIx a = some c → s.coh.lost.contains c = false →
      (s.homeState n ≠ 0 → cacheLine s c line = none → cacheRoom s c line = true →
        let enter : CacheSt → State := fun st =>
          setCacheLine c line (some { st := st, data := [], poisoned := false }) (makeWay c line s)
        ((c < 2 ∨ ownCanopy s c line = false) →
          exec (.rdShare a line) s = .next (settle (request line { kind := .rdShare, agent := a, data := [] } (enter .isW))))
        ∧ (c < 2 →
          exec (.rdUnique a line) s = .next (settle (request line { kind := .rdUnique, agent := a, data := [] } (enter .iuW)))))
      ∧ (2 ≤ c → ownCanopy s c line = true → s.Quiet → exec (.rdShare a line) s = .next s)
      ∧ (s.Quiet → cacheRoom s c line = false → exec (.rdShare a line) s = .next s ∧ exec (.rdUnique a line) s = .next s)
      ∧ (2 ≤ c → s.Quiet → exec (.rdUnique a line) s = .next s ∧ exec (.promote a line) s = .next s)
      ∧ (∀ x, c < 2 → cacheLine s c line = some x → x.st = .s →
        exec (.promote a line) s = .next (settle (request line { kind := .promote, agent := a, data := [] }
          (setCacheLine c line (some { x with st := .sdW }) s)))))
    ∧ exec (.rdPeek a line) s = .next (settle (request line { kind := .rdPeek, agent := a, data := [] } s))
    ∧ exec (.rdPeekWatch a line) s = .next (settle (request line { kind := .rdPeekWatch, agent := a, data := [] } s))
    ∧ (∀ data : List Byte, data.length = 64 →
      exec (.wrFull a line data) s = .next (settle (request line { kind := .wrFull, agent := a, data := data } s))
      ∧ (∀ mask, mask < 2 ^ 64 →
        exec (.wrMasked a line mask data) s = .next (settle (request line { kind := .wrMasked mask, agent := a, data := data } s)))
      ∧ (∀ up, exec (.wrHint a line data up) s = .next (settle (request line { kind := .wrHint up, agent := a, data := data } s))))
    ∧ (∀ hart addr w op x, hart < 72 → (w = 4 ∨ w = 8) → addr % w = 0 → lineOf addr = line →
      exec (.atomicHome a hart addr w op x) s =
        .next (settle (request line { kind := .atomic hart addr w op x, agent := a, data := [] } s)))
    ∧ (biasLinks s line = [] → touch line s = s)
    ∧ ∀ r : Req,
      let u := touch line s
      (u.homeState n = 0 → request line r s = directAccess line r u)
      ∧ (u.homeState n ≠ 0 → (admits u line r = false ∨ tget [] line u.coh.waiting ≠ []) → request line r s =
          { u with coh := { u.coh with waiting := tset [] line (tget [] line u.coh.waiting ++ [r]) u.coh.waiting } })
      ∧ (u.homeState n ≠ 0 → admits u line r = true → tget [] line u.coh.waiting = [] →
          request line r s = advance line (admitReq line r u))

/-- On an idle line that no agent holds, at a home that is ON with room in its directory, with nothing waiting and no error to find: RdShare
is granted C and RdUnique D with memory's value, a Promote of the line's only sharer is granted D without data, the directory lists the
requester alone, and the line stays busy until AckGrant; a RdPeek takes no state, and a RdPeekWatch, from the command or from WatchNotice,
sets its bit in the watch vector; a whole or a masked write outside every hint window is in memory, has told the watchers and is answered
with AckWr; a far atomic writes its result, is counted, and answers with the old word. (Rests on R225, R226, R229, R230, R231, R236, R242,
R244, R253, R258, R261. The sets of the directory and the room of a cache are log entries 56 and 57's, that RdPeek is acknowledged log entry
60's, a line outside the device-bias pages log entry 139's.) -/
def Obligations.IdleLinesAreGranted : Prop :=
  ∀ (s : State) (a : Agent) (line n : Nat), agentOk a = true → lineOk line = true → memOk s line = true → homeOf s line = some n →
    s.homeState n = 1 → txnOf s line = none → s.coh.waiting = [] → biasLinks s line = [] →
    s.coh.dir.length + s.coh.txns.length < 16 → (∀ u ∈ poisonUnits s line, tfind u s.merr.latent = none) →
    s.coh.msgs.any (Msg.rspOn line) = false → (∀ c, cacheIx a = some c → s.coh.lost.contains c = false) →
    let value := some (getBytes s line 64, isPoisoned s line)
    let busy : ReqKind → Txn := fun k =>
      { req := { kind := k, agent := a, data := [] }, alone := true, others := false, target := none, entry := !k.writes && k != .rdPeek,
        asks := k.asks, snoops := [], got := none, served := false, granted := false, wbWait := none, done := true, acked := false }
    (∀ c, cacheIx a = some c → dirOf s line = DirEntry.empty →
      let mine : State → State := setDir line { sole := true, holders := 1#10 <<< c, watch := 0 }
      admitReq line { kind := .rdShare, agent := a, data := [] } s =
        setTxn line (busy .rdShare) (mine (sendMsg (.dat a line (some .c) value true true) s))
      ∧ admitReq line { kind := .rdUnique, agent := a, data := [] } s =
        setTxn line (busy .rdUnique) (mine (sendMsg (.dat a line (some .d) value true true) s))
      ∧ (cacheLine s c line = none → (tget [] c s.coh.caches).length < roomLimit c →
        let enter : CacheSt → State := fun st => setCacheLine c line (some { st := st, data := [], poisoned := false }) s
        ((c < 2 ∨ ownCanopy s c line = false) → exec (.rdShare a line) s = .next (settle
          (setTxn line (busy .rdShare) (mine (sendMsg (.dat a line (some .c) value true true) (enter .isW))))))
        ∧ (c < 2 → exec (.rdUnique a line) s = .next (settle
          (setTxn line (busy .rdUnique) (mine (sendMsg (.dat a line (some .d) value true true) (enter .iuW))))))))
    ∧ (∀ c x w, cacheIx a = some c → c < 2 → cacheLine s c line = some x → x.st = .s →
      dirOf s line = { sole := false, holders := 1#10 <<< c, watch := w } →
      exec (.promote a line) s = .next (settle
        (setTxn line { busy .promote with alone := false } (setDir line { sole := true, holders := 1#10 <<< c, watch := w }
          (sendMsg (.dat a line (some .d) none true true) (setCacheLine c line (some { x with st := .sdW }) s))))))
    ∧ (dirOf s line = DirEntry.empty →
      admitReq line { kind := .rdPeek, agent := a, data := [] } s =
        setTxn line (busy .rdPeek) (sendMsg (.dat a line none value false true) s)
      ∧ exec (.rdPeek a line) s = .next (settle (setTxn line (busy .rdPeek) (sendMsg (.dat a line none value false true) s)))
      ∧ (∀ k, k < 8 → a = .wm k →
        let seen : State → State := fun u => setTxn line (busy .rdPeekWatch) (sendMsg (.dat a line none value false true)
          (setDir line { DirEntry.empty with watch := 1#8 <<< k } u))
        exec (.rdPeekWatch a line) s = .next (settle (seen s))
        ∧ (s.coh.msgs.find? (· == .watch k line) = some (.watch k line) → s.coh.watching.contains (k, line) = true →
          exec (.watchNotice k line) s =
            .next (settle (seen { s with coh := { s.coh with msgs := s.coh.msgs.erase (.watch k line) } }))))
      ∧ (∀ (data : List Byte) (k : ReqKind) (mask : Nat) (i : Instr), data.length = 64 →
        ((i = .wrFull a line data ∧ k = .wrFull ∧ mask = fullMask ∧ hintTarget s line = none)
          ∨ (∃ up, i = .wrHint a line data up ∧ k = .wrHint up ∧ mask = fullMask ∧ hintTarget s line = none)
          ∨ (i = .wrMasked a line mask data ∧ k = .wrMasked mask ∧ mask < 2 ^ 64)) →
        let t : Txn := { busy k with req := { kind := k, agent := a, data := data }, done := false }
        let u := sendMsg (.ackWr a line) (notifyWatchers line (memWriteLine line mask data (clearResv line (setTxn line t s))))
        exec i s = .next (settle { u with coh := { u.coh with txns := tdel line u.coh.txns } }))
      ∧ (∀ hart addr w op x, hart < 72 → (w = 4 ∨ w = 8) → addr % w = 0 → lineOf addr = line → isPoisoned s line = false →
        let k : ReqKind := .atomic hart addr w op x
        let old := fieldOf (getBytes s line 64) (addr % 64) w
        let new := spliceOf (getBytes s line 64) (addr % 64) (leBytes w (atomicOut op w old x))
        exec (.atomicHome a hart addr w op x) s = .next (settle (setTxn line (busy k) (sendMsg (.old a line hart addr old false false)
          (count 0x5852 (n + 1) 1 (notifyWatchers line (memWriteLine line (maskFrom (addr % 64) w) new
            (clearResv line (setTxn line { busy k with done := false } s))))))))))

/-- A snoop that the home has sent is answered by the holder: RspNone, RspSentKeep or RspSentGone, or WB_IN_FLIGHT while a write-back is in
flight, with the line sent to the requester as the snoop grants it, or to the home for a masked write and a far atomic; a holder that has
dropped the line answers RspNone, and a snoop that was not sent does nothing; SnpUnique is sent once the SnpKills beside it have been
answered, so that the line it forwards has one holder (R225). (A stream cache's line with an error of its SRAM is R116's and is left out
here: `agentError` does nothing.) A holder in SD_W answers as one in S does, and is in IU_W after a SnpUnique or a SnpKill. To a requester that
is lost nothing is sent: what a dirty holder has goes to the home. What the home and the agents do with the messages that reach them: each takes the first of its kind for
the line, and where none waits nothing happens; a grant that finds the cache's set filled meanwhile makes room first. (Rests on R230, R231, R233, R244,
R251, R252; R225, R228 to R231, R233, R253, R258. That SnpUnique leaves last is log entry 12's, the room in a cache log entry 57's, the
reservations that a snoop takes log entry 58's, the acknowledgement of reads and old values log entry 60's.) -/
def Obligations.SnoopsAndMessages : Prop :=
  (∀ (s : State) (a : Agent) (c line : Nat), agentOk a = true → lineOk line = true → cacheIx a = some c →
        (∀ t, txnOf s line = some t →
          (t.snoops.contains (c, .share) = true → exec (.snpShare a line) s = .next (settle (answerSnoop c line .share t s)))
          ∧ (snoopSent t (c, .unique) = true → exec (.snpUnique a line) s = .next (settle (answerSnoop c line .unique t s)))
          ∧ (t.snoops.contains (c, .kill) = true → exec (.snpKill a line) s = .next (settle (answerSnoop c line .kill t s)))
          ∧ (t.snoops.contains (c, .peek) = true → exec (.snpPeek a line) s = .next (settle (answerSnoop c line .peek t s)))
          ∧ (s.Quiet → t.snoops.contains (c, .share) = false → exec (.snpShare a line) s = .next s)
          ∧ (snoopSent t (c, .unique) = true ↔ t.snoops = [(c, .unique)]))
        ∧ ∀ (k : SnpKind) (t : Txn), agentError c line s = s →
          let u := setTxn line { t with snoops := t.snoops.erase (c, k) } s
          let given : SnpKind → State := fun k => setTxn line { t with snoops := t.snoops.erase (c, k), granted := true } s
          (cacheLine s c line = none → answerSnoop c line k t s = sendMsg (.rsp 0 c line none) u)
          ∧ ∀ x, cacheLine s c line = some x →
            ((x.st = .d ∨ x.st = .c ∨ x.st = .s) → returnsHome t.req.kind = false → homeDrains s line = false → requesterLost s t = false →
              answerSnoop c line .share t s = sendMsg (.rsp 1 c line (if x.st = .d then some (x.data, x.poisoned) else none))
                (setCacheLine c line (some { x with st := .s }) (loseResv c line
                  (sendMsg (.dat t.req.agent line (some .s) (some (x.data, x.poisoned)) t.asks true) (given .share))))
              ∧ answerSnoop c line .unique t s = sendMsg (.rsp 2 c line none)
                (setCacheLine c line none (loseResv c line (noteLost c line
                  (sendMsg (.dat t.req.agent line (some .d) (some (x.data, x.poisoned)) t.asks true) (given .unique)))))
              ∧ answerSnoop c line .peek t s = sendMsg (.rsp 1 c line none) (setCacheLine c line (some x)
                  (sendMsg (.dat t.req.agent line none (some (x.data, x.poisoned)) t.asks true)
                    (setTxn line { t with snoops := t.snoops.erase (c, .peek) } s))))
            ∧ (x.st = .d → returnsHome t.req.kind = false → requesterLost s t = true →
              answerSnoop c line .unique t s = sendMsg (.rsp 2 c line (some (x.data, x.poisoned)))
                (setCacheLine c line none (loseResv c line (noteLost c line
                  (setTxn line { t with snoops := t.snoops.erase (c, .unique) } s)))))
            ∧ (x.st = .sdW →
              let kept : State → State := setCacheLine c line (some x)
              let asking : State → State := fun u =>
                setCacheLine c line (some { x with st := .iuW, data := [] }) (loseResv c line (noteLost c line u))
              let sent : Option CacheSt → State → State := fun g => sendMsg (.dat t.req.agent line g (some (x.data, x.poisoned)) t.asks true)
              answerSnoop c line .kill t s = sendMsg (.rsp 0 c line none)
                (asking (setTxn line { t with snoops := t.snoops.erase (c, .kill) } s))
              ∧ (returnsHome t.req.kind = false → requesterLost s t = false →
                answerSnoop c line .peek t s = sendMsg (.rsp 1 c line none)
                  (kept (sent none (setTxn line { t with snoops := t.snoops.erase (c, .peek) } s)))
                ∧ (homeDrains s line = false →
                  answerSnoop c line .share t s = sendMsg (.rsp 1 c line none) (kept (loseResv c line (sent (some .s) (given .share))))
                  ∧ answerSnoop c line .unique t s = sendMsg (.rsp 2 c line none) (asking (sent (some .d) (given .unique)))))
              ∧ (returnsHome t.req.kind = true → answerSnoop c line .unique t s =
                sendMsg (.rsp 2 c line (some (x.data, x.poisoned)))
                  (asking (setTxn line { t with snoops := t.snoops.erase (c, .unique) } s))))
            ∧ ((x.st = .d ∨ x.st = .c ∨ x.st = .s) → returnsHome t.req.kind = true →
              answerSnoop c line .unique t s = sendMsg (.rsp 2 c line (some (x.data, x.poisoned)))
                (setCacheLine c line none (loseResv c line (noteLost c line
                  (setTxn line { t with snoops := t.snoops.erase (c, .unique) } s)))))
            ∧ ((x.st = .d ∨ x.st = .c ∨ x.st = .s) →
              answerSnoop c line .kill t s = sendMsg (.rsp 0 c line none)
                (setCacheLine c line none (loseResv c line (noteLost c line
                  (setTxn line { t with snoops := t.snoops.erase (c, .kill) } s)))))
            ∧ (x.st = .diW → snoopAnswer k x = (3, false, some x))
            ∧ ((x.st = .ciW ∨ x.st = .isW ∨ x.st = .iuW) → snoopAnswer k x = (0, false, some x)))
  ∧ (∀ (s : State) (a : Agent) (c line : Nat), agentOk a = true → lineOk line = true → cacheIx a = some c →
        let got : Msg → State := fun m => { s with coh := { s.coh with msgs := s.coh.msgs.erase m } }
        (∀ t d, txnOf s line = some t →
          (s.coh.msgs.find? (Msg.isRsp 0 c line) = some (.rsp 0 c line d) → t.req.kind.peeks = false →
            exec (.rspNone a line) s = .next (settle (advance line (dropHolder c line (got (.rsp 0 c line d))))))
          ∧ (s.coh.msgs.find? (Msg.isRsp 1 c line) = some (.rsp 1 c line none) → t.req.kind.peeks = true →
            exec (.rspSentKeep a line) s = .next (settle (advance line (setTxn line { t with served := true } (got (.rsp 1 c line none))))))
          ∧ (s.coh.msgs.find? (Msg.isRsp 2 c line) = some (.rsp 2 c line none) →
            exec (.rspSentGone a line) s = .next (settle (advance line (setTxn line
              { t with got := none, served := !returnsHome t.req.kind } (dropHolder c line (got (.rsp 2 c line none)))))))
          ∧ (∀ d p, s.coh.msgs.find? (Msg.isRsp 2 c line) = some (.rsp 2 c line (some (d, p))) →
            exec (.rspSentGone a line) s = .next (settle (advance line (setTxn line
              { t with got := some (d, p), served := !returnsHome t.req.kind } (dropHolder c line (got (.rsp 2 c line (some (d, p)))))))))
          ∧ (∀ d p, s.coh.msgs.find? (Msg.isRsp 1 c line) = some (.rsp 1 c line (some (d, p))) → t.req.kind.peeks = false →
            let u := got (.rsp 1 c line (some (d, p)))
            exec (.rspSentKeep a line) s = .next (settle (advance line (setTxn line { t with served := true }
              (memWriteBack line d p (setDir line { dirOf u line with sole := false } u))))))
          ∧ (∀ n, s.coh.msgs.find? (Msg.isRsp 3 c line) = some (.rsp 3 c line none) → homeOf (got (.rsp 3 c line none)) line = some n →
            let u := count 0x5851 (n + 1) 1 (got (.rsp 3 c line none))
            exec (.wbInFlight a line) s = .next (settle (advance line
              (if u.coh.msgs.any (Msg.evOf c line) then
                setTxn line { t with wbWait := some c } u else u)))))
        ∧ (∀ d p, s.coh.msgs.find? (Msg.isEv true c line) = some (.ev true c line d p) → txnOf s line = none →
          let u := dropHolder c line (memWriteBack line d p (got (.ev true c line d p)))
          txnOf (sendMsg (.ackEv c line) u) line = none →
          exec (.evDirty a line) s = .next (settle (advance line (sendMsg (.ackEv c line) u))))
        ∧ (∀ d p, s.coh.msgs.find? (Msg.isEv false c line) = some (.ev false c line d p) → txnOf s line = none →
          exec (.evClean a line) s = .next (settle (advance line (sendMsg (.ackEv c line) (dropHolder c line (got (.ev false c line d p)))))))
        ∧ (∀ t, s.coh.msgs.find? (· == .ackGrant a line) = some (.ackGrant a line) → txnOf s line = some t → t.req.agent = a →
          exec (.ackGrant a line) s = .next (settle (advance line (setTxn line { t with acked := true } (got (.ackGrant a line))))))
        ∧ (∀ x, s.coh.msgs.find? (· == .ackEv c line) = some (.ackEv c line) → cacheLine s c line = some x → (x.st = .diW ∨ x.st = .ciW) →
          exec (.ackEv a line) s = .next (settle (askOwner c line (setCacheLine c line none (got (.ackEv c line))))))
        ∧ (∀ b, agentOk b = true → s.Quiet → s.coh.msgs.find? (· == .ackWr b line) = some (.ackWr b line) →
          exec (.ackWr b line) s = .next { s with coh := { s.coh with
            msgs := s.coh.msgs.erase (.ackWr b line), performed := s.coh.performed + 1 } })
        ∧ (∀ n, n < 8 → s.coh.msgs.find? (· == .watch n line) = some (.watch n line) → s.coh.watching.contains (n, line) = true →
          exec (.watchNotice n line) s =
            .next (settle (request line { kind := .rdPeekWatch, agent := .wm n, data := [] } (got (.watch n line)))))
        ∧ (∀ g d p up, s.coh.msgs.find? (Msg.isDat a line) = some (.dat a line (some g) (some (d, p)) up true) →
          let r := sendMsg (.ackGrant a line) (got (.dat a line (some g) (some (d, p)) up true))
          let u := setCacheLine c line (some { st := g, data := d, poisoned := p }) (fillWay c line r)
          let v := if (waitsOf u c line).isEmpty = true then landLine c line u else u
          ((tget [] c r.coh.caches).length ≤ roomLimit c → fillWay c line r = r) ∧
          exec (.dat a line) s = .next (settle (if g = .s then askOwner c line v else runWaits c line v)))
        ∧ (∀ t d h addr v cont, s.coh.msgs.find? (Msg.isDat (.hd d) line) = none → d < 2 →
          s.coh.msgs.find? (Msg.isOld (.hd d) line) = some (.old (.hd d) line h addr v cont false) →
          txnOf s line = some t → t.req.agent = .hd d → t.done = true →
          exec (.dat (.hd d) line) s = .next (settle (giveHart h v (predMove h addr cont
            (sendMsg (.ackGrant (.hd d) line) (got (.old (.hd d) line h addr v cont false)))))))
        ∧ (s.Quiet → s.coh.msgs = [] →
          ∀ i ∈ [Instr.rspNone a line, .rspSentKeep a line, .rspSentGone a line, .wbInFlight a line, .evDirty a line, .evClean a line,
            .ackGrant a line, .ackEv a line, .ackWr a line, .dat a line], exec i s = .next s))

/-- An eviction sends EvDirty from D and EvClean from C, and the line waits for AckEv; from S the line goes silently. The die's harts lose
their reservations on it. (An error of a stream cache's SRAM is R116's: here `agentError` does nothing.) The loss of a caching agent is
counted and reported once; the line that it alone held is poisoned and leaves its entry, its copies, its waiting requests, its
reservations and its messages in flight are gone, and a tensor die's loss faults the jobs that require it. (Rests on R107, R225, R231,
R247; R252. That an eviction loses a reservation is log entry 58's, the event's source and the lines that count as the lost agent's log
entry 59's.) -/
def Obligations.LinesLeave : Prop :=
  (∀ (s : State) (a : Agent) (c line : Nat), s.Quiet → agentOk a = true → lineOk line = true → cacheIx a = some c →
        agentError c line s = s →
        (∀ x, cacheLine s c line = some x →
          (x.st = .d → exec (.cacheEviction a line) s = .next (sendMsg (.ev true c line x.data x.poisoned)
            (loseResv c line (setCacheLine c line (some { x with st := .diW }) s))))
          ∧ (x.st = .c → exec (.cacheEviction a line) s = .next (sendMsg (.ev false c line x.data x.poisoned)
            (loseResv c line (setCacheLine c line (some { x with st := .ciW }) s))))
          ∧ (x.st = .s → exec (.cacheEviction a line) s = .next (loseResv c line (setCacheLine c line none s))))
        ∧ (cacheLine s c line = none → exec (.cacheEviction a line) s = .next s))
  ∧ (∀ (s : State),
        (∀ d, d < 2 → s.coh.lost.contains d = false → exec (.agentLost (.hd d)) s = .next (settle (agentGone d s)))
        ∧ (∀ n, n < 8 → s.coh.lost.contains (2 + n) = false → exec (.agentLost (.td n)) s =
            .next (settle (faultJobs (fun s j => needsUncore s j n) 0x0E (domUncore n) (agentGone (2 + n) s))))
        ∧ (∀ c, c < 10 → s.coh.txns = [] → ∀ line e n, s.coh.dir = [(line, e)] → e.holders.toNat.testBit c = true → e.sole = true →
          homeOf s line = some n → n < 8 →
          let u := count 0x5855 (n + 1) 1 (dropHolder c line (poisonLine line s))
          let waiting := u.coh.waiting.filterMap fun (e : Nat × List Req) =>
            let l := e.2.filter fun (r : Req) => !(cacheIx r.agent == some c)
            if l.isEmpty then none else some (e.1, l)
          let coh := { u.coh with
            caches := tset [] c [] u.coh.caches, lost := insNat c u.coh.lost, waiting := waiting,
            resv := u.coh.resv.filter (fun e => e.2.atHome || !(e.1 / 36 == c)),
            waits := u.coh.waits.filter (fun w => !(w.die == c)),
            l1d := tkeep (fun h => !(h / 36 == c)) u.coh.l1d, l1i := tkeep (fun h => !(h / 36 == c)) u.coh.l1i, l2 := tkeep (fun h => !(h / 36 == c)) u.coh.l2, msgs := u.coh.msgs.filter (fun m => !(m.lostWith c)) }
          u.coh.txns = [] →
          agentGone c s = post 0x2801 (src 7 0) 0x1F ((1, c) :: (List.range 8).map fun k => (2, if k = n then 1 else 0)) { u with coh := coh }))

/-- An AMO, LR or SC that is misaligned, that the PMP forbids or that meets no accessible device memory takes its exception; otherwise an AMO
is one access where its line's home is OFF, and goes to the home in HOME, or in PREDICT where its counter is at the threshold; else it is
near: done by the core on a line its die holds in D or C, whose old word reaches the hart and whose poison is a bus error, and with no such
line it waits for one, by Promote from S and by RdUnique where its die does not hold the line. The counter falls at a hit and rises at a miss
of a line that was snooped away. LR reserves its line where it reads it, near in NEAR and PREDICT; SC writes, where the mode of its line has
it, under a reservation that stands there alone once what is in progress on the line has gone through, and uses it up. (Rests on R215, R242 to
R249, R254, R412. The exception taken is log entries 119 and 144's, what goes through before an access of one step log entry 12's, and the
reservation of an LR and its use by an SC log entry 58's.) -/
def Obligations.HartsDoAtomics : Prop :=
  ∀ (s : State) (h addr w x : Nat) (op : AtomicOp), h < 72 → (w = 4 ∨ w = 8) →
    let line := lineOf addr
    (∀ c, atomicTrap s h addr w true = some c →
      ∀ i ∈ [Instr.amo h addr w op x, .sc h addr w x], exec i s = .next (settle (s.setHart h ((s.hart h).trap c addr))))
    ∧ (∀ c, atomicTrap s h addr w false = some c →
      exec (.lr h addr w) s = .next (settle (s.setHart h ((s.hart h).trap c addr))))
    ∧ (addr % w ≠ 0 → atomicTrap s h addr w true = some 6 ∧ atomicTrap s h addr w false = some 4)
    ∧ (addr % w = 0 → isDevice s addr = false → atomicTrap s h addr w true = some 7 ∧ atomicTrap s h addr w false = some 7)
    ∧ (addr % w = 0 → isDevice s addr = true →
      (((s.hart h).pmpOk addr w true = false ∨ memOk s addr = false) → atomicTrap s h addr w true = some 7)
      ∧ (((s.hart h).pmpOk addr w false = false ∨ memOk s addr = false) → atomicTrap s h addr w false = some 5)
      ∧ ∀ b, (s.hart h).pmpOk addr w b = true → memOk s addr = true → atomicTrap s h addr w b = none)
    ∧ (atomicTrap s h addr w true = none →
      (lineMode s line = 3 → ∀ old u, atomicAt op addr w x s = ((old, false), u) → exec (.amo h addr w op x) s = .next (settle (giveHart h old u)))
      ∧ ((lineMode s line = 2 ∨ (lineMode s line = 0 ∧ s.num 0x2803 1 ≤ tget 0 (predKey h addr) s.coh.pred)) → exec (.amo h addr w op x) s =
          .next (settle (request line { kind := .atomic h addr w op x, agent := .hd (h / 36), data := [] } s)))
      ∧ ((lineMode s line = 1 ∨ (lineMode s line = 0 ∧ tget 0 (predKey h addr) s.coh.pred < s.num 0x2803 1)) →
        let core : CoreWait := { die := h / 36, hart := h, line := line, addr := addr, width := w, op := op, operand := x, isLr := false }
        let missed := predSaw h addr (if lostSince s h addr = true then predMove h addr true s else s)
        let waits : State := { missed with coh := { missed.coh with waits := missed.coh.waits ++ [core] } }
        (∀ y, cacheLine s (h / 36) line = some y →
          ((y.st = .d ∨ y.st = .c) →
            let u := predSaw h addr (predMove h addr false s)
            let old := fieldOf y.data (addr % 64) w
            let new := spliceOf y.data (addr % 64) (leBytes w (atomicOut op w old x))
            (y.poisoned = false → exec (.amo h addr w op x) s = .next (settle (giveHart h old (notifyWatchers line (coreGets true h line
              (setCacheLine (h / 36) line (some { y with st := .d, data := new }) (clearResv line u)))))))
            ∧ (y.poisoned = true → exec (.amo h addr w op x) s = .next (settle (u.setHart h ((u.hart h).trap 7 addr)))))
          ∧ (y.st = .s → exec (.amo h addr w op x) s = .next (settle (readRequest (.hd (h / 36)) line .promote .sdW waits)))
          ∧ (y.st ≠ .d → y.st ≠ .c → y.st ≠ .s → exec (.amo h addr w op x) s = .next (settle waits)))
        ∧ (cacheLine s (h / 36) line = none →
          exec (.amo h addr w op x) s = .next (settle (readRequest (.hd (h / 36)) line .rdUnique .iuW waits))))
      ∧ (let used : State → State := fun u => { u with coh := { u.coh with resv := tdel h u.coh.resv } }
        (2 ≤ lineMode s line →
          let u := calmLine line s
          (lineCalm s line = true → u = s)
          ∧ (tfind h u.coh.resv = some { line := line, atHome := true } →
            exec (.sc h addr w x) s = .next (settle (giveHart h 0 (writeCalm line (maskFrom (addr % 64) w)
              (spliceOf (List.replicate 64 0) (addr % 64) (leBytes w x)) (used u)))))
          ∧ (tfind h u.coh.resv ≠ some { line := line, atHome := true } →
            exec (.sc h addr w x) s = .next (settle (giveHart h 1 (used u)))))
        ∧ (lineMode s line < 2 →
          (tfind h s.coh.resv = some { line := line, atHome := false } →
            ∀ y, cacheLine s (h / 36) line = some y → (y.st = .d ∨ y.st = .c) →
            exec (.sc h addr w x) s = .next (settle (giveHart h 0 (notifyWatchers line (coreGets true h line
              (setCacheLine (h / 36) line (some { y with st := .d, data := spliceOf y.data (addr % 64) (leBytes w x) })
                (clearResv line (used (predSaw h addr s)))))))))
          ∧ (s.Quiet → tfind h s.coh.resv ≠ some { line := line, atHome := false } →
            exec (.sc h addr w x) s = .next (giveHart h 1 (used (predSaw h addr s)))))))
    ∧ (atomicTrap s h addr w false = none →
      ((lineMode s line = 2 ∨ lineMode s line = 3) →
        ∀ d u, cohReadLine line s = ((d, false), u) →
          exec (.lr h addr w) s = .next (settle (giveHart h (fieldOf d (addr % 64) w)
            { u with coh := { u.coh with resv := tput h { line := line, atHome := true } u.coh.resv } })))
      ∧ (lineMode s line < 2 →
        let core : CoreWait := { die := h / 36, hart := h, line := line, addr := addr, width := w, op := .swap, operand := 0, isLr := true }
        let missed := predSaw h addr s
        let waits : State := { missed with coh := { missed.coh with waits := missed.coh.waits ++ [core] } }
        (∀ y, cacheLine s (h / 36) line = some y → (y.st = .d ∨ y.st = .c) → y.poisoned = false →
          let u := coreGets true h line (setCacheLine (h / 36) line (some { y with st := .d }) missed)
          exec (.lr h addr w) s = .next (settle (giveHart h (fieldOf y.data (addr % 64) w)
            { u with coh := { u.coh with resv := tput h { line := line, atHome := false } u.coh.resv } })))
        ∧ (∀ y, cacheLine s (h / 36) line = some y → y.st = .s →
          exec (.lr h addr w) s = .next (settle (readRequest (.hd (h / 36)) line .promote .sdW waits)))
        ∧ (cacheLine s (h / 36) line = none →
          exec (.lr h addr w) s = .next (settle (readRequest (.hd (h / 36)) line .rdUnique .iuW waits)))))

/-- A streaming store writes its whole line past the caches, and in the host window is posted while the link is ATTACHED and else counted;
cbo.clean writes a dirty line back and keeps it, cbo.flush and cbo.inval write it back and drop it; what the PMP forbids, a hole, and a
cache operation outside device memory that can be accessed take a store access fault; an error of the core caches poisons a dirty line,
counts and reports it, and leaves a clean one to be read again, and the errors corrected before it are counted. (Rests on
R113, R195, R206, R240, R409, R411, R412, R424, R438, R439, R447. The fault taken is log entry 119's, the access of one step log entry 12's,
the count of a store that its link does not take log entry 39's, and the errors corrected before log entries 59 and 111's.) -/
def Obligations.StoresAndCacheOperations : Prop :=
  ∀ (s : State) (h addr : Nat), h < 72 →
    let fault := s.setHart h ((s.hart h).trap 7 addr)
    (∀ data : List Byte, data.length = 64 → addr % 64 = 0 →
      (((s.hart h).pmpOk addr 64 true = false ∨ (hostOf s addr = none ∧ memOk s addr = false)) →
        exec (.streamingStore h addr data) s = .next (settle fault))
      ∧ ((s.hart h).pmpOk addr 64 true = true →
        (hostOf s addr = none → memOk s addr = true →
          exec (.streamingStore h addr data) s = .next (settle (cohWriteLine addr fullMask data s)))
        ∧ ∀ b, hostOf s addr = some b →
          exec (.streamingStore h addr data) s = .next (settle (postEach true b data s))
          ∧ ∀ k, hostParts s b data.length = [(k, b, 64)] →
            (linkAttached s k = true → exec (.streamingStore h addr data) s = .next (settle
              (let l := s.hlink k
               (s.setHlink k { l with posted := l.posted ++ [(b, data, none)] }).emit (.pcieWrite k b data false))))
            ∧ (linkAttached s k = false → exec (.streamingStore h addr data) s = .next (settle (count 0x58A1 (k + 1) 1 s)))))
    ∧ ((memOk s addr = false ∨ ((s.hart h).pmpOk (lineOf addr) 64 true = false ∧ (s.hart h).pmpOk (lineOf addr) 64 false = false)) →
      ∀ i ∈ [Instr.cboClean h addr, .cboFlush h addr, .cboInval h addr], exec i s = .next (settle fault))
    ∧ (memOk s addr = true → ((s.hart h).pmpOk (lineOf addr) 64 true = true ∨ (s.hart h).pmpOk (lineOf addr) 64 false = true) →
      (s.Quiet → cacheLine s (h / 36) (lineOf addr) = none →
        ∀ i ∈ [Instr.cboClean h addr, .cboFlush h addr, .cboInval h addr], exec i s = .next s)
      ∧ ∀ x, cacheLine s (h / 36) (lineOf addr) = some x →
      let line := lineOf addr
      (x.st = .d →
        exec (.cboClean h addr) s = .next (settle (setCacheLine (h / 36) line (some { x with st := .c }) (memWriteBack line x.data x.poisoned s)))
        ∧ ∀ i ∈ [Instr.cboFlush h addr, .cboInval h addr], exec i s = .next (settle
            (dropHolder (h / 36) line (loseResv (h / 36) line (setCacheLine (h / 36) line none (memWriteBack line x.data x.poisoned s))))))
      ∧ (s.Quiet → (x.st = .c ∨ x.st = .s) →
        exec (.cboClean h addr) s = .next s
        ∧ ∀ i ∈ [Instr.cboFlush h addr, .cboInval h addr], exec i s =
            .next (dropHolder (h / 36) line (loseResv (h / 36) line (setCacheLine (h / 36) line none s)))))
    ∧ (∀ level n, level < 4 →
      let u := if n = 0 then s else count 0x5890 (h / 36 + 1) n s
      let c : Instr := .coreCacheUe (h / 36) ⟨level, n⟩ h addr
      (∀ x, levelHolds u (h / 36) level h (lineOf addr) = true → cacheLine u (h / 36) (lineOf addr) = some x →
        (x.st = .d → exec c s = .next (settle
          (post 0x6001 (src 3 (h / 36)) 0x1F [(1, h / 36), (1, level), (1, if level = 3 then 0 else h), (8, lineOf addr)]
            (count 0x5891 (h / 36 + 1) 1 (setCacheLine (h / 36) (lineOf addr) (some { x with poisoned := true }) u)))))
        ∧ (x.st ≠ .d → exec c s = .next (settle u)))
      ∧ (levelHolds u (h / 36) level h (lineOf addr) = false → exec c s = .next (settle u)))

/-! ### Margeram links -/

/-- What the events of training do to a port: a module that is ready lets it train, one that does not answer leaves it NO_MODULE and is
reported; trained lanes start the link layer with full credits and send the IDENT frame; an identity that is expected takes the port UP
and any other to MISWIRED; a timeout or a failing lane takes it DOWN with its cause; DOWN and NO_MODULE try again. The 50 ms for an
answer, FAB_TRAIN_TIMEOUT_MS and the retry timer are durations of R11, which do not end while the time counter holds (R416). Frames that wait
to be sent since the port went DOWN keep their place, behind the IDENT frame. (Rests on R265, R290, R292, R293, R530, R533. Which timers hold
is log entry 54's, what a retraining keeps log entries 75 and 76's, the kept IDENT log entry 77's, the order in the report of a miswired port
log entry 141's.) -/
def Obligations.PortsTrain : Prop :=
  ∀ (s : State) (p : Nat), s.Quiet → p < 24 →
    (portState s p = 2 → (s.port p).cmisOk = false →
      (isBackplane s p = false → ∀ map media ready,
        let flat := bit (lget 0 map 2).toNat 7
        let kept := if flat then map.take 256 else map
        let woken := if flat then s else s.emit (.lowPowerOff p)
        (s.on domNet = true → (ready || flat) = true →
          let u := (((woken.setNum 0x7100 (p + 1) 1).setOct 0x7101 (p + 1) ((padTo kept 384).take 384)).setNum 0x3002 (p + 1)
            (if media = 3 then 1 else 3))
          exec (.cmisRead p (.answered map media ready)) s = .next (u.setPort p { s.port p with cmisOk := true }))
        ∧ (s.on domNet = true → (ready || flat) = false →
          let v := ((woken.setNum 0x7100 (p + 1) 2).setOct 0x7101 (p + 1) ((padTo map 384).take 384)).setNum 0x3002 (p + 1) 0
          exec (.cmisRead p (.answered map media ready)) s = .next (v.setNum 0x3001 (p + 1) 1))
        ∧ (s.on domNet = false → timeRuns s = true →
          exec (.cmisRead p (.answered map media ready)) s = exec (.cmisRead p .noAnswer) s)
        ∧ (timeRuns s = true → exec (.cmisRead p .noAnswer) s = .next (settle (post 0x7002 (src 0 0) 0x1F [(1, p)]
            (((((s.setNum 0x7100 (p + 1) 0).setOct 0x7101 (p + 1) (List.replicate 384 0)).setNum 0x3002 (p + 1) 0)).setNum 0x3001 (p + 1) 1)))))
      ∧ (isBackplane s p = true → ∀ r,
        let u := (((s.setNum 0x7100 (p + 1) 3).setOct 0x7101 (p + 1) (List.replicate 384 0)).setNum 0x3002 (p + 1) 2)
        exec (.cmisRead p r) s = .next (u.setPort p { s.port p with cmisOk := true })))
    ∧ (portState s p = 2 → (s.port p).cmisOk = true →
      let f := mkFrame s { type := 8, jobId := 0, epoch := 0, src := 0, dst := 0, payload := identPayload s p }
      let l := (s.port p).tx
      let x := { Port.init with rx := (s.port p).rx, tx := lset l 3 (f :: lget [] l 3), credits := [1024, 1024, 4096, 256], cmisOk := true,
                                trained := true }
      exec (.portLaneTrainingDone p) s = .next (settle (pump p ((s.setPort p x).setNum 0x3001 (p + 1) 3))))
    ∧ (portState s p = 3 → (s.port p).ident ≠ none → exec (.portTrainTimeout p) s = .next s)
    ∧ ((portState s p = 2 ∨ (portState s p = 3 ∧ (s.port p).ident = none)) → timeRuns s = true → exec (.portTrainTimeout p) s = .next (settle (portDown p 2 s)))
    ∧ (3 ≤ portState s p → portState s p ≤ 5 → exec (.laneFailure p) s = .next (settle (portDown p 1 s)))
    ∧ (timeRuns s = false → exec (.portRetryTimer p) s = .next s ∧ exec (.portTrainTimeout p) s = .next s)
    ∧ ((portState s p = 6 ∨ portState s p = 1) → timeRuns s = true →
      exec (.portRetryTimer p) s = .next (if portPowered s p = true then
        (s.setPort p { Port.init with rx := (s.port p).rx, tx := (s.port p).tx }).setNum 0x3001 (p + 1) 2 else s))
    ∧ (∀ f, portState s p = 3 → (s.port p).ident = some f →
      let coord := fieldOf f.payload 0 8
      let port := fieldOf f.payload 8 1
      let u := (s.setNum 0x3005 (p + 1) coord).setNum 0x3006 (p + 1) port
      let u := (u.setOct 0x3007 (p + 1) (sliceOf f.payload 16 16)).setOct 0x3008 (p + 1) (sliceOf f.payload 32 48)
      let u := u.setPort p { s.port p with ident := none }
      (miswired u p coord port = false → exec (.identExchange p) s = .next (settle
        (pump p (post 0x3001 (src 4 p) 0x1F [(1, p), (8, coord), (1, port)] (u.setNum 0x3001 (p + 1) 4)))))
      ∧ (miswired u p coord port = true → exec (.identExchange p) s = .next (settle
        (post 0x3003 (src 4 p) 0x1F [(1, p), (8, u.num 0x3003 (p + 1)), (8, coord), (1, u.num 0x3004 (p + 1)), (1, port)]
          (u.setNum 0x3001 (p + 1) 5)))))
    ∧ (portState s p = 4 → exec (.portTrainTimeout p) s = .next s ∧ exec (.portRetryTimer p) s = .next s ∧
        exec (.identExchange p) s = .next s ∧ exec (.portLaneTrainingDone p) s = .next s)

/-- What the FEC did is counted; a good unit brings its credits and its acknowledgement, its frame is taken when its number is the expected
one and its lane has room, acknowledged again when it is an earlier one, and asked for by one NAK when it is a later one; a bad unit is
asked for by one NAK; a NAK or a replay timeout sends every unacknowledged unit again, counted, or takes the port DOWN at the limit.
(Rests on R267 to R271. What a bad unit starts is log entry 74's, the room and the credits log entry 75's, the limit of resends log entry
76's.) -/
def Obligations.LinkUnitsAreTaken : Prop :=
  ∀ (s : State) (p : Nat), p < 24 →
    ((portState s p = 3 ∨ portState s p = 4) →
      (∀ u : LinkUnit,
        let v := if u.fecFixed = 0 then s else count 0x5860 (p + 1) u.fecFixed s
        let t := if u.fecBad then count 0x5861 (p + 1) 1 v else v
        (unitGood u = true → exec (.linkUnitReceive p u) s =
          .next (settle (pump p (takePrefix p u.word (match u.frame with
            | some f => takeFrame p (bits u.word 63 48) (bits u.word 29 28) f t
            | none => t)))))
        ∧ (unitGood u = false → (t.port p).rxDiscard = false → exec (.linkUnitReceive p u) s =
          .next (settle (sendBare p true 0 0 (t.setPort p { t.port p with rxDiscard := true }))))
        ∧ (unitGood u = false → (t.port p).rxDiscard = true → exec (.linkUnitReceive p u) s = .next (settle t)))
      ∧ (∀ ack, exec (.nak p ack) s = .next (settle (pump p (settleSends (replay p (takeAck p (ack % 65536) s))))))
      ∧ ((s.port p).unacked ≠ [] → exec (.replayTimeout p) s = .next (settle (replay p s))))
    ∧ (portState s p ≠ 3 → portState s p ≠ 4 → s.Quiet →
      (∀ u, exec (.linkUnitReceive p u) s = .next s) ∧ (∀ ack, exec (.nak p ack) s = .next s) ∧ exec (.replayTimeout p) s = .next s)
    ∧ (∀ (seq vl : Nat) (f : Frame),
      (seqCmp 16 seq (s.port p).rxNext = .expected → f.type ≠ 8 → frameUnits f ≤ rxRoom (s.port p) vl → takeFrame p seq vl f s =
        (let x := s.port p
         let u := count 0x5864 (p + 1) f.bytes s
         let rx := lset x.rx vl (lget [] x.rx vl ++ [f])
         sendBare p false 0 0 (u.setPort p { x with rxNext := x.rxNext + 1, rxDiscard := false, rx := rx })))
      ∧ (seqCmp 16 seq (s.port p).rxNext = .later → (s.port p).rxDiscard = false →
        takeFrame p seq vl f s = sendBare p true 0 0 (s.setPort p { s.port p with rxDiscard := true }))
      ∧ (seqCmp 16 seq (s.port p).rxNext = .earlier → takeFrame p seq vl f s = sendBare p false 0 0 s))
    ∧ ((s.port p).unacked.any (fun u => decide (s.num 0x3012 1 ≤ u.resends)) = true → replay p s = portDown p 0 s)
    ∧ ((s.port p).unacked.any (fun u => decide (s.num 0x3012 1 ≤ u.resends)) = false → (s.port p).unacked ≠ [] →
      let l := (s.port p).unacked.map fun u => { u with resends := u.resends + 1 }
      replay p s = l.foldl (fun t u => emitUnit p u t) (count 0x5862 (p + 1) l.length (s.setPort p { s.port p with unacked := l })))

/-- The first frame of a lane is routed by whichever command names it: one that breaks its form, or has no job or route here, is dropped and
counted; one for this package is delivered, and one for another goes to its port with one hop fewer. A frame of each TYPE for this
package, with a good CRC, of a job whose ports are open and of its epoch (a CTRL frame and a fell notice need neither), reaches what its
TYPE names: the homes and an answer, the request that it answers, the control ring, or the fell notice's checks; a good read and a good
write are answered with STATUS 0. What the destination checks, in this order: the end-to-end CRC, whose failure drops the frame, is
reported and faults the job; a CTRL frame and a fell notice pass closed ports and old epochs; a closed port drops; a frame of another
epoch is dropped; a DATA frame on a channel that does not receive from its source is dropped, in its turn it goes to its sink, an old one
is dropped and a missing one faults the job. (Rests on R274, R276, R278, R282, R285, R286, R339, R402; R280, R282, R283, R284. That
accesses go line by line is log entry 67's, the one check of a frame log entry 78's, its epoch and a job that is not there log entry 79's,
the sinks log entries 80 and 81's, the sent notices log entry 83's, the form of a frame log entry 135's, and the payload of the reports log
entry 141's.) -/
def Obligations.FramesAreRouted : Prop :=
  (∀ (s : State) (port : Option Nat), ingressOk port = true →
        (∀ vl f, vl < 4 → laneHead s (laneKey port vl) = some f →
          exec (.frameRoute port vl) s = .next (settle (routeFrame port vl f s)))
        ∧ (∀ f, laneHead s (laneKey port 2) = some f → forHere 1 s f = true → exec (.data port) s = .next (settle (routeFrame port 2 f s)))
        ∧ (∀ f, laneHead s (laneKey port 0) = some f →
          (forHere 2 s f = true → exec (.rdReq port) s = .next (settle (routeFrame port 0 f s)))
          ∧ (forHere 4 s f = true → exec (.wrReq port) s = .next (settle (routeFrame port 0 f s)))
          ∧ (forHere 9 s f = true → exec (.wrPart port) s = .next (settle (routeFrame port 0 f s))))
        ∧ (∀ f, laneHead s (laneKey port 1) = some f →
          (forHere 3 s f = true → exec (.rdRsp port) s = .next (settle (routeFrame port 1 f s)))
          ∧ (forHere 5 s f = true → exec (.wrAck port) s = .next (settle (routeFrame port 1 f s))))
        ∧ (∀ f, laneHead s (laneKey port 3) = some f →
          (forHere 6 s f = true → exec (.ctrl port) s = .next (settle (routeFrame port 3 f s)))
          ∧ (forHere 7 s f = true → exec (.fellNotice port) s = .next (settle (routeFrame port 3 f s))))
        ∧ (∀ vl f,
          (frameOk f = false → routeFrame port vl f s = count 0x5866 (ingressSub port) 1 (leaveLane port vl f s))
          ∧ (frameOk f = true → frameJob s f.jobId = none →
            let u := count 0x5865 (ingressSub port) 1 (leaveLane port vl f s)
            jobOfId u f.jobId = none →
            routeFrame port vl f s = post 0x3004 (ingressSrc port) 0x1F [(1, port.getD 0xFF), (2, f.jobId), (2, f.src), (2, f.dst)] u)
          ∧ (∀ j t, frameOk f = true → frameJob s f.jobId = some j → s.fab.taken.contains (laneKey port vl) = false →
            (routeOf j f.dst s = (.here, t) → routeFrame port vl f s = deliverFrame port vl j f t)
            ∧ (∀ q i, port = some i → routeOf j f.dst s = (.port q, t) → f.hops ≠ 0 →
              routeFrame port vl f s = leaveLane port vl f (enqueue q (hoppedFrame f) t))))
        ∧ (∀ vl f j t, vl < 4 → laneHead s (laneKey port vl) = some f → frameOk f = true → frameJob s f.jobId = some j →
          s.fab.taken.contains (laneKey port vl) = false → routeOf j f.dst s = (.here, t) → f.crcOf = f.crc →
          let gone := leaveLane port vl f t
          (vl = 3 → forHere 6 s f = true → exec (.ctrl port) s = .next (settle (sinkFrame port 3 j f t)))
          ∧ (vl = 3 → forHere 7 s f = true → exec (.fellNotice port) s = .next (settle (takeFell j f gone)))
          ∧ ((t.job j).closedPorts = false → f.epoch = (t.job j).linkEpoch →
            (vl = 0 → forHere 2 s f = true → exec (.rdReq port) s = .next (settle (serveRemote j f gone)))
            ∧ (vl = 0 → forHere 4 s f = true → exec (.wrReq port) s = .next (settle (serveRemote j f gone)))
            ∧ (vl = 0 → forHere 9 s f = true → exec (.wrPart port) s = .next (settle (serveRemote j f gone)))
            ∧ (vl = 1 → forHere 3 s f = true → exec (.rdRsp port) s = .next (settle (takeAnswer port j f gone)))
            ∧ (vl = 1 → forHere 5 s f = true → exec (.wrAck port) s = .next (settle (takeAnswer port j f gone)))
            ∧ (vl = 2 → forHere 1 s f = true → exec (.data port) s = .next (settle (takeData port 2 j f t)))))
        ∧ (∀ j f, remoteStatus s j f = 0 →
          (f.type = 2 → serveRemote j f s =
            (let r := readMasked (f.rlen / 64) 0 f.w2 s
             answerRemote j 3 0 r.1.2 f r.1.1 r.2))
          ∧ (f.type = 4 → serveRemote j f s = answerRemote j 5 0 0 f [] (writeMem f.w2 f.payload s))
          ∧ (f.type = 9 → serveRemote j f s =
              answerRemote j 5 0 0 f [] (cohWriteLine f.w2 (fieldOf f.payload 0 8) (sliceOf f.payload 8 64) s)))
        ∧ (∀ j f k, remoteStatus s j f = k → k ≠ 0 → (f.type = 2 ∨ f.type = 4 ∨ f.type = 9) →
          serveRemote j f s = answerRemote j (if f.type = 2 then 3 else 5) k 0 f [] s))
  ∧ (∀ (s : State) (port : Option Nat) (vl j : Nat) (f : Frame),
        let gone := leaveLane port vl f s
        (f.crcOf ≠ f.crc → deliverFrame port vl j f s = jobFault j 0x12 f.src f.src
          (post 0x3008 (ingressSrc port) j [(2, f.jobId), (2, f.src), (1, port.getD 0xFF)] (count 0x5867 (ingressSub port) 1 gone)))
        ∧ (f.crcOf = f.crc →
          (f.type = 6 → deliverFrame port vl j f s = sinkFrame port vl j f s)
          ∧ (f.type = 7 → deliverFrame port vl j f s = takeFell j f gone)
          ∧ (f.type ≠ 6 → f.type ≠ 7 →
            ((s.job j).closedPorts = true → deliverFrame port vl j f s = count 0x5868 (j + 1) 1 gone)
            ∧ ((s.job j).closedPorts = false → f.epoch ≠ (s.job j).linkEpoch → deliverFrame port vl j f s = staleFrame port j f gone)
            ∧ ((s.job j).closedPorts = false → f.epoch = (s.job j).linkEpoch →
              ((f.type = 3 ∨ f.type = 5) → deliverFrame port vl j f s = takeAnswer port j f gone)
              ∧ ((f.type = 2 ∨ f.type = 4 ∨ f.type = 9) → deliverFrame port vl j f s = serveRemote j f gone)
              ∧ (f.type = 1 →
                let c := chanOf s j f.chan
                let want := tget 0 f.chan (s.job j).rxSeq
                ((c.dir ≠ 2 ∨ c.peer ≠ f.src) → deliverFrame port vl j f s = leaveLane port vl f (count 0x5865 (ingressSub port) 1 s))
                ∧ (c.dir = 2 → c.peer = f.src →
                  (seqCmp 32 f.seq want = .expected → deliverFrame port vl j f s = sinkFrame port vl j f
                    (s.setJob j { s.job j with rxSeq := tset 0 f.chan (add32 want 1) (s.job j).rxSeq }))
                  ∧ (seqCmp 32 f.seq want = .earlier → deliverFrame port vl j f s = leaveLane port vl f (count 0x5869 (j + 1) 1 s))
                  ∧ (seqCmp 32 f.seq want = .later → deliverFrame port vl j f s = jobFault j 0x11 f.src f.src (leaveLane port vl f
                    (post 0x3007 (ingressSrc port) j [(2, f.jobId), (1, f.chan), (2, f.src), (4, want), (4, f.seq)] s)))))))))

/-- A send doorbell of a running job's open ring sets PROD, or, beyond the ring's size, stops the ring; a descriptor is taken and its frame
handed over, or the ring stops at the first field that breaks it; a remote request that times out is answered as failed; a stalled lane
faults every job with a frame in it, both only while the time counter runs (R11, R416); a ring that waited for room is tried again. (Rests
on R277, R284, R288, R289, R588. Which timers hold is log entry 54's, the line-wise accesses log entry 67's, the offsets and what counts as
sent log entry 81's.) -/
def Obligations.SendRingsAndTimeouts : Prop :=
  ∀ (s : State) (j : Nat), s.Quiet → j < 16 →
    (isRunning s j = true → sendRingOn s j = true → (s.job j).sendStopped = false →
      (∀ v, sub32 (v % 2 ^ 32) (s.job j).sendCons ≤ sendSlots s j →
        exec (.sendDoorbell j v) s = .next (s.setJob j { s.job j with sendProd := v % 2 ^ 32 }))
      ∧ (∀ v, sendSlots s j < sub32 (v % 2 ^ 32) (s.job j).sendCons →
        exec (.sendDoorbell j v) s = .next (settle (post 0x300A (src 5 0) j [(1, j), (4, sendNext (s.job j)), (2, 0)]
          (s.setJob j { s.job j with sendStopped := true }))))
      ∧ (sendNext (s.job j) ≠ (s.job j).sendProd →
        let i := sendNext (s.job j)
        ∀ l t, jobRead j (sendBase s j + 64 * (i % sendSlots s j)) 64 s = (.ok l, t) →
          (∀ o, sendBad t j l = some o → exec (.sendDescriptor j) s = .next (settle
            (post 0x300A (src 5 0) j [(1, j), (4, i), (2, o)] (t.setJob j { t.job j with sendStopped := true }))))
          ∧ (∀ b u, sendBad t j l = none → jobRead j (fieldOf l 8 8) (fieldOf l 0 8 % 2 ^ 13) t = (.ok b, u) →
            exec (.sendDescriptor j) s = .next (settle (sendOne j l b u)))))
    ∧ (isRunning s j = false → (∀ v, exec (.sendDoorbell j v) s = .next s) ∧ exec (.sendDescriptor j) s = .next s)
    ∧ (timeRuns s = true → ∀ tag, exec (.remoteTimeout tag) s = .next (settle (settleMirror (issueRemotes { s with fab := { s.fab with
        remotes := s.fab.remotes.map (fun r => if r.tag = tag ∧ r.answer = none then { r with answer := some (false, [], 0) } else r) } }))))
    ∧ (timeRuns s = false → (∀ tag, exec (.remoteTimeout tag) s = .next s)
      ∧ ∀ p vl, p < 24 → vl < 4 → exec (.vlStall p vl) s = .next s)
    ∧ (timeRuns s = true → ∀ p vl, p < 24 → vl < 4 →
      let l := lget [] (s.port p).rx vl ++ lget [] (s.port p).tx vl
      let jobs := runningJobs s (fun j => s.jobState j != 0 && l.any fun f => f.jobId == (s.job j).desc.jobId)
      (l = [] → exec (.vlStall p vl) s = .next s)
      ∧ (l ≠ [] → exec (.vlStall p vl) s = .next (settle (jobs.foldl (fun t k => jobFault k 0x10 (p * 4 + vl) noSubject t)
        (post 0x3005 (src 4 p) 0x1F [(1, p), (1, vl), (2, maskOf jobs)] s)))))
    ∧ (∀ port, ingressOk port = true →
      (s.fab.taken.contains (laneKey port 2) = false → s.fab.taken.contains (laneKey port 3) = false →
        exec (.ringRecordWrite port) s = .next s)
      ∧ (∀ f, s.fab.taken.contains (laneKey port 2) = true → laneHead s (laneKey port 2) = some f →
        let t := routeFrame port 2 f s
        t.fab.taken.contains (laneKey port 3) = false → exec (.ringRecordWrite port) s = .next (settle t)))

/-! ### Collectives and landing units -/

/-- A doorbell of a running job's collective queue sets PROD, or, beyond the queue's size, stops every path; a descriptor is taken while no
path has stopped or holds 256 collectives: CONS goes one on, in the shadow too, and the collective joins its path, or its path stops at
the first field that breaks it. Of the collectives of a path whose work is not done, and none of whose channels an earlier one occupies,
one of each kind is at work. It starts when its WAIT is met: a NOP has no work, a REDUCE's result takes its place in staging SRAM, a
BROADCAST works on the frames at hand, a PRISM whose job may begin it checks its plan and sends its moves. A started one goes on: a REDUCE
frame by frame, a BROADCAST and a PRISM with what is at hand. The oldest one whose work is done and whose frames have been accepted
completes, and DONE goes one on; the Prism of a switch ends the switch. A path with none of the kind does nothing. (Rests on R304, R308,
R588; R305 to R311, R314, R317, R319, R323, R387. Which collectives are at work is log entry 84's, an overrun of the queue log entry 85's, the
unused fields log entry 86's, the records of a plan log entries 87 and 142's, the place of a result log entry 80's, and the end of a switch
log entry 136's.) -/
def Obligations.CollectivesWork : Prop :=
  (∀ (s : State) (j v : Nat), s.Quiet → j < 16 →
        let cons := s.num 0x3804 (j + 1)
        let p := v % 2 ^ 32
        (isRunning s j = true → colQueueOn s j = true →
          (sub32 p cons ≤ colSlots s j → exec (.colDoorbell j v) s = .next (s.setJob j { s.job j with colProd := p }))
          ∧ (colSlots s j < sub32 p cons → exec (.colDoorbell j v) s = .next (settle (jobFault j 0x13 0xFF noSubject
              (post 0x3802 (src 5 0) j [(1, j), (1, 0xFF), (4, cons), (2, 0)] (stopPaths j 0xFFFF s))))))
        ∧ (isRunning s j = false → exec (.colDoorbell j v) s = .next s)
        ∧ (takesWork s j = true → colQueueOn s j = true → (s.job j).colProd ≠ cons → s.num 0x3803 (j + 1) = 0 →
          (s.job j).colls.all (fun l => decide (l.length < 256)) = true →
          ∀ raw t, jobRead j (colBase s j + 64 * (cons % colSlots s j)) 64 s = (.ok raw, t) →
            let c := newColl cons raw
            let u := colPut j 64 (add32 cons 1) (t.setNum 0x3804 (j + 1) (add32 cons 1))
            (lowestBad (collChecks (u.topo j) c) = none → exec (.colDescriptorTake j) s = .next (settle
              (u.setJob j { u.job j with colls := lset (u.job j).colls c.path (lget [] (u.job j).colls c.path ++ [c]) })))
            ∧ (∀ o, lowestBad (collChecks (u.topo j) c) = some o →
              exec (.colDescriptorTake j) s = .next (settle (colMalformed j c.path cons o u))))
        ∧ ((s.job j).colProd = cons → exec (.colDescriptorTake j) s = .next s))
  ∧ (∀ (s : State) (j p : Nat), j < 16 → p < 16 →
        (pathWorks s j p = true →
          (∀ c t m u, c.started = false → waitRead j c.waitAddr c.waitVal s = (.ok true, t) → memberOf j c t = (.ok m, u) →
            let d := { c with started := true, member := m }
            let v := putColl j p d u
            (workingColl s j p 0 = some c → exec (.colNop j p) s = .next (settle (putColl j p { d with fin := true } v)))
            ∧ (workingColl s j p 1 = some c → exec (.reduce j p) s = .next (settle
              (if (v.topo j).ownRank = c.root ∧ c.dstStage then noteResult ((v.topo j).path p).lu j c.dst (66 * c.blocks) v else v)))
            ∧ (workingColl s j p 2 = some c → exec (.broadcast j p) s = .next (settle (broadcastSteps j p (c.frames - c.next) v)))
            ∧ (workingColl s j p 3 = some c → prismMay s j = true → exec (.prism j p) s = .next (settle (prismBegin j p d v))))
          ∧ (∀ c k, workingColl s j p k = some c → c.started = false → s.Quiet →
            ∀ t, waitRead j c.waitAddr c.waitVal s = (.ok false, t) → t.Quiet →
              (k = 0 → exec (.colNop j p) s = .next t) ∧ (k = 1 → exec (.reduce j p) s = .next t)
              ∧ (k = 2 → exec (.broadcast j p) s = .next t) ∧ (k = 3 → prismMay s j = true → exec (.prism j p) s = .next t))
          ∧ (∀ c, c.started = true →
            (workingColl s j p 2 = some c → exec (.broadcast j p) s = .next (settle (broadcastSteps j p (c.frames - c.next) s)))
            ∧ (workingColl s j p 3 = some c → prismMay s j = true → exec (.prism j p) s = .next (settle (prismStep j p c s)))
            ∧ (workingColl s j p 1 = some c →
              let b := frameBlocks c c.next
              let inc := (rolesOf (s.topo j) ((s.topo j).path p) c).1
              (∀ ch ∈ inc, ∀ l, (inboxOf s j ch).head? = some l → l.length = 66 * b.2) →
                (s.Quiet → heads s j inc = none → exec (.reduceHop j p) s = .next s)
                ∧ ∀ l, heads s j inc = some l → ∀ own t, contribution j b.1 b.2 c (popInbox j inc s) = (.ok own, t) →
                  exec (.reduceHop j p) s = .next (settle (hopFrame j p b.1 b.2 c own l t)))))
        ∧ (s.Quiet →
          (workingColl s j p 0 = none → exec (.colNop j p) s = .next s)
          ∧ (workingColl s j p 1 = none → exec (.reduce j p) s = .next s ∧ exec (.reduceHop j p) s = .next s)
          ∧ (workingColl s j p 2 = none → exec (.broadcast j p) s = .next s)
          ∧ ((workingColl s j p 3 = none ∨ prismMay s j = false) → exec (.prism j p) s = .next s))
        ∧ (∀ c r, collsOf s j p = c :: r → c.fin = true → pathWorks s j p = true → framesHeld s j c = false →
          let x := s.job j
          let v := add32 (lget 0 x.colDone p) 1
          let w := colPut j (4 * p) v (count 0x5870 (j + 1) 1 (s.setJob j { x with colls := lset x.colls p r, colDone := lset x.colDone p v }))
          ((c.kind ≠ 3 ∨ w.jobState j ≠ 3) → exec (.collectiveComplete j p) s = .next (settle w))
          ∧ (c.kind = 3 → w.jobState j = 3 → (collsOf w j p).length ≤ r.length →
            exec (.collectiveComplete j p) s = .next (settle (endSwitch j c w))))
        ∧ (collsOf s j p = [] → s.Quiet → exec (.collectiveComplete j p) s = .next s))

/-- Two transit blocks combine in either order to the same block; a poisoned one poisons the result; two of one exponent whose sums fit give
the sums under that exponent. (Rests on R311, R312.) -/
def Obligations.BlocksCombine : Prop :=
  ∀ (a b : Block),
    combine a b = combine b a
    ∧ ((a.poisoned = true ∨ b.poisoned = true) → combine a b = poisonBlock 32 false false)
    ∧ (a.poisoned = false → b.poisoned = false → a.scale = b.scale →
      (List.zipWith (· + ·) a.ints b.ints).all qr16Fits = true →
      combine a b = blockOfInts a.scale (List.zipWith (· + ·) a.ints b.ints) false)

/-- A doorbell of a running landing queue sets PROD and takes the descriptors announced, or, beyond the queue's size, stops the queue; the
operation that a landing unit has reached does its work once its WAIT is met, and waits until then; its completion reports a failed
status, counts a done step, and RETIRED goes past the completed ones at the head. An ORTHO whose layer and writes are good writes the
basis and its transpose, the STATUS of a void layer, X_P and ORTHO_DONE, and notes whether the layer is void for the step; a void layer's
basis is zero; a NORM writes its norm word and GNORM2, an UPDATE of a void layer ends by the policy for one, and an UPDATE that is applied
by its second pass; a NORM or an UPDATE of a layer that cannot be read ends with that failure and writes nothing. (Rests on R346 to R351,
R360; R336, R337, R344, R347, R356, R360. What a failed operation leaves is log entry 70's, the place of a result log entry 80's, the queue
and when a malformed operation ends log entries 89 and 142's, the arithmetic log entry 90's, void steps log entry 91's, the moments log
entries 92 and 128's.) -/
def Obligations.LandingQueueRuns : Prop :=
  (∀ (s : State) (j v : Nat), j < 16 →
        let p := v % 2 ^ 32
        (isRunning s j = true → luQueueOn s j = true → luRunning s j = true →
          (sub32 p (s.job j).luCons ≤ luSlots s j →
            exec (.luDoorbell j v) s = .next (settle (takeLuAll j (s.setJob j { s.job j with luProd := p }))))
          ∧ (luSlots s j < sub32 p (s.job j).luCons →
            exec (.luDoorbell j v) s = .next (settle (luStateFault j s (luStopped j 0 (s.job j).luCons 1 0 s)))))
        ∧ (luRunning s j = false → s.Quiet → exec (.luDoorbell j v) s = .next s)
        ∧ (∀ o t u, takeLuAll j s = u →
          waitRead j o.waitAddr o.waitVal u = (.ok true, t) →
          (luReady u j 0 = some o → exec (.luNop j) s = .next (settle (putLu j { o with done := true } t)))
          ∧ (luReady u j 1 = some o → exec (.ortho j) s = .next (settle (orthoWork j o t)))
          ∧ (luReady u j 2 = some o → exec (.norm j) s = .next (settle (normWork j o t)))
          ∧ (luReady u j 3 = some o → exec (.update j) s = .next (settle (updateWork j o t))))
        ∧ (∀ o t u, takeLuAll j s = u → waitRead j o.waitAddr o.waitVal u = (.ok false, t) → t.Quiet →
          (luReady u j 0 = some o → exec (.luNop j) s = .next t) ∧ (luReady u j 1 = some o → exec (.ortho j) s = .next t)
          ∧ (luReady u j 2 = some o → exec (.norm j) s = .next t) ∧ (luReady u j 3 = some o → exec (.update j) s = .next t))
        ∧ (∀ u, takeLuAll j s = u → u.Quiet →
          (luReady u j 0 = none → exec (.luNop j) s = .next u) ∧ (luReady u j 1 = none → exec (.ortho j) s = .next u)
          ∧ (luReady u j 2 = none → exec (.norm j) s = .next u) ∧ (luReady u j 3 = none → exec (.update j) s = .next u))
        ∧ ((s.job j).luOps.find? (fun o => o.done && !o.completed) = none → s.Quiet →
          exec (.landingOperationComplete j) s = .next s)
        ∧ (∀ o, (s.job j).luOps.find? (fun o => o.done && !o.completed) = some o →
          let d := dropResult j o (putLu j { o with completed := true } s)
          let off := if o.status = 1 then o.detail else 0
          let u := if 1 ≤ o.status ∧ o.status ≤ 3 then
              luStateFault j d (jobFault j (0x20 + o.status) (if o.status = 1 then off else o.addr / 64) noSubject
                (luStopped j o.lu o.index o.status off d))
            else d
          let x := u.job j
          let x := if o.kind = 3 ∧ o.status = 0 then { x with lastStep := max x.lastStep o.step } else x
          let r := retireLu x.luOps 0
          let w := u.setJob j { x with luOps := r.1, luRetired := add32 x.luRetired r.2 }
          exec (.landingOperationComplete j) s = .next (settle (if r.2 = 0 then w else luPut j 4 (add32 x.luRetired r.2) w))))
  ∧ (∀ (s t u : State) (j : Nat) (o : LuOp),
        (∀ x, luLayer j o s = (.ok x, t) →
          let blocks := sumBlocks t o (x.rows * x.rank)
          let void := blocks.any Block.poisoned
          let rows := rowsOf x.rank x.rows (sumCodes (topExp blocks) (x.rows * x.rank) blocks)
          let cols := if void then List.replicate x.rank (List.replicate x.rows 0)
            else orthoColumns ((List.range x.rank).map fun k => columnOf k rows)
          let stores := (x.basis, basisBytes x cols) :: ((if void then [(x.stateAddr + 12, leBytes 1 1)] else [])
            ++ [(x.stateAddr + 13, leBytes 1 (topExp blocks))] ++ [(x.stateAddr + 4, leBytes 4 o.step32)])
          (luWrite j stores t = (none, u) → orthoWork j o s = putLu j { o with done := true }
            (let y := u.job j
             let rest := y.luVoid.filter fun e => e.1 != o.layer
             u.setJob j { y with luVoid := if void then rest ++ [(o.layer, o.step)] else rest }))
          ∧ (∀ e, luWrite j stores t = (some e, u) → orthoWork j o s = failLu j o e u))
        ∧ (∀ x v, luLayer j o s = (.ok x, t) → normValue j o x t = (.ok v, u) →
          ∀ w, luWrite j [(x.stateAddr + 20, leBytes 4 v), (o.aux, leBytes 4 v ++ leBytes 4 o.step32)] u = (none, w) →
            normWork j o s = putLu j { o with done := true } w)
        ∧ (∀ x c st master t1 t2, luLayer j o s = (.ok x, t) → clipFactor j o t = (.ok c, t1) →
          readCodes j 4 x.stateAddr 16 t1 = (.ok st, t2) → readMaster j x t2 = (.ok master, u) →
            let blocks := sumBlocks u o (x.cols * x.rank)
            let flags := lget 0 st 3 / 2 ^ 24
            ((blocks.any Block.poisoned || orthoVoid u j o) = true →
              updateWork j o s = voidUpdate j o x 1 (topExp blocks) (mainPath u o x) master flags u)
            ∧ ((blocks.any Block.poisoned || orthoVoid u j o) = false → finF32 c = false →
              updateWork j o s = voidUpdate j o x 2 (topExp blocks) (mainPath u o x) master flags u)
            ∧ ((blocks.any Block.poisoned || orthoVoid u j o) = false → finF32 c = true →
              updateWork j o s = firstPass j o x c (topExp blocks) (mainPath u o x) master st u))
        ∧ ∀ e, luLayer j o s = (.error e, t) →
          orthoWork j o s = failLu j o e t ∧ normWork j o s = failLu j o e t ∧ updateWork j o s = failLu j o e t)

/-! ### Jobs and the coordinator -/

/-- JOB_CTRL is refused as busy outside IDLE except to stop; STOP of a context ends its work, closes its ports and leaves it IDLE, with its
mirror OFF; START and SPARE of an IDLE context read its descriptor and answer its first failing check, and with none it enters the job or
stands by; JOB_KICK restarts the watchdog, whose expiry faults the job with 0x0D; a signed message that fails its check is counted and
reported, and a good one of another epoch changes nothing. (Rests on R368, R373, R375 to R378, R403, R569; the checks that SPARE is held
to, what STOP ends, the first epoch, and what is dropped rest on log entries 94, 95, 97, 100, 132 and 143, the model's reading.) -/
def Obligations.JobControl : Prop :=
  ∀ (s : State) (j : Nat), j < 16 →
    (s.jobState j ≠ 0 → applyJobCtrl j 1 s = (stBusy, s) ∧ applyJobCtrl j 3 s = (stBusy, s)
      ∧ (let u := issueRemotes (closeJob j ((releaseSlots j (stopWork j s)).jobEpoch j) 1 (releaseSlots j (stopWork j s)))
         applyJobCtrl j 2 s = (stOk, mirrorOff j (setJobState j 0 (u.setJob j { u.job j with watchdog := false })))))
    ∧ (s.jobState j = 0 → applyJobCtrl j 2 s = (stOk, s)
      ∧ (∀ (spare : Bool) o t, readDesc j s = (.error o, t) →
        applyJobCtrl j (if spare then 3 else 1) s = (stOk, refuseStart j 1 o t))
      ∧ (∀ (spare : Bool) d ps t e u, readDesc j s = (.ok (d, ps), t) →
        startChecks spare j (t.setJob j { Job.init with desc := d, prots := ps, front := freshFront (t.job j).front }) = (e, u) →
        applyJobCtrl j (if spare then 3 else 1) s = (stOk, match e with
          | some e => refuseStart j e.1 e.2 (u.setJob j (t.job j))
          | none => enterJob spare j u)))
    ∧ (s.jobState j ≠ 0 → ∀ (l : List Byte) (p : Nat) a b ts, p < 16 → l.length = 160 →
      ∀ c ∈ [(0x24, Instr.start j l), (0x26, .switch j l), (0x28, .ckptDone j l), (0x25, .prismPlan j l a b ts p)],
        fieldOf l 0 1 = c.1 → msgEpoch l ≠ s.jobEpoch j →
          exec c.2 s = .next (settle (if signedOk s j l 64 = true then s else badSig j c.1 (msgSender l) s)))
    ∧ applyJobKick j 1 s = (stOk, s.setJob j { s.job j with
        watchdog := (s.jobState j == 2 || s.jobState j == 3) && s.num (jobIx j 3) 3 != 0 })
    ∧ (timeRuns s = true →
      ((s.job j).watchdog = true → s.num (jobIx j 3) 3 ≠ 0 → exec (.watchdogExpiry j) s = .next (settle (jobFault j 0x0D 0 noSubject s)))
      ∧ (s.Quiet → (s.job j).watchdog = false → exec (.watchdogExpiry j) s = .next s))

/-- A signed message for a member of its code and length: one that fails its signature is counted and reported; one with a reserved field that
is not 0 is dropped and counted; one of the current epoch starts a STARTING job, takes it into SWITCHING, completes its checkpoint or posts
its Prism. (Rests on R9, R375 to R377, R387, R390, R396, R398; what is dropped and its count, when a START is taken and a plan's fit rest on
log entries 97, 98 and 132, the model's reading.) -/
def Obligations.SignedMessages : Prop :=
  ∀ (s : State) (j : Nat) (l : List Byte), j < 16 → s.jobState j ≠ 0 → s.jobState j ≠ 6 → s.jobState j ≠ 7 → msgEpoch l = s.jobEpoch j →
    (fieldOf l 0 1 = 0x24 → l.length = 160 → exec (.start j l) s = .next (settle
      (if signedOk s j l 64 then (if ctrlClear l then takeStart j l s else dropCtrl j s) else badSig j 0x24 (msgSender l) s)))
    ∧ (fieldOf l 0 1 = 0x26 → l.length = 160 → exec (.switch j l) s = .next (settle
      (if signedOk s j l 64 then (if ctrlClear l then takeSwitch j l s else dropCtrl j s) else badSig j 0x26 (msgSender l) s)))
    ∧ (fieldOf l 0 1 = 0x28 → l.length = 160 → exec (.ckptDone j l) s = .next (settle
      (if signedOk s j l 64 then (if ctrlClear l then takeCkpt j l s else dropCtrl j s) else badSig j 0x28 (msgSender l) s)))
    ∧ (∀ a b ts p, p < 16 → fieldOf l 0 1 = 0x25 → l.length = 160 → exec (.prismPlan j l a b ts p) s = .next (settle
      (if signedOk s j l 64 then (if ctrlClear l then takePrismPlan j l a b ts p s else dropCtrl j s) else badSig j 0x25 (msgSender l) s)))
    ∧ (fieldOf l 0 1 = 0x22 → l.length = 384 → (s.job j).accepted.find? (fun e => e.1 == fieldOf l 6 2) = none →
      ∀ m dg, exec (.epochPlan j ⟨l, m, dg⟩) s = .next (settle (if signedOk s j l 288 then
          (if ctrlClear l then (if planFits s j l then acceptPlan j ⟨l, m, dg⟩ s else s) else dropCtrl j s)
        else badSig j 0x22 (msgSender l) s)))
    ∧ (s.jobState j = 1 →
      takeStart j l s =
        (let n := fieldOf l 8 8 - 1
         if (s.job j).desc.kind = 0 then armWatchdog j (setJobState j 2 (s.setNum (jobIx j 6) 3 n))
         else postAllHearts j (armWatchdog j (setJobState j 2 (s.setJob j { s.job j with lastStep := n, restoreStep := n })))))
    ∧ (∀ code sender, badSig j code sender s =
      post 0x4005 (src 9 j) j [(1, j), (1, code), (2, sender)] (count 0x5883 (j + 1) 1 s))

/-- A well-formed record for the coordinator of its code and epoch is taken by the coordinator task: stem and norm records, heartbeats, fault
and snag reports, READY and PART_DONE; heartbeats and fault reports by the standby too. One with a reserved field that is not 0 is dropped
and counted, and one elsewhere does nothing. (Rests on R9, R339 to R344, R376, R379, R391, R398, R401, R558; the drop's count, what the
standby keeps, who is heard and what is judged rest on log entries 88, 99, 132 and 145, the model's reading.) -/
def Obligations.CoordinatorTakesRecords : Prop :=
  ∀ (s : State) (j : Nat) (l : List Byte), j < 16 →
    (hears s j = true → msgEpoch l = s.jobEpoch j → ctrlClear l = true →
      (fieldOf l 0 1 = 0x20 → exec (.heartbeat j l) s = .next (settle
        (s.setJob j { s.job j with heard := tput (msgSender l) (fieldOf l 8 8) (s.job j).heard })))
      ∧ (fieldOf l 0 1 = 0x21 → exec (.faultReport j l) s = .next (settle (takeReport j l s))))
    ∧ (isCoord s j = true → msgEpoch l = s.jobEpoch j → ctrlClear l = true →
      (fieldOf l 0 1 = 0x23 → exec (.ready j l) s = .next (settle (takeReady j l s)))
      ∧ (fieldOf l 0 1 = 0x27 → ∀ plans, exec (.partDone j ⟨l, plans⟩) s = .next (settle (takePart j ⟨l, plans⟩ s)))
      ∧ (fieldOf l 0 1 = 0x29 → exec (.snagReport j l) s = .next (settle
          (let dev := fieldOf l 8 2 % 2 ^ 14
           if (membersOf s j).contains dev then s
           else sendFell j dev (s.jobEpoch j) (b2n ((s.job j).coord.replaced.contains dev)) s))))
    ∧ (isCoord s j = true → fieldOf l 4 2 = s.jobEpoch j → updateClear l = true →
      (fieldOf l 0 1 = 1 → ∀ a, exec (.stemRecord j ⟨l, a⟩) s = .next (settle (takeStem j l a s)))
      ∧ (fieldOf l 0 1 = 2 → exec (.normReport j l) s = .next (settle (takeNorm j l s))))
    ∧ (msgEpoch l = s.jobEpoch j → ctrlClear l = false →
      (hears s j = true → ∀ c ∈ [(0x20, Instr.heartbeat j l), (0x21, .faultReport j l)], fieldOf l 0 1 = c.1 →
        exec c.2 s = .next (settle (dropCtrl j s)))
      ∧ (isCoord s j = true → ∀ plans, ∀ c ∈ [(0x23, Instr.ready j l), (0x27, .partDone j ⟨l, plans⟩), (0x29, .snagReport j l)],
        fieldOf l 0 1 = c.1 → exec c.2 s = .next (settle (dropCtrl j s))))
    ∧ (isCoord s j = true → fieldOf l 4 2 = s.jobEpoch j → updateClear l = false →
      ∀ a, ∀ c ∈ [(1, Instr.stemRecord j ⟨l, a⟩), (2, .normReport j l)], fieldOf l 0 1 = c.1 →
        exec c.2 s = .next (settle (dropCtrl j s)))
    ∧ (s.Quiet →
      (hears s j = false → ∀ i ∈ [Instr.heartbeat j l, .faultReport j l], exec i s = .next s)
      ∧ (isCoord s j = false → ∀ plans a,
        ∀ i ∈ [Instr.ready j l, .partDone j ⟨l, plans⟩, .snagReport j l, .stemRecord j ⟨l, a⟩, .normReport j l], exec i s = .next s))
    ∧ (∀ step dev a finite, (s.job j).coord.listed = none → (membersOf s j).contains dev = true →
      (s.job j).coord.stems.any (fun r => r.1 == step && r.2.1 == dev) = false →
      let stems := (s.job j).coord.stems ++ [(step, dev, finite)]
      let u := setCoord j { (s.job j).coord with stems := stems } s
      stemOne j step dev a finite s = if (stems.filter (·.1 == step)).length = (membersOf s j).length then issueList j step a u else u)

/-- What the members and the timers of a job do: a member list is checked in its order and, of the step at hand, skips the step or counts the
package out; a clip record writes the clip word; a straggler's time over issues the list; a heartbeat is sent, and what the job program
still owes goes on, a checkpoint between switches included; a member not heard from is dead; a restart that is late gets a further plan.
(Rests on R338, R341, R344, R360, R376, R379, R391, R397; what the heartbeat carries on, the checkpoint's time and the judging of a dead
member are the model's choices and readings, log entries 54, 93, 99, 113, 129, 130 and 132.) -/
def Obligations.ListsAndTimers : Prop :=
  ∀ (s : State) (j : Nat), j < 16 →
    (∀ l step, takesWork s j = true → exec (.memberList j l step) s = .next (settle
      (match listBad s j l step with
       | some o => jobFault j 0x17 o noSubject (post 0x380A (src 9 j) j [(1, j), (8, step), (2, o)] s)
       | none =>
         if fieldOf l 10 1 = 1 then skipStep j step s
         else if bit (leNat (l.drop 64)) (s.topo j).ownRank then s
         else post 0x380B (src 9 j) j [(1, j), (8, step), (1, s.num 0x380F (j + 1))] (count 0x587B (j + 1) 1 s))))
    ∧ (∀ l step a, takesWork s j = true → fieldOf l 0 1 = 3 → fieldOf l 4 2 = s.jobEpoch j →
      exec (.clipRecord j l step a) s = .next (settle
        (if signedOk s j l 64 = false then rejectList j step 64 s
         else if fieldOf l 8 8 ≠ step then rejectList j step 8 s
         else if updateClear l = false then rejectList j step 24 s
         else (tryWrite (a + 4) (leBytes 4 step) (tryWrite a (sliceOf l 16 4) s).2).2)))
    ∧ (takesWork s j = false → s.Quiet →
      (∀ l step, exec (.memberList j l step) s = .next s) ∧ ∀ l step a, exec (.clipRecord j l step a) s = .next s)
    ∧ (timeRuns s = true →
      (∀ step, isCoord s j = true → (s.job j).coord.listed = none →
        let n := ((s.job j).coord.stems.filter (·.1 == step)).length
        1 ≤ n → s.num 0x380C (j + 1) ≤ n → ∀ a, exec (.stragglerRelease j ⟨step, a⟩) s = .next (settle (issueList j step a s)))
      ∧ (1 ≤ s.jobState j → s.jobState j ≤ 5 → isCoord s j = false →
        let v := if (s.job j).desc.kind = 0 then (s.job j).front.nextDeliver - 1 else (s.job j).lastStep
        let w := postAllHearts j (stepFour j (sendBoth j (ctrlMsg s j 0x20 64 ([0, 0] ++ leBytes 8 v)) s))
        let u := orphanSwitch j (mayCheckpoint j (tryPlan j (tryPart j (postLists j (s.job j).coord.listsDue.length w))))
        (u.job j).coord.switchDue = false → exec (.heartbeatTimer j) s = .next (settle u))
      ∧ (∀ dev, isCoord s j = true → dev ≠ (s.job j).desc.device → (membersOf s j).contains dev = true →
        (s.job j).coord.dead.contains dev = false →
        exec (.deadTimeout j dev) s = .next (settle (actOnReports true j
          (setCoord j { (s.job j).coord with dead := (s.job j).coord.dead ++ [dev] } s))))
      ∧ (isCoord s j = true → s.jobState j = 5 → (s.job j).coord.stopped = false →
        exec (.restartTimeout j) s = .next (settle (issuePlan j (setCoord j { (s.job j).coord with planned := false } s)))))

/-- A request is taken in by the front end of a running job when the log and the journal have room, its slot and pages can be had and its
descriptor and page table written, and otherwise the front end says that it stops; a restarted job replays its journal record by record,
each counted, a request in a slot again; a result that the program brings waits for the log; the next result of an attached host's job
goes into the host ring, and that of a gateway's job to the device that its header names. (Rests on R19, R20, R22, R28, R152 to R155, R396,
R399, R452, R568; the order of replay, the stops of the front end and the gateway's delivery rest on log entries 101, 106 and 131, the
model's reading.) -/
def Obligations.FrontEnd : Prop :=
  ∀ (s : State) (j : Nat), j < 16 →
    ((s.jobState j = 2 ∨ s.jobState j = 3) → replayDone s j = false → s.num (jobIx j 8) 3 ≠ 2 →
      let seq := (s.job j).replaySeq + (s.job j).replayed
      let ran : State → State := fun u => putLogLast j (count 0x5882 (j + 1) 1 (u.setJob j { u.job j with replayed := (s.job j).replayed + 1 }))
      (∀ need t, sourceRec j seq s = (none, t) → exec (.journalReplay ⟨j, need⟩) s = .next (settle (jobFault j 0x1C seq noSubject t)))
      ∧ ∀ need off l t, sourceRec j seq s = (some (off, l), t) →
        (fieldOf l 15 1 ≠ 1 → exec (.journalReplay ⟨j, need⟩) s = .next (settle (ran t)))
        ∧ (fieldOf l 15 1 = 1 → ∀ e u, reserve j need t = (some e, u) →
          exec (.journalReplay ⟨j, need⟩) s = .next (settle (ran (seat j seq (fieldOf l 16 8 / 2 ^ 50) need e u)))))
    ∧ (s.Quiet → ((s.jobState j ≠ 2 ∧ s.jobState j ≠ 3) ∨ replayDone s j = true ∨ s.num (jobIx j 8) 3 = 2) → ∀ need, exec (.journalReplay ⟨j, need⟩) s = .next s)
    ∧ (∀ b source (need : KvNeed), s.jobState j = 2 → (s.job j).front.closed = false → replayDone s j = true →
      let c : Instr := .requestAccept j b source need.layers need.positions need.toKvForm need.table
      let open_ : State → State := fun u => u.setJob j { u.job j with front := { (u.job j).front with fullJournal := false } }
      ((s.job j).desc.kind = 0 →
        let t := noteRoom j s
        (logRoom s j = false → t = stopForLog j s)
        ∧ (logRoom t j = false → exec c s = .next (settle t))
        ∧ (logRoom t j = true → journalFits t j (recLen b.length) = false → exec c s = .next (settle (stopForJournal j t)))
        ∧ (logRoom t j = true → journalFits t j (recLen b.length) = true → ∀ o x, reserve j need (open_ t) = (o, x) →
          exec c s = .next (settle (match o with
            | some e => journalRequest j 1 source b (some (need, e)) x
            | none => x))))
      ∧ ((s.job j).desc.kind ≠ 0 →
        (journalFits s j (recLen b.length) = false → exec c s = .next (settle (stopForJournal j s)))
        ∧ (journalFits s j (recLen b.length) = true → exec c s = .next (settle (journalRequest j 2 source b none (open_ s))))))
    ∧ (s.Quiet → (s.jobState j ≠ 2 ∨ (s.job j).front.closed = true) →
      ∀ b source (need : KvNeed), exec (.requestAccept j b source need.layers need.positions need.toKvForm need.table) s = .next s)
    ∧ (∀ seq b slot source, (s.job j).front.opened.find? (fun e => e.1 == seq) = some (seq, slot, source) →
      (dlogCtrl s j = 0 → takeResult j seq b s = putLogLast j (closeRequest j seq s))
      ∧ (dlogCtrl s j ≠ 0 → ackedSeq s j < seq → (s.job j).front.logged.any (·.1 == seq) = false →
        (s.job j).front.results.any (·.1 == seq) = false →
        takeResult j seq b s = settleLog j (s.setJob j { s.job j with front := { (s.job j).front with
          results := (s.job j).front.results ++ [(seq, recBytes seq 1 source b)] } })))
    ∧ (∀ res c t, c < 240 → (match res with | some r => takeResult j r.1 r.2 s | none => s) = t →
      t.jobState j ≠ 0 → dlogCtrl t j ≠ 0 →
      let k := t.num 0x2C21 (j + 1)
      (k < 2 → (t.job j).front.delivering = true → (t.job j).front.flushing = none →
        linkAttached t k = true → ∀ u, sameAttach j k t = (true, u) →
        ∀ seq l v, nextRecord j u = (some (seq, l), v) → ∀ base size, hostRing u j = some (base, size) →
        exec (.resultDelivery ⟨j, res, c⟩) s = .next (settle (placeRecord j base size seq l v)))
      ∧ (k = 2 → ∀ seq l v, nextRecord j t = (some (seq, l), v) →
        let dst := fieldOf l 16 8 / 2 ^ 50
        let w := if dst = noSubject then v else (pieces (l.length / 4224 + 1) 4224 l).foldl (fun s p => sendData j c dst p s) v
        exec (.resultDelivery ⟨j, res, c⟩) s =
          .next (settle (w.setJob j { w.job j with front := { (w.job j).front with nextDeliver := seq + 1 } }))))
    ∧ (s.Quiet → s.jobState j = 0 → ∀ c, c < 240 → exec (.resultDelivery ⟨j, none, c⟩) s = .next s)

/-! ### Host coupling -/

/-- An existing link that is DOWN comes up DETACHED and is reported; ATTACH of a DETACHED link of a ready package with a non-zero identity
takes the settings of its jobs, leaves it ATTACHED and reported, and sends the MSI-X messages that waited, and any other is counted;
DETACH, a clear of bus mastering, a reset and a link that goes down each detach an ATTACHED link with their own cause; from DETACHED a
link goes DOWN, and a reset leaves it DETACHED; a reset returns the function's own registers, the size of BAR2 and the MSI-X table among
them, to their reset values. (Rests on R428, R429, R444 to R448, R454; that a host whose requests do not reach the function cannot attach,
which links exist, and what a reset from DETACHED leaves rest on log entries 36, 48, 102 and 103, the model's reading.) -/
def Obligations.HostLinks : Prop :=
  ∀ (s : State) (k : Nat), s.Quiet → k < 2 →
    (linkExists s k = true → linkState s k = 0 → ∀ speed width, 1 ≤ speed → speed ≤ 7 → (width = 1 ∨ width = 2 ∨ width = 4) →
      exec (.pcieLinkUp k speed width) s = .next (settle (post 0x2C01 (src 8 k) 0x1F [(1, k), (1, speed), (1, width)]
        (((s.setNum 0x2C01 (k + 1) 1).setNum 0x2C02 (k + 1) speed).setNum 0x2C03 (k + 1) width))))
    ∧ (linkState s k ≠ 0 → ∀ speed width, exec (.pcieLinkUp k speed width) s = .next s)
    ∧ (linkExists s k = true → (linkState s k = 0 ∨ barReach s k = true) → ∀ v,
      let id := v % 2 ^ 32
      (packageReady s = true → id ≠ 0 → linkState s k = 1 → exec (.attach k v) s = .next (settle
        (let u := (List.range 16).foldl (fun u j => attachJob k j u) s
         let u := u.setHlink k { u.hlink k with inErrPages := [] }
         let u := (u.setNum 0x2C01 (k + 1) 2).setNum 0x2C05 (k + 1) id
         flushMsix k (deliverAll (post 0x2C03 (src 8 k) 0x1F [(1, k), (4, id), (4, u.num 0x2C04 (k + 1))] u)))))
      ∧ ((packageReady s = false ∨ id = 0 ∨ linkState s k ≠ 1) → exec (.attach k v) s = .next (settle (count 0x58A3 (k + 1) 1 s))))
    ∧ (linkState s k = 2 →
      exec (.detach k) s = .next (settle (detachWork k 3 (s.setNum 0x2C01 (k + 1) 1)))
      ∧ (let u := s.setHlink k { s.hlink k with busMaster := false }
         exec (.busMasterDisable k) s = .next (settle (detachWork k 2 (u.setNum 0x2C01 (k + 1) 1))))
      ∧ (∀ kind, exec (.pcieReset k kind) s = .next (settle (resetFunction k (detachWork k 1 (s.setNum 0x2C01 (k + 1) 1)))))
      ∧ exec (.pcieLinkDown k) s = .next (settle (resetFunction k
          (((detachWork k 0 (s.setNum 0x2C01 (k + 1) 0)).setNum 0x2C02 (k + 1) 0).setNum 0x2C03 (k + 1) 0))))
    ∧ (linkState s k = 1 →
      exec (.detach k) s = .next s
      ∧ exec (.busMasterDisable k) s = .next (s.setHlink k { s.hlink k with busMaster := false })
      ∧ (∀ kind, exec (.pcieReset k kind) s = .next (settle (resetFunction k (s.setNum 0x2C01 (k + 1) 1))))
      ∧ exec (.pcieLinkDown k) s = .next (settle (resetFunction k
          (((s.setNum 0x2C01 (k + 1) 0).setNum 0x2C02 (k + 1) 0).setNum 0x2C03 (k + 1) 0))))
    ∧ (linkState s k = 0 →
      exec (.detach k) s = .next s ∧ exec (.pcieLinkDown k) s = .next s
      ∧ exec (.busMasterDisable k) s = .next (s.setHlink k { s.hlink k with busMaster := false })
      ∧ ∀ kind, exec (.pcieReset k kind) s = .next (settle (
          { s with ctl := tkeep (fun a => !(decide (k * 2 ^ 32 ≤ a) && decide (a < k * 2 ^ 32 + 0x410))) s.ctl }.setHlink k
            { HLink.init with bias := (s.hlink k).bias, posted := (s.hlink k).posted, inErrPages := (s.hlink k).inErrPages,
                              ours := (s.hlink k).ours, theirs := (s.hlink k).theirs })))

/-- An access to BAR2 of a ready package reads, writes or atomically changes the device memory under the window, through the caches in shared
bias and past them in device bias, with a completion that says whether it was poisoned; in a hole, poisoned (AER records it), or of a kind
not offered it is counted or refused and changes no memory; a read of BAR0 answers its register, LINK_INFO and BIAS_DONE among them, and 0
where none is assigned; a bias command sets or clears the bias of its page, or flushes it; one with reserved bits, or of a page past the
window, is counted. A completion of an outbound read delivers its bytes, or ends what waits for them when it is refused, poisoned or too
late, the last also counted and reported; an acknowledgement above the last one and not beyond what was delivered moves ACKED_SEQ, frees
the log of the records that it covers and trims the journal, and one beyond it is counted and reported. (Rests on R427, R430, R431, R432 to
R435; R27, R28, R440, R442, R451, R452. The bits of configuration space that let a request reach the function are log entry 48's; what an
access leaves of a line that both sides used, what a refused read ends, and the order of delivery rest on log entries 38, 104, 105, 106 and
139, the model's choices and readings.) -/
def Obligations.HostAccesses : Prop :=
  (∀ (s : State) (k off : Nat), k < 2 → packageReady s = true →
        let a := s.num 0x2C07 (k + 1) + off
        (barReach s k = true → ∀ n, barHit s k off n = true →
          (barOk s k off n = true → exec (.inboundRead k (.bar2 off) n) s = .next (settle
            (let r := if deviceBias s k off then directRead k a n s else readMem a n s
             (readBack k r.2).emit (.pcieCpl k (if r.1.2 then 2 else 0) r.1.1))))
          ∧ (barOk s k off n = false → exec (.inboundRead k (.bar2 off) n) s = .next (settle ((holeErr k off s).emit (.pcieCpl k 1 [])))))
        ∧ (barReach s k = true → ∀ n, n ≠ 0 → off + n ≤ 0x4000000 →
          ((barAssigned off = false ∨ off % n ≠ 0) → exec (.inboundRead k (.bar0 off) n) s = .next (settle
            ((readBack k s).emit (.pcieCpl k 0 (List.replicate n 0)))))
          ∧ (barAssigned off = true → off % n = 0 → exec (.inboundRead k (.bar0 off) n) s = .next (settle
              ((readBack k (barLoad k off n s).2).emit (.pcieCpl k 0 (barLoad k off n s).1)))))
        ∧ (barReach s k = false → linkExists s k = true → linkState s k ≠ 0 →
          (∀ n, n ≠ 0 → off + n ≤ 0x4000000 → exec (.inboundRead k (.bar0 off) n) s = .next (settle (s.emit (.pcieCpl k 1 []))))
          ∧ (∀ n, barHit s k off n = true → exec (.inboundRead k (.bar2 off) n) s = .next (settle (s.emit (.pcieCpl k 1 []))))
          ∧ (s.Quiet → ∀ l bad, exec (.inboundWrite k off l bad) s = .next s))
        ∧ (barReach s k = true →
          (∀ n, 0 < n → n ≤ 8 → 0x100000 % n = 0 → exec (.inboundRead k (.bar0 0x100000) n) s = .next (settle
            ((readBack k s).emit (.pcieCpl k 0 (if n = 8 then leBytes 8 (s.num 0x2C04 (k + 1) * 2 ^ 32 + linkState s k) else List.replicate n 0)))))
          ∧ exec (.inboundRead k (.bar0 0x100020) 8) s = .next (settle ((readBack k s).emit (.pcieCpl k 0 (leBytes 8 (s.num 0x2C0C (k + 1)))))))
        ∧ (barReach s k = true → ∀ (l : List Byte) (bad : Bool), barHit s k off l.length = true →
          (bad = true → exec (.inboundWrite k off l bad) s = .next (settle (
              let u := count 0x58A3 (k + 1) 1 s
              u.setHlink k { u.hlink k with aer := setBit (u.hlink k).aer 12 true })))
          ∧ (bad = false → barOk s k off l.length = false → exec (.inboundWrite k off l bad) s = .next (settle (holeErr k off s)))
          ∧ (bad = false → barOk s k off l.length = true → exec (.inboundWrite k off l bad) s = .next (settle
              (if deviceBias s k off then directWrite k (l.length / 64 + 2) a l s else writeMem a l s))))
        ∧ (barReach s k = true → ∀ w op x, (w = 4 ∨ w = 8 ∨ w = 16) → barHit s k off w = true → barOk s k off w = true →
          ((op = .add ∨ op = .swap ∨ ∃ c, op = .cas c) → w ≠ 16 → a % w = 0 → exec (.inboundAtomicop k off w op x) s = .next (settle
            (let r := if deviceBias s k off then directAtomic k op a w x s else atomicAt op a w x s
             r.2.emit (.pcieCpl k (if r.1.2 then 2 else 0) (leBytes w r.1.1)))))
          ∧ ((barAtomic op = false ∨ w = 16 ∨ a % w ≠ 0) → exec (.inboundAtomicop k off w op x) s = .next (settle (s.emit (.pcieCpl k 1 [])))))
        ∧ (linkExists s k = true → ∀ p, p < 2 ^ 19 → p * 0x200000 < 2 ^ (20 + (s.hlink k).barCode) →
          let done : State → State := fun u => u.setNum 0x2C0C (k + 1) (add32 (u.num 0x2C0C (k + 1)) 1)
          exec (.setShared k p) s = .next (settle (done (s.setHlink k { s.hlink k with bias := tset false p false (s.hlink k).bias })))
          ∧ exec (.setDevice k p) s = .next (settle (done (s.setHlink k { s.hlink k with bias := tset false p true (s.hlink k).bias })))
          ∧ exec (.flush k p) s = .next (settle (done (forgetOurs k (barAddr s k (p * 0x200000))
              ((pageLines s (barAddr s k (p * 0x200000))).foldl flushLine s)))))
        ∧ (linkExists s k = true → ∀ w, w < 2 ^ 62 → (w / 2 ^ 19 ≠ 0 ∨ 2 ^ (20 + (s.hlink k).barCode) ≤ w % 2 ^ 19 * 0x200000) →
          ∀ i ∈ [Instr.setShared k w, .setDevice k w, .flush k w], exec i s = .next (settle (count 0x58A3 (k + 1) 1 s))))
  ∧ (∀ (s : State) (id j : Nat), j < 16 →
        (∀ r, s.hst.reads.find? (·.id == id) = some r →
          let u := leaveRead r true s
          (∀ n i l, r.owner = .op n i → exec (.outboundReadCompletion id (.data l)) s = .next (settle (hostDeliver r.addr (sliceOf l 0 r.length) u)))
          ∧ (∀ i l, r.owner = .front i → exec (.outboundReadCompletion id (.data l)) s = .next (settle (flushedRecord i u)))
          ∧ (∀ i o, r.owner = .front i → o = .poisoned ∨ o = .refused →
            exec (.outboundReadCompletion id o) s = .next (settle (stopDelivery i u)))
          ∧ exec (.outboundReadCompletion id .poisoned) s = .next (settle (endRead r 3 u))
          ∧ exec (.outboundReadCompletion id .refused) s = .next (settle (endRead r 2 u))
          ∧ (s.tim.refclk = true → exec (.hostCplTimeout id) s = .next (settle (endRead r 7 (post 0x2C04 (src 8 r.link) 0x1F [(1, r.link), (8, hostPhys r.addr)]
              (count 0x58A2 (r.link + 1) 1 (leaveRead r false s)))))))
        ∧ (s.Quiet → (s.hst.reads.find? (·.id == id) = none ∨ s.tim.refclk = false) → exec (.hostCplTimeout id) s = .next s)
        ∧ (s.Quiet → s.hst.reads.find? (·.id == id) = none → ∀ o, exec (.outboundReadCompletion id o) s = .next s)
        ∧ (∀ v, v < 2 ^ 64 →
          (s.Quiet → v ≤ ackedSeq s j → exec (.ack j v) s = .next s)
          ∧ (ackedSeq s j < v → ∀ last t, ctrlField j 0 8 s = (last, t) →
            (last < v → exec (.ack j v) s = .next (settle (post 0x2C06 (src 9 j) j [(1, j), (8, v), (8, last)] (count 0x58A5 (j + 1) 1 t))))
            ∧ (v ≤ last →
              let u := (tryWrite (dlogCtrl t j + 8) (leBytes 8 v) t).2.setNum (jobIx j 6) 4 v
              let u := settleLog j (u.setJob j { u.job j with front := { (u.job j).front with
                logged := (u.job j).front.logged.filter fun e => decide (v < e.1) } })
              exec (.ack j v) s = .next (settle (if u.jobState j = 0 then u else putJournalShadow j (trimJournal j u)))))))
end

