-- ==== Sys2Proof/Laws/Bits.lean ====
section
/-!
SUPPORT. Laws/Bits.lean: the laws of sparse tables (read after write, canonical form kept) and of byte lists.
-/

namespace Sys2Proof.Machine

theorem tsortedFrom_of_twfFrom {α : Type} [DecidableEq α] (d : α) (t : Tab α) :
    ∀ lo, twfFrom d lo t = true → tsortedFrom lo t = true := by
  induction t with
  | nil => intro lo _; rfl
  | cons e r ih =>
    intro lo h
    simp only [twfFrom, Bool.and_eq_true, decide_eq_true_eq] at h
    simp [tsortedFrom, h.1.1, ih _ h.2]

/-- A canonical table is sorted. -/
theorem tsorted_of_twf {α : Type} [DecidableEq α] (d : α) (t : Tab α) (h : twf d t = true) : tsorted t = true :=
  tsortedFrom_of_twfFrom d t 0 h

theorem tget_below {α : Type} (d : α) (k lo : Nat) (t : Tab α) (h : tsortedFrom lo t = true) (hk : k < lo) :
    tget d k t = d := by
  cases t with
  | nil => rfl
  | cons e r =>
    obtain ⟨k', v⟩ := e
    simp only [tsortedFrom, Bool.and_eq_true, decide_eq_true_eq] at h
    have h1 : k ≠ k' := by omega
    have h2 : k < k' := by omega
    simp [tget, h1, h2]

/-- A key reads what was last written to it. -/
theorem tget_tset_same {α : Type} [DecidableEq α] (d v : α) (k : Nat) (t : Tab α) (h : tsorted t = true) :
    tget d k (tset d k v t) = v := by
  suffices hs : ∀ lo, tsortedFrom lo t = true → tget d k (tset d k v t) = v from hs 0 h
  clear h
  induction t with
  | nil => intro lo _; by_cases hv : v = d <;> simp [tset, tget, hv]
  | cons e r ih =>
    obtain ⟨k', v'⟩ := e
    intro lo h
    simp only [tsortedFrom, Bool.and_eq_true, decide_eq_true_eq] at h
    by_cases h1 : k < k'
    · by_cases hv : v = d
      · have : k ≠ k' := by omega
        simp [tset, h1, hv, tget, this]
      · simp [tset, h1, hv, tget]
    · by_cases h2 : k = k'
      · subst h2
        by_cases hv : v = d
        · have := tget_below d k (k + 1) r h.2 (by omega)
          simp [tset, hv, this]
        · simp [tset, hv, tget]
      · simp [tset, h1, h2, tget, ih _ h.2]

/-- A key keeps its value when another is written, whatever the defaults the two keys read. -/
theorem tget_tset_other {α : Type} [DecidableEq α] (d d' v : α) (k j : Nat) (t : Tab α) (h : tsorted t = true)
    (hj : j ≠ k) : tget d' j (tset d k v t) = tget d' j t := by
  suffices hs : ∀ lo, tsortedFrom lo t = true → tget d' j (tset d k v t) = tget d' j t from hs 0 h
  clear h
  induction t with
  | nil => intro lo _; by_cases hv : v = d <;> simp [tset, tget, hv, hj]
  | cons e r ih =>
    obtain ⟨k', v'⟩ := e
    intro lo h
    simp only [tsortedFrom, Bool.and_eq_true, decide_eq_true_eq] at h
    by_cases h1 : k < k'
    · by_cases hv : v = d
      · simp [tset, h1, hv]
      · by_cases h3 : j < k
        · have a : j ≠ k' := by omega
          have b : j < k' := by omega
          simp [tset, h1, hv, tget, hj, h3, a, b]
        · simp [tset, h1, hv, tget, hj, h3]
    · by_cases h2 : k = k'
      · subst h2
        by_cases hv : v = d
        · by_cases h3 : j < k
          · have := tget_below d' j (k + 1) r h.2 (by omega)
            simp [tset, hv, tget, hj, h3, this]
          · simp [tset, hv, tget, hj, h3]
        · simp [tset, hv, tget, hj]
      · simp only [tset, h1, h2, if_false, tget]
        rw [ih _ h.2]

theorem tsortedFrom_tset {α : Type} [DecidableEq α] (d v : α) (k : Nat) (t : Tab α) :
    ∀ lo, lo ≤ k → tsortedFrom lo t = true → tsortedFrom lo (tset d k v t) = true := by
  induction t with
  | nil => intro lo hlo _; by_cases hv : v = d <;> simp [tset, tsortedFrom, hv, hlo]
  | cons e r ih =>
    obtain ⟨k', v'⟩ := e
    intro lo hlo h
    simp only [tsortedFrom, Bool.and_eq_true, decide_eq_true_eq] at h
    obtain ⟨ha, hc⟩ := h
    by_cases h1 : k < k'
    · by_cases hv : v = d
      · simp [tset, h1, hv, tsortedFrom, ha, hc]
      · have : k + 1 ≤ k' := by omega
        simp [tset, h1, hv, tsortedFrom, hlo, this, hc]
    · by_cases h2 : k = k'
      · subst h2
        by_cases hv : v = d
        · simp only [tset, lt_irrefl, if_false, hv, if_true]
          clear ih
          cases r with
          | nil => rfl
          | cons e r =>
            simp only [tsortedFrom, Bool.and_eq_true, decide_eq_true_eq] at hc ⊢
            exact ⟨by omega, hc.2⟩
        · simp [tset, hv, tsortedFrom, hlo, hc]
      · simp only [tset, h1, h2, if_false, tsortedFrom, Bool.and_eq_true, decide_eq_true_eq]
        exact ⟨ha, ih _ (by omega) hc⟩

/-- Writing keeps a table sorted. -/
@[simp] theorem tsorted_tset {α : Type} [DecidableEq α] (d v : α) (k : Nat) (t : Tab α) (h : tsorted t = true) :
    tsorted (tset d k v t) = true :=
  tsortedFrom_tset d v k t 0 (Nat.zero_le _) h

theorem twfFrom_tset {α : Type} [DecidableEq α] (d v : α) (k : Nat) (t : Tab α) :
    ∀ lo, lo ≤ k → twfFrom d lo t = true → twfFrom d lo (tset d k v t) = true := by
  induction t with
  | nil => intro lo hlo _; by_cases hv : v = d <;> simp [tset, twfFrom, hv, hlo]
  | cons e r ih =>
    obtain ⟨k', v'⟩ := e
    intro lo hlo h
    simp only [twfFrom, Bool.and_eq_true, decide_eq_true_eq] at h
    obtain ⟨⟨ha, hb⟩, hc⟩ := h
    by_cases h1 : k < k'
    · by_cases hv : v = d
      · simp [tset, h1, hv, twfFrom, ha, hb, hc]
      · have : k + 1 ≤ k' := by omega
        simp [tset, h1, hv, twfFrom, hlo, this, hb, hc]
    · by_cases h2 : k = k'
      · subst h2
        by_cases hv : v = d
        · simp only [tset, lt_irrefl, if_false, hv, if_true]
          clear ih
          cases r with
          | nil => rfl
          | cons e r =>
            simp only [twfFrom, Bool.and_eq_true, decide_eq_true_eq] at hc ⊢
            exact ⟨⟨by omega, hc.1.2⟩, hc.2⟩
        · simp [tset, hv, twfFrom, hlo, hc]
      · simp only [tset, h1, h2, if_false, twfFrom, Bool.and_eq_true, decide_eq_true_eq]
        exact ⟨⟨ha, hb⟩, ih _ (by omega) hc⟩

/-- Writing keeps the canonical form. -/
@[simp] theorem twf_tset {α : Type} [DecidableEq α] (d v : α) (k : Nat) (t : Tab α) (h : twf d t = true) :
    twf d (tset d k v t) = true :=
  twfFrom_tset d v k t 0 (Nat.zero_le _) h

theorem twfFrom_mono {α : Type} [DecidableEq α] (d : α) (t : Tab α) (lo lo' : Nat) (hl : lo' ≤ lo) (h : twfFrom d lo t = true) :
    twfFrom d lo' t = true := by
  cases t with
  | nil => rfl
  | cons e r =>
    simp only [twfFrom, Bool.and_eq_true, decide_eq_true_eq] at h ⊢
    exact ⟨⟨by omega, h.1.2⟩, h.2⟩

theorem twfFrom_tkeep {α : Type} [DecidableEq α] (d : α) (p : Nat → Bool) (t : Tab α) :
    ∀ lo, twfFrom d lo t = true → twfFrom d lo (tkeep p t) = true := by
  induction t with
  | nil => intro lo _; rfl
  | cons e r ih =>
    intro lo h
    simp only [twfFrom, Bool.and_eq_true, decide_eq_true_eq] at h
    by_cases hp : p e.1 = true
    · have := ih _ h.2
      simp only [tkeep, List.filter, hp]
      simp only [twfFrom, Bool.and_eq_true, decide_eq_true_eq]
      exact ⟨h.1, this⟩
    · simp only [tkeep, List.filter, hp]
      exact twfFrom_mono d _ (e.1 + 1) lo (by omega) (ih _ h.2)

/-- Removing keys keeps the canonical form. -/
@[simp] theorem twf_tkeep {α : Type} [DecidableEq α] (d : α) (p : Nat → Bool) (t : Tab α) (h : twf d t = true) :
    twf d (tkeep p t) = true :=
  twfFrom_tkeep d p t 0 h

@[simp] theorem leBytes_length (n v : Nat) : (leBytes n v).length = n := by
  induction n generalizing v with
  | zero => rfl
  | succ n ih => simp [leBytes, ih]

/-- A number of n bytes is read back from its little-endian bytes (R8). -/
theorem leNat_leBytes (n v : Nat) : leNat (leBytes n v) = v % 256 ^ n := by
  induction n generalizing v with
  | zero => simp [leBytes, leNat, Nat.mod_one]
  | succ n ih =>
    have h : (256 : Nat) ^ (n + 1) = 256 * 256 ^ n := by rw [Nat.pow_succ, Nat.mul_comm]
    simp only [leBytes, leNat, ih, BitVec.toNat_ofNat, h]
    rw [Nat.mod_mul]

end Sys2Proof.Machine
end

