-- ==== Sys2Proof/Laws/Settle.lean ====
section
/-!
SUPPORT. Laws/Settle.lean: the end of a step. `settle` leaves no event waiting and does nothing when none waits; `forUnit` is the
form of every command's meaning.
-/

namespace Sys2Proof.Machine

theorem drainEvents_evq : ∀ (f : Nat) (s : State), (drainEvents f s).evq = []
  | 0, _ => rfl
  | f + 1, s => by
    unfold drainEvents
    split
    · assumption
    · exact drainEvents_evq f _

/-- After `settle` no event waits. -/
@[simp] theorem settle_evq (s : State) : (settle s).evq = [] := drainEvents_evq _ _

theorem drainEvents_quiet : ∀ (f : Nat) (s : State), s.evq = [] → drainEvents f s = s
  | 0, s, h => by cases s; simp_all [drainEvents]
  | f + 1, s, h => by unfold drainEvents; simp [h]

/-- With no event waiting `settle` changes nothing. -/
theorem settle_quiet (s : State) (h : s.evq = []) : settle s = s := drainEvents_quiet _ s h

theorem drainEvents_cons (f : Nat) (s : State) (e : Ev) (r : List Ev) (h : s.evq = e :: r) :
    drainEvents (f + 1) s = drainEvents f (offer e { s with evq := r }) := by
  rw [drainEvents]; simp [h]

/-- One event that waits is offered; what offering it posts follows. -/
theorem settle_one (s : State) (e : Ev) (h : s.evq = []) :
    settle { s with evq := [e] } = drainEvents 0x100000000 (offer e s) := by
  have hs : 0x100000000 + ({ s with evq := [e] } : State).evq.length = 0x100000000 + 1 := rfl
  have h' : ({ s with evq := [] } : State) = s := by cases s; simp_all
  unfold settle
  rw [hs]
  generalize (0x100000000 : Nat) = f
  rw [drainEvents_cons f _ e [] rfl]
  exact congrArg (fun x => drainEvents f (offer e x)) h'

theorem forUnit_true (f : State) : forUnit true f = .next (settle f) := rfl

theorem forUnit_false (f : State) : forUnit false f = .fault .noSuchUnit := rfl

/-- A meaning that answers a next state has settled it. -/
theorem forUnit_next {ok : Bool} {f t : State} (h : forUnit ok f = .next t) : ok = true ∧ t = settle f := by
  cases ok <;> simp_all [forUnit]

/-- A command that posts nothing answers its state as it is. -/
theorem forUnit_quiet {ok : Bool} {f : State} (hok : ok = true) (h : f.evq = []) : forUnit ok f = .next f := by
  simp [forUnit, hok, settle_quiet f h]

/-- A command whose meaning comes to a state with no event waiting answers that state. -/
theorem forUnit_done {ok : Bool} {f t : State} (hok : ok = true) (hf : f = t) (h : t.evq = []) : forUnit ok f = .next t := by
  subst hf; exact forUnit_quiet hok h

/-- A command whose meaning comes to a state answers that state settled. -/
theorem forUnit_settled {ok : Bool} {f t : State} (hok : ok = true) (hf : f = t) : forUnit ok f = .next (settle t) := by
  subst hf; simp [forUnit, hok]

@[simp] theorem setVal_evq (s : State) (i j : Nat) (v : Val) : (s.setVal i j v).evq = s.evq := rfl
@[simp] theorem setNum_evq (s : State) (i j n : Nat) : (s.setNum i j n).evq = s.evq := rfl
@[simp] theorem setOct_evq (s : State) (i j : Nat) (l : List Byte) : (s.setOct i j l).evq = s.evq := rfl

end Sys2Proof.Machine
end

