-- ==== Sys2Proof/Laws/State.lean ====
section
/-!
SUPPORT. Laws/State.lean: what each named update of State leaves as it was, and what it changes, one lemma for each field: no
proof unfolds a record update.
-/

namespace Sys2Proof.Machine

@[simp] theorem State.setVal_pending (s : State) (i j : Nat) (v : Val) : (s.setVal i j v).pending = s.pending := rfl
@[simp] theorem State.setVal_obj (s : State) (i j : Nat) (v : Val) : (s.setVal i j v).obj = tset (objDefault (okey i j)) (okey i j) v s.obj := rfl
@[simp] theorem State.setVal_mem (s : State) (i j : Nat) (v : Val) : (s.setVal i j v).mem = s.mem := rfl
@[simp] theorem State.setVal_merr (s : State) (i j : Nat) (v : Val) : (s.setVal i j v).merr = s.merr := rfl
@[simp] theorem State.setVal_pwr (s : State) (i j : Nat) (v : Val) : (s.setVal i j v).pwr = s.pwr := rfl
@[simp] theorem State.setVal_tim (s : State) (i j : Nat) (v : Val) : (s.setVal i j v).tim = s.tim := rfl
@[simp] theorem State.setVal_fuses (s : State) (i j : Nat) (v : Val) : (s.setVal i j v).fuses = s.fuses := rfl
@[simp] theorem State.setVal_dict (s : State) (i j : Nat) (v : Val) : (s.setVal i j v).dict = s.dict := rfl
@[simp] theorem State.setVal_rings (s : State) (i j : Nat) (v : Val) : (s.setVal i j v).rings = s.rings := rfl
@[simp] theorem State.setVal_dies (s : State) (i j : Nat) (v : Val) : (s.setVal i j v).dies = s.dies := rfl
@[simp] theorem State.setVal_queues (s : State) (i j : Nat) (v : Val) : (s.setVal i j v).queues = s.queues := rfl
@[simp] theorem State.setVal_coh (s : State) (i j : Nat) (v : Val) : (s.setVal i j v).coh = s.coh := rfl
@[simp] theorem State.setVal_harts (s : State) (i j : Nat) (v : Val) : (s.setVal i j v).harts = s.harts := rfl
@[simp] theorem State.setVal_fab (s : State) (i j : Nat) (v : Val) : (s.setVal i j v).fab = s.fab := rfl
@[simp] theorem State.setVal_staging (s : State) (i j : Nat) (v : Val) : (s.setVal i j v).staging = s.staging := rfl
@[simp] theorem State.setVal_stageResults (s : State) (i j : Nat) (v : Val) : (s.setVal i j v).stageResults = s.stageResults := rfl
@[simp] theorem State.setVal_jobs (s : State) (i j : Nat) (v : Val) : (s.setVal i j v).jobs = s.jobs := rfl
@[simp] theorem State.setVal_hst (s : State) (i j : Nat) (v : Val) : (s.setVal i j v).hst = s.hst := rfl
@[simp] theorem State.setVal_ctl (s : State) (i j : Nat) (v : Val) : (s.setVal i j v).ctl = s.ctl := rfl
@[simp] theorem State.setVal_free (s : State) (i j : Nat) (v : Val) : (s.setVal i j v).free = s.free := rfl
@[simp] theorem State.setVal_out (s : State) (i j : Nat) (v : Val) : (s.setVal i j v).out = s.out := rfl
@[simp] theorem State.setVal_evq (s : State) (i j : Nat) (v : Val) : (s.setVal i j v).evq = s.evq := rfl

@[simp] theorem State.setNum_pending (s : State) (i j n : Nat) : (s.setNum i j n).pending = s.pending := rfl
@[simp] theorem State.setNum_obj (s : State) (i j n : Nat) : (s.setNum i j n).obj = tset (objDefault (okey i j)) (okey i j) (.num n) s.obj := rfl
@[simp] theorem State.setNum_mem (s : State) (i j n : Nat) : (s.setNum i j n).mem = s.mem := rfl
@[simp] theorem State.setNum_merr (s : State) (i j n : Nat) : (s.setNum i j n).merr = s.merr := rfl
@[simp] theorem State.setNum_pwr (s : State) (i j n : Nat) : (s.setNum i j n).pwr = s.pwr := rfl
@[simp] theorem State.setNum_tim (s : State) (i j n : Nat) : (s.setNum i j n).tim = s.tim := rfl
@[simp] theorem State.setNum_fuses (s : State) (i j n : Nat) : (s.setNum i j n).fuses = s.fuses := rfl
@[simp] theorem State.setNum_dict (s : State) (i j n : Nat) : (s.setNum i j n).dict = s.dict := rfl
@[simp] theorem State.setNum_rings (s : State) (i j n : Nat) : (s.setNum i j n).rings = s.rings := rfl
@[simp] theorem State.setNum_dies (s : State) (i j n : Nat) : (s.setNum i j n).dies = s.dies := rfl
@[simp] theorem State.setNum_queues (s : State) (i j n : Nat) : (s.setNum i j n).queues = s.queues := rfl
@[simp] theorem State.setNum_coh (s : State) (i j n : Nat) : (s.setNum i j n).coh = s.coh := rfl
@[simp] theorem State.setNum_harts (s : State) (i j n : Nat) : (s.setNum i j n).harts = s.harts := rfl
@[simp] theorem State.setNum_fab (s : State) (i j n : Nat) : (s.setNum i j n).fab = s.fab := rfl
@[simp] theorem State.setNum_staging (s : State) (i j n : Nat) : (s.setNum i j n).staging = s.staging := rfl
@[simp] theorem State.setNum_stageResults (s : State) (i j n : Nat) : (s.setNum i j n).stageResults = s.stageResults := rfl
@[simp] theorem State.setNum_jobs (s : State) (i j n : Nat) : (s.setNum i j n).jobs = s.jobs := rfl
@[simp] theorem State.setNum_hst (s : State) (i j n : Nat) : (s.setNum i j n).hst = s.hst := rfl
@[simp] theorem State.setNum_ctl (s : State) (i j n : Nat) : (s.setNum i j n).ctl = s.ctl := rfl
@[simp] theorem State.setNum_free (s : State) (i j n : Nat) : (s.setNum i j n).free = s.free := rfl
@[simp] theorem State.setNum_out (s : State) (i j n : Nat) : (s.setNum i j n).out = s.out := rfl
@[simp] theorem State.setNum_evq (s : State) (i j n : Nat) : (s.setNum i j n).evq = s.evq := rfl

@[simp] theorem State.setOct_pending (s : State) (i j : Nat) (l : List Byte) : (s.setOct i j l).pending = s.pending := rfl
@[simp] theorem State.setOct_obj (s : State) (i j : Nat) (l : List Byte) : (s.setOct i j l).obj = tset (objDefault (okey i j)) (okey i j) (.bytes l) s.obj := rfl
@[simp] theorem State.setOct_mem (s : State) (i j : Nat) (l : List Byte) : (s.setOct i j l).mem = s.mem := rfl
@[simp] theorem State.setOct_merr (s : State) (i j : Nat) (l : List Byte) : (s.setOct i j l).merr = s.merr := rfl
@[simp] theorem State.setOct_pwr (s : State) (i j : Nat) (l : List Byte) : (s.setOct i j l).pwr = s.pwr := rfl
@[simp] theorem State.setOct_tim (s : State) (i j : Nat) (l : List Byte) : (s.setOct i j l).tim = s.tim := rfl
@[simp] theorem State.setOct_fuses (s : State) (i j : Nat) (l : List Byte) : (s.setOct i j l).fuses = s.fuses := rfl
@[simp] theorem State.setOct_dict (s : State) (i j : Nat) (l : List Byte) : (s.setOct i j l).dict = s.dict := rfl
@[simp] theorem State.setOct_rings (s : State) (i j : Nat) (l : List Byte) : (s.setOct i j l).rings = s.rings := rfl
@[simp] theorem State.setOct_dies (s : State) (i j : Nat) (l : List Byte) : (s.setOct i j l).dies = s.dies := rfl
@[simp] theorem State.setOct_queues (s : State) (i j : Nat) (l : List Byte) : (s.setOct i j l).queues = s.queues := rfl
@[simp] theorem State.setOct_coh (s : State) (i j : Nat) (l : List Byte) : (s.setOct i j l).coh = s.coh := rfl
@[simp] theorem State.setOct_harts (s : State) (i j : Nat) (l : List Byte) : (s.setOct i j l).harts = s.harts := rfl
@[simp] theorem State.setOct_fab (s : State) (i j : Nat) (l : List Byte) : (s.setOct i j l).fab = s.fab := rfl
@[simp] theorem State.setOct_staging (s : State) (i j : Nat) (l : List Byte) : (s.setOct i j l).staging = s.staging := rfl
@[simp] theorem State.setOct_stageResults (s : State) (i j : Nat) (l : List Byte) : (s.setOct i j l).stageResults = s.stageResults := rfl
@[simp] theorem State.setOct_jobs (s : State) (i j : Nat) (l : List Byte) : (s.setOct i j l).jobs = s.jobs := rfl
@[simp] theorem State.setOct_hst (s : State) (i j : Nat) (l : List Byte) : (s.setOct i j l).hst = s.hst := rfl
@[simp] theorem State.setOct_ctl (s : State) (i j : Nat) (l : List Byte) : (s.setOct i j l).ctl = s.ctl := rfl
@[simp] theorem State.setOct_free (s : State) (i j : Nat) (l : List Byte) : (s.setOct i j l).free = s.free := rfl
@[simp] theorem State.setOct_out (s : State) (i j : Nat) (l : List Byte) : (s.setOct i j l).out = s.out := rfl
@[simp] theorem State.setOct_evq (s : State) (i j : Nat) (l : List Byte) : (s.setOct i j l).evq = s.evq := rfl

@[simp] theorem State.setDomain_pending (s : State) (d v : Nat) : (s.setDomain d v).pending = s.pending := rfl
@[simp] theorem State.setDomain_mem (s : State) (d v : Nat) : (s.setDomain d v).mem = s.mem := rfl
@[simp] theorem State.setDomain_merr (s : State) (d v : Nat) : (s.setDomain d v).merr = s.merr := rfl
@[simp] theorem State.setDomain_pwr (s : State) (d v : Nat) : (s.setDomain d v).pwr = s.pwr := rfl
@[simp] theorem State.setDomain_tim (s : State) (d v : Nat) : (s.setDomain d v).tim = s.tim := rfl
@[simp] theorem State.setDomain_fuses (s : State) (d v : Nat) : (s.setDomain d v).fuses = s.fuses := rfl
@[simp] theorem State.setDomain_dict (s : State) (d v : Nat) : (s.setDomain d v).dict = s.dict := rfl
@[simp] theorem State.setDomain_rings (s : State) (d v : Nat) : (s.setDomain d v).rings = s.rings := rfl
@[simp] theorem State.setDomain_dies (s : State) (d v : Nat) : (s.setDomain d v).dies = s.dies := rfl
@[simp] theorem State.setDomain_queues (s : State) (d v : Nat) : (s.setDomain d v).queues = s.queues := rfl
@[simp] theorem State.setDomain_coh (s : State) (d v : Nat) : (s.setDomain d v).coh = s.coh := rfl
@[simp] theorem State.setDomain_harts (s : State) (d v : Nat) : (s.setDomain d v).harts = s.harts := rfl
@[simp] theorem State.setDomain_fab (s : State) (d v : Nat) : (s.setDomain d v).fab = s.fab := rfl
@[simp] theorem State.setDomain_staging (s : State) (d v : Nat) : (s.setDomain d v).staging = s.staging := rfl
@[simp] theorem State.setDomain_stageResults (s : State) (d v : Nat) : (s.setDomain d v).stageResults = s.stageResults := rfl
@[simp] theorem State.setDomain_jobs (s : State) (d v : Nat) : (s.setDomain d v).jobs = s.jobs := rfl
@[simp] theorem State.setDomain_hst (s : State) (d v : Nat) : (s.setDomain d v).hst = s.hst := rfl
@[simp] theorem State.setDomain_ctl (s : State) (d v : Nat) : (s.setDomain d v).ctl = s.ctl := rfl
@[simp] theorem State.setDomain_free (s : State) (d v : Nat) : (s.setDomain d v).free = s.free := rfl
@[simp] theorem State.setDomain_out (s : State) (d v : Nat) : (s.setDomain d v).out = s.out := rfl
@[simp] theorem State.setDomain_evq (s : State) (d v : Nat) : (s.setDomain d v).evq = s.evq := rfl

@[simp] theorem State.setDie_pending (s : State) (n : Nat) (d : Die) : (s.setDie n d).pending = s.pending := rfl
@[simp] theorem State.setDie_obj (s : State) (n : Nat) (d : Die) : (s.setDie n d).obj = s.obj := rfl
@[simp] theorem State.setDie_mem (s : State) (n : Nat) (d : Die) : (s.setDie n d).mem = s.mem := rfl
@[simp] theorem State.setDie_merr (s : State) (n : Nat) (d : Die) : (s.setDie n d).merr = s.merr := rfl
@[simp] theorem State.setDie_pwr (s : State) (n : Nat) (d : Die) : (s.setDie n d).pwr = s.pwr := rfl
@[simp] theorem State.setDie_tim (s : State) (n : Nat) (d : Die) : (s.setDie n d).tim = s.tim := rfl
@[simp] theorem State.setDie_fuses (s : State) (n : Nat) (d : Die) : (s.setDie n d).fuses = s.fuses := rfl
@[simp] theorem State.setDie_dict (s : State) (n : Nat) (d : Die) : (s.setDie n d).dict = s.dict := rfl
@[simp] theorem State.setDie_rings (s : State) (n : Nat) (d : Die) : (s.setDie n d).rings = s.rings := rfl
@[simp] theorem State.setDie_dies (s : State) (n : Nat) (d : Die) : (s.setDie n d).dies = lset s.dies n d := rfl
@[simp] theorem State.setDie_queues (s : State) (n : Nat) (d : Die) : (s.setDie n d).queues = s.queues := rfl
@[simp] theorem State.setDie_coh (s : State) (n : Nat) (d : Die) : (s.setDie n d).coh = s.coh := rfl
@[simp] theorem State.setDie_harts (s : State) (n : Nat) (d : Die) : (s.setDie n d).harts = s.harts := rfl
@[simp] theorem State.setDie_fab (s : State) (n : Nat) (d : Die) : (s.setDie n d).fab = s.fab := rfl
@[simp] theorem State.setDie_staging (s : State) (n : Nat) (d : Die) : (s.setDie n d).staging = s.staging := rfl
@[simp] theorem State.setDie_stageResults (s : State) (n : Nat) (d : Die) : (s.setDie n d).stageResults = s.stageResults := rfl
@[simp] theorem State.setDie_jobs (s : State) (n : Nat) (d : Die) : (s.setDie n d).jobs = s.jobs := rfl
@[simp] theorem State.setDie_hst (s : State) (n : Nat) (d : Die) : (s.setDie n d).hst = s.hst := rfl
@[simp] theorem State.setDie_ctl (s : State) (n : Nat) (d : Die) : (s.setDie n d).ctl = s.ctl := rfl
@[simp] theorem State.setDie_free (s : State) (n : Nat) (d : Die) : (s.setDie n d).free = s.free := rfl
@[simp] theorem State.setDie_out (s : State) (n : Nat) (d : Die) : (s.setDie n d).out = s.out := rfl
@[simp] theorem State.setDie_evq (s : State) (n : Nat) (d : Die) : (s.setDie n d).evq = s.evq := rfl

@[simp] theorem State.setJob_pending (s : State) (j : Nat) (x : Job) : (s.setJob j x).pending = s.pending := rfl
@[simp] theorem State.setJob_obj (s : State) (j : Nat) (x : Job) : (s.setJob j x).obj = s.obj := rfl
@[simp] theorem State.setJob_mem (s : State) (j : Nat) (x : Job) : (s.setJob j x).mem = s.mem := rfl
@[simp] theorem State.setJob_merr (s : State) (j : Nat) (x : Job) : (s.setJob j x).merr = s.merr := rfl
@[simp] theorem State.setJob_pwr (s : State) (j : Nat) (x : Job) : (s.setJob j x).pwr = s.pwr := rfl
@[simp] theorem State.setJob_tim (s : State) (j : Nat) (x : Job) : (s.setJob j x).tim = s.tim := rfl
@[simp] theorem State.setJob_fuses (s : State) (j : Nat) (x : Job) : (s.setJob j x).fuses = s.fuses := rfl
@[simp] theorem State.setJob_dict (s : State) (j : Nat) (x : Job) : (s.setJob j x).dict = s.dict := rfl
@[simp] theorem State.setJob_rings (s : State) (j : Nat) (x : Job) : (s.setJob j x).rings = s.rings := rfl
@[simp] theorem State.setJob_dies (s : State) (j : Nat) (x : Job) : (s.setJob j x).dies = s.dies := rfl
@[simp] theorem State.setJob_queues (s : State) (j : Nat) (x : Job) : (s.setJob j x).queues = s.queues := rfl
@[simp] theorem State.setJob_coh (s : State) (j : Nat) (x : Job) : (s.setJob j x).coh = s.coh := rfl
@[simp] theorem State.setJob_harts (s : State) (j : Nat) (x : Job) : (s.setJob j x).harts = s.harts := rfl
@[simp] theorem State.setJob_fab (s : State) (j : Nat) (x : Job) : (s.setJob j x).fab = s.fab := rfl
@[simp] theorem State.setJob_staging (s : State) (j : Nat) (x : Job) : (s.setJob j x).staging = s.staging := rfl
@[simp] theorem State.setJob_stageResults (s : State) (j : Nat) (x : Job) : (s.setJob j x).stageResults = s.stageResults := rfl
@[simp] theorem State.setJob_jobs (s : State) (j : Nat) (x : Job) : (s.setJob j x).jobs = tset Job.init j x s.jobs := rfl
@[simp] theorem State.setJob_hst (s : State) (j : Nat) (x : Job) : (s.setJob j x).hst = s.hst := rfl
@[simp] theorem State.setJob_ctl (s : State) (j : Nat) (x : Job) : (s.setJob j x).ctl = s.ctl := rfl
@[simp] theorem State.setJob_free (s : State) (j : Nat) (x : Job) : (s.setJob j x).free = s.free := rfl
@[simp] theorem State.setJob_out (s : State) (j : Nat) (x : Job) : (s.setJob j x).out = s.out := rfl
@[simp] theorem State.setJob_evq (s : State) (j : Nat) (x : Job) : (s.setJob j x).evq = s.evq := rfl

@[simp] theorem State.setQueue_pending (s : State) (n q : Nat) (x : DQ) : (s.setQueue n q x).pending = s.pending := rfl
@[simp] theorem State.setQueue_obj (s : State) (n q : Nat) (x : DQ) : (s.setQueue n q x).obj = s.obj := rfl
@[simp] theorem State.setQueue_mem (s : State) (n q : Nat) (x : DQ) : (s.setQueue n q x).mem = s.mem := rfl
@[simp] theorem State.setQueue_merr (s : State) (n q : Nat) (x : DQ) : (s.setQueue n q x).merr = s.merr := rfl
@[simp] theorem State.setQueue_pwr (s : State) (n q : Nat) (x : DQ) : (s.setQueue n q x).pwr = s.pwr := rfl
@[simp] theorem State.setQueue_tim (s : State) (n q : Nat) (x : DQ) : (s.setQueue n q x).tim = s.tim := rfl
@[simp] theorem State.setQueue_fuses (s : State) (n q : Nat) (x : DQ) : (s.setQueue n q x).fuses = s.fuses := rfl
@[simp] theorem State.setQueue_dict (s : State) (n q : Nat) (x : DQ) : (s.setQueue n q x).dict = s.dict := rfl
@[simp] theorem State.setQueue_rings (s : State) (n q : Nat) (x : DQ) : (s.setQueue n q x).rings = s.rings := rfl
@[simp] theorem State.setQueue_dies (s : State) (n q : Nat) (x : DQ) : (s.setQueue n q x).dies = s.dies := rfl
@[simp] theorem State.setQueue_queues (s : State) (n q : Nat) (x : DQ) : (s.setQueue n q x).queues = tset DQ.init (n * 32 + q) x s.queues := rfl
@[simp] theorem State.setQueue_coh (s : State) (n q : Nat) (x : DQ) : (s.setQueue n q x).coh = s.coh := rfl
@[simp] theorem State.setQueue_harts (s : State) (n q : Nat) (x : DQ) : (s.setQueue n q x).harts = s.harts := rfl
@[simp] theorem State.setQueue_fab (s : State) (n q : Nat) (x : DQ) : (s.setQueue n q x).fab = s.fab := rfl
@[simp] theorem State.setQueue_staging (s : State) (n q : Nat) (x : DQ) : (s.setQueue n q x).staging = s.staging := rfl
@[simp] theorem State.setQueue_stageResults (s : State) (n q : Nat) (x : DQ) : (s.setQueue n q x).stageResults = s.stageResults := rfl
@[simp] theorem State.setQueue_jobs (s : State) (n q : Nat) (x : DQ) : (s.setQueue n q x).jobs = s.jobs := rfl
@[simp] theorem State.setQueue_hst (s : State) (n q : Nat) (x : DQ) : (s.setQueue n q x).hst = s.hst := rfl
@[simp] theorem State.setQueue_ctl (s : State) (n q : Nat) (x : DQ) : (s.setQueue n q x).ctl = s.ctl := rfl
@[simp] theorem State.setQueue_free (s : State) (n q : Nat) (x : DQ) : (s.setQueue n q x).free = s.free := rfl
@[simp] theorem State.setQueue_out (s : State) (n q : Nat) (x : DQ) : (s.setQueue n q x).out = s.out := rfl
@[simp] theorem State.setQueue_evq (s : State) (n q : Nat) (x : DQ) : (s.setQueue n q x).evq = s.evq := rfl

@[simp] theorem State.setPort_pending (s : State) (p : Nat) (x : Port) : (s.setPort p x).pending = s.pending := rfl
@[simp] theorem State.setPort_obj (s : State) (p : Nat) (x : Port) : (s.setPort p x).obj = s.obj := rfl
@[simp] theorem State.setPort_mem (s : State) (p : Nat) (x : Port) : (s.setPort p x).mem = s.mem := rfl
@[simp] theorem State.setPort_merr (s : State) (p : Nat) (x : Port) : (s.setPort p x).merr = s.merr := rfl
@[simp] theorem State.setPort_pwr (s : State) (p : Nat) (x : Port) : (s.setPort p x).pwr = s.pwr := rfl
@[simp] theorem State.setPort_tim (s : State) (p : Nat) (x : Port) : (s.setPort p x).tim = s.tim := rfl
@[simp] theorem State.setPort_fuses (s : State) (p : Nat) (x : Port) : (s.setPort p x).fuses = s.fuses := rfl
@[simp] theorem State.setPort_dict (s : State) (p : Nat) (x : Port) : (s.setPort p x).dict = s.dict := rfl
@[simp] theorem State.setPort_rings (s : State) (p : Nat) (x : Port) : (s.setPort p x).rings = s.rings := rfl
@[simp] theorem State.setPort_dies (s : State) (p : Nat) (x : Port) : (s.setPort p x).dies = s.dies := rfl
@[simp] theorem State.setPort_queues (s : State) (p : Nat) (x : Port) : (s.setPort p x).queues = s.queues := rfl
@[simp] theorem State.setPort_coh (s : State) (p : Nat) (x : Port) : (s.setPort p x).coh = s.coh := rfl
@[simp] theorem State.setPort_harts (s : State) (p : Nat) (x : Port) : (s.setPort p x).harts = s.harts := rfl
@[simp] theorem State.setPort_staging (s : State) (p : Nat) (x : Port) : (s.setPort p x).staging = s.staging := rfl
@[simp] theorem State.setPort_stageResults (s : State) (p : Nat) (x : Port) : (s.setPort p x).stageResults = s.stageResults := rfl
@[simp] theorem State.setPort_jobs (s : State) (p : Nat) (x : Port) : (s.setPort p x).jobs = s.jobs := rfl
@[simp] theorem State.setPort_hst (s : State) (p : Nat) (x : Port) : (s.setPort p x).hst = s.hst := rfl
@[simp] theorem State.setPort_ctl (s : State) (p : Nat) (x : Port) : (s.setPort p x).ctl = s.ctl := rfl
@[simp] theorem State.setPort_free (s : State) (p : Nat) (x : Port) : (s.setPort p x).free = s.free := rfl
@[simp] theorem State.setPort_out (s : State) (p : Nat) (x : Port) : (s.setPort p x).out = s.out := rfl
@[simp] theorem State.setPort_evq (s : State) (p : Nat) (x : Port) : (s.setPort p x).evq = s.evq := rfl

@[simp] theorem State.setHart_pending (s : State) (h : Nat) (x : Hart) : (s.setHart h x).pending = s.pending := rfl
@[simp] theorem State.setHart_obj (s : State) (h : Nat) (x : Hart) : (s.setHart h x).obj = s.obj := rfl
@[simp] theorem State.setHart_mem (s : State) (h : Nat) (x : Hart) : (s.setHart h x).mem = s.mem := rfl
@[simp] theorem State.setHart_merr (s : State) (h : Nat) (x : Hart) : (s.setHart h x).merr = s.merr := rfl
@[simp] theorem State.setHart_pwr (s : State) (h : Nat) (x : Hart) : (s.setHart h x).pwr = s.pwr := rfl
@[simp] theorem State.setHart_tim (s : State) (h : Nat) (x : Hart) : (s.setHart h x).tim = s.tim := rfl
@[simp] theorem State.setHart_fuses (s : State) (h : Nat) (x : Hart) : (s.setHart h x).fuses = s.fuses := rfl
@[simp] theorem State.setHart_dict (s : State) (h : Nat) (x : Hart) : (s.setHart h x).dict = s.dict := rfl
@[simp] theorem State.setHart_rings (s : State) (h : Nat) (x : Hart) : (s.setHart h x).rings = s.rings := rfl
@[simp] theorem State.setHart_dies (s : State) (h : Nat) (x : Hart) : (s.setHart h x).dies = s.dies := rfl
@[simp] theorem State.setHart_queues (s : State) (h : Nat) (x : Hart) : (s.setHart h x).queues = s.queues := rfl
@[simp] theorem State.setHart_coh (s : State) (h : Nat) (x : Hart) : (s.setHart h x).coh = s.coh := rfl
@[simp] theorem State.setHart_harts (s : State) (h : Nat) (x : Hart) : (s.setHart h x).harts = tset Hart.init h x s.harts := rfl
@[simp] theorem State.setHart_fab (s : State) (h : Nat) (x : Hart) : (s.setHart h x).fab = s.fab := rfl
@[simp] theorem State.setHart_staging (s : State) (h : Nat) (x : Hart) : (s.setHart h x).staging = s.staging := rfl
@[simp] theorem State.setHart_stageResults (s : State) (h : Nat) (x : Hart) : (s.setHart h x).stageResults = s.stageResults := rfl
@[simp] theorem State.setHart_jobs (s : State) (h : Nat) (x : Hart) : (s.setHart h x).jobs = s.jobs := rfl
@[simp] theorem State.setHart_hst (s : State) (h : Nat) (x : Hart) : (s.setHart h x).hst = s.hst := rfl
@[simp] theorem State.setHart_ctl (s : State) (h : Nat) (x : Hart) : (s.setHart h x).ctl = s.ctl := rfl
@[simp] theorem State.setHart_free (s : State) (h : Nat) (x : Hart) : (s.setHart h x).free = s.free := rfl
@[simp] theorem State.setHart_out (s : State) (h : Nat) (x : Hart) : (s.setHart h x).out = s.out := rfl
@[simp] theorem State.setHart_evq (s : State) (h : Nat) (x : Hart) : (s.setHart h x).evq = s.evq := rfl

@[simp] theorem State.setHlink_pending (s : State) (k : Nat) (x : HLink) : (s.setHlink k x).pending = s.pending := rfl
@[simp] theorem State.setHlink_obj (s : State) (k : Nat) (x : HLink) : (s.setHlink k x).obj = s.obj := rfl
@[simp] theorem State.setHlink_mem (s : State) (k : Nat) (x : HLink) : (s.setHlink k x).mem = s.mem := rfl
@[simp] theorem State.setHlink_merr (s : State) (k : Nat) (x : HLink) : (s.setHlink k x).merr = s.merr := rfl
@[simp] theorem State.setHlink_pwr (s : State) (k : Nat) (x : HLink) : (s.setHlink k x).pwr = s.pwr := rfl
@[simp] theorem State.setHlink_tim (s : State) (k : Nat) (x : HLink) : (s.setHlink k x).tim = s.tim := rfl
@[simp] theorem State.setHlink_fuses (s : State) (k : Nat) (x : HLink) : (s.setHlink k x).fuses = s.fuses := rfl
@[simp] theorem State.setHlink_dict (s : State) (k : Nat) (x : HLink) : (s.setHlink k x).dict = s.dict := rfl
@[simp] theorem State.setHlink_rings (s : State) (k : Nat) (x : HLink) : (s.setHlink k x).rings = s.rings := rfl
@[simp] theorem State.setHlink_dies (s : State) (k : Nat) (x : HLink) : (s.setHlink k x).dies = s.dies := rfl
@[simp] theorem State.setHlink_queues (s : State) (k : Nat) (x : HLink) : (s.setHlink k x).queues = s.queues := rfl
@[simp] theorem State.setHlink_coh (s : State) (k : Nat) (x : HLink) : (s.setHlink k x).coh = s.coh := rfl
@[simp] theorem State.setHlink_harts (s : State) (k : Nat) (x : HLink) : (s.setHlink k x).harts = s.harts := rfl
@[simp] theorem State.setHlink_fab (s : State) (k : Nat) (x : HLink) : (s.setHlink k x).fab = s.fab := rfl
@[simp] theorem State.setHlink_staging (s : State) (k : Nat) (x : HLink) : (s.setHlink k x).staging = s.staging := rfl
@[simp] theorem State.setHlink_stageResults (s : State) (k : Nat) (x : HLink) : (s.setHlink k x).stageResults = s.stageResults := rfl
@[simp] theorem State.setHlink_jobs (s : State) (k : Nat) (x : HLink) : (s.setHlink k x).jobs = s.jobs := rfl
@[simp] theorem State.setHlink_ctl (s : State) (k : Nat) (x : HLink) : (s.setHlink k x).ctl = s.ctl := rfl
@[simp] theorem State.setHlink_free (s : State) (k : Nat) (x : HLink) : (s.setHlink k x).free = s.free := rfl
@[simp] theorem State.setHlink_out (s : State) (k : Nat) (x : HLink) : (s.setHlink k x).out = s.out := rfl
@[simp] theorem State.setHlink_evq (s : State) (k : Nat) (x : HLink) : (s.setHlink k x).evq = s.evq := rfl

@[simp] theorem State.setRing_pending (s : State) (k : Nat) (r : Ring) : (s.setRing k r).pending = s.pending := rfl
@[simp] theorem State.setRing_obj (s : State) (k : Nat) (r : Ring) : (s.setRing k r).obj = s.obj := rfl
@[simp] theorem State.setRing_mem (s : State) (k : Nat) (r : Ring) : (s.setRing k r).mem = s.mem := rfl
@[simp] theorem State.setRing_merr (s : State) (k : Nat) (r : Ring) : (s.setRing k r).merr = s.merr := rfl
@[simp] theorem State.setRing_pwr (s : State) (k : Nat) (r : Ring) : (s.setRing k r).pwr = s.pwr := rfl
@[simp] theorem State.setRing_tim (s : State) (k : Nat) (r : Ring) : (s.setRing k r).tim = s.tim := rfl
@[simp] theorem State.setRing_fuses (s : State) (k : Nat) (r : Ring) : (s.setRing k r).fuses = s.fuses := rfl
@[simp] theorem State.setRing_dict (s : State) (k : Nat) (r : Ring) : (s.setRing k r).dict = s.dict := rfl
@[simp] theorem State.setRing_rings (s : State) (k : Nat) (r : Ring) : (s.setRing k r).rings = tset Ring.init k r s.rings := rfl
@[simp] theorem State.setRing_dies (s : State) (k : Nat) (r : Ring) : (s.setRing k r).dies = s.dies := rfl
@[simp] theorem State.setRing_queues (s : State) (k : Nat) (r : Ring) : (s.setRing k r).queues = s.queues := rfl
@[simp] theorem State.setRing_coh (s : State) (k : Nat) (r : Ring) : (s.setRing k r).coh = s.coh := rfl
@[simp] theorem State.setRing_harts (s : State) (k : Nat) (r : Ring) : (s.setRing k r).harts = s.harts := rfl
@[simp] theorem State.setRing_fab (s : State) (k : Nat) (r : Ring) : (s.setRing k r).fab = s.fab := rfl
@[simp] theorem State.setRing_staging (s : State) (k : Nat) (r : Ring) : (s.setRing k r).staging = s.staging := rfl
@[simp] theorem State.setRing_stageResults (s : State) (k : Nat) (r : Ring) : (s.setRing k r).stageResults = s.stageResults := rfl
@[simp] theorem State.setRing_jobs (s : State) (k : Nat) (r : Ring) : (s.setRing k r).jobs = s.jobs := rfl
@[simp] theorem State.setRing_hst (s : State) (k : Nat) (r : Ring) : (s.setRing k r).hst = s.hst := rfl
@[simp] theorem State.setRing_ctl (s : State) (k : Nat) (r : Ring) : (s.setRing k r).ctl = s.ctl := rfl
@[simp] theorem State.setRing_free (s : State) (k : Nat) (r : Ring) : (s.setRing k r).free = s.free := rfl
@[simp] theorem State.setRing_out (s : State) (k : Nat) (r : Ring) : (s.setRing k r).out = s.out := rfl
@[simp] theorem State.setRing_evq (s : State) (k : Nat) (r : Ring) : (s.setRing k r).evq = s.evq := rfl

@[simp] theorem State.setSess_pending (s : State) (k : Nat) (x : Sess) : (s.setSess k x).pending = s.pending := rfl
@[simp] theorem State.setSess_obj (s : State) (k : Nat) (x : Sess) : (s.setSess k x).obj = s.obj := rfl
@[simp] theorem State.setSess_mem (s : State) (k : Nat) (x : Sess) : (s.setSess k x).mem = s.mem := rfl
@[simp] theorem State.setSess_merr (s : State) (k : Nat) (x : Sess) : (s.setSess k x).merr = s.merr := rfl
@[simp] theorem State.setSess_pwr (s : State) (k : Nat) (x : Sess) : (s.setSess k x).pwr = s.pwr := rfl
@[simp] theorem State.setSess_tim (s : State) (k : Nat) (x : Sess) : (s.setSess k x).tim = s.tim := rfl
@[simp] theorem State.setSess_fuses (s : State) (k : Nat) (x : Sess) : (s.setSess k x).fuses = s.fuses := rfl
@[simp] theorem State.setSess_rings (s : State) (k : Nat) (x : Sess) : (s.setSess k x).rings = s.rings := rfl
@[simp] theorem State.setSess_dies (s : State) (k : Nat) (x : Sess) : (s.setSess k x).dies = s.dies := rfl
@[simp] theorem State.setSess_queues (s : State) (k : Nat) (x : Sess) : (s.setSess k x).queues = s.queues := rfl
@[simp] theorem State.setSess_coh (s : State) (k : Nat) (x : Sess) : (s.setSess k x).coh = s.coh := rfl
@[simp] theorem State.setSess_harts (s : State) (k : Nat) (x : Sess) : (s.setSess k x).harts = s.harts := rfl
@[simp] theorem State.setSess_fab (s : State) (k : Nat) (x : Sess) : (s.setSess k x).fab = s.fab := rfl
@[simp] theorem State.setSess_staging (s : State) (k : Nat) (x : Sess) : (s.setSess k x).staging = s.staging := rfl
@[simp] theorem State.setSess_stageResults (s : State) (k : Nat) (x : Sess) : (s.setSess k x).stageResults = s.stageResults := rfl
@[simp] theorem State.setSess_jobs (s : State) (k : Nat) (x : Sess) : (s.setSess k x).jobs = s.jobs := rfl
@[simp] theorem State.setSess_hst (s : State) (k : Nat) (x : Sess) : (s.setSess k x).hst = s.hst := rfl
@[simp] theorem State.setSess_ctl (s : State) (k : Nat) (x : Sess) : (s.setSess k x).ctl = s.ctl := rfl
@[simp] theorem State.setSess_free (s : State) (k : Nat) (x : Sess) : (s.setSess k x).free = s.free := rfl
@[simp] theorem State.setSess_out (s : State) (k : Nat) (x : Sess) : (s.setSess k x).out = s.out := rfl
@[simp] theorem State.setSess_evq (s : State) (k : Nat) (x : Sess) : (s.setSess k x).evq = s.evq := rfl

@[simp] theorem State.setChan_pending (s : State) (c : Nat) (x : Chan) : (s.setChan c x).pending = s.pending := rfl
@[simp] theorem State.setChan_obj (s : State) (c : Nat) (x : Chan) : (s.setChan c x).obj = s.obj := rfl
@[simp] theorem State.setChan_mem (s : State) (c : Nat) (x : Chan) : (s.setChan c x).mem = s.mem := rfl
@[simp] theorem State.setChan_merr (s : State) (c : Nat) (x : Chan) : (s.setChan c x).merr = s.merr := rfl
@[simp] theorem State.setChan_pwr (s : State) (c : Nat) (x : Chan) : (s.setChan c x).pwr = s.pwr := rfl
@[simp] theorem State.setChan_tim (s : State) (c : Nat) (x : Chan) : (s.setChan c x).tim = s.tim := rfl
@[simp] theorem State.setChan_fuses (s : State) (c : Nat) (x : Chan) : (s.setChan c x).fuses = s.fuses := rfl
@[simp] theorem State.setChan_rings (s : State) (c : Nat) (x : Chan) : (s.setChan c x).rings = s.rings := rfl
@[simp] theorem State.setChan_dies (s : State) (c : Nat) (x : Chan) : (s.setChan c x).dies = s.dies := rfl
@[simp] theorem State.setChan_queues (s : State) (c : Nat) (x : Chan) : (s.setChan c x).queues = s.queues := rfl
@[simp] theorem State.setChan_coh (s : State) (c : Nat) (x : Chan) : (s.setChan c x).coh = s.coh := rfl
@[simp] theorem State.setChan_harts (s : State) (c : Nat) (x : Chan) : (s.setChan c x).harts = s.harts := rfl
@[simp] theorem State.setChan_fab (s : State) (c : Nat) (x : Chan) : (s.setChan c x).fab = s.fab := rfl
@[simp] theorem State.setChan_staging (s : State) (c : Nat) (x : Chan) : (s.setChan c x).staging = s.staging := rfl
@[simp] theorem State.setChan_stageResults (s : State) (c : Nat) (x : Chan) : (s.setChan c x).stageResults = s.stageResults := rfl
@[simp] theorem State.setChan_jobs (s : State) (c : Nat) (x : Chan) : (s.setChan c x).jobs = s.jobs := rfl
@[simp] theorem State.setChan_hst (s : State) (c : Nat) (x : Chan) : (s.setChan c x).hst = s.hst := rfl
@[simp] theorem State.setChan_ctl (s : State) (c : Nat) (x : Chan) : (s.setChan c x).ctl = s.ctl := rfl
@[simp] theorem State.setChan_free (s : State) (c : Nat) (x : Chan) : (s.setChan c x).free = s.free := rfl
@[simp] theorem State.setChan_out (s : State) (c : Nat) (x : Chan) : (s.setChan c x).out = s.out := rfl
@[simp] theorem State.setChan_evq (s : State) (c : Nat) (x : Chan) : (s.setChan c x).evq = s.evq := rfl

@[simp] theorem State.emit_pending (s : State) (o : Out) : (s.emit o).pending = s.pending := rfl
@[simp] theorem State.emit_obj (s : State) (o : Out) : (s.emit o).obj = s.obj := rfl
@[simp] theorem State.emit_mem (s : State) (o : Out) : (s.emit o).mem = s.mem := rfl
@[simp] theorem State.emit_merr (s : State) (o : Out) : (s.emit o).merr = s.merr := rfl
@[simp] theorem State.emit_pwr (s : State) (o : Out) : (s.emit o).pwr = s.pwr := rfl
@[simp] theorem State.emit_tim (s : State) (o : Out) : (s.emit o).tim = s.tim := rfl
@[simp] theorem State.emit_fuses (s : State) (o : Out) : (s.emit o).fuses = s.fuses := rfl
@[simp] theorem State.emit_dict (s : State) (o : Out) : (s.emit o).dict = s.dict := rfl
@[simp] theorem State.emit_rings (s : State) (o : Out) : (s.emit o).rings = s.rings := rfl
@[simp] theorem State.emit_dies (s : State) (o : Out) : (s.emit o).dies = s.dies := rfl
@[simp] theorem State.emit_queues (s : State) (o : Out) : (s.emit o).queues = s.queues := rfl
@[simp] theorem State.emit_coh (s : State) (o : Out) : (s.emit o).coh = s.coh := rfl
@[simp] theorem State.emit_harts (s : State) (o : Out) : (s.emit o).harts = s.harts := rfl
@[simp] theorem State.emit_fab (s : State) (o : Out) : (s.emit o).fab = s.fab := rfl
@[simp] theorem State.emit_staging (s : State) (o : Out) : (s.emit o).staging = s.staging := rfl
@[simp] theorem State.emit_stageResults (s : State) (o : Out) : (s.emit o).stageResults = s.stageResults := rfl
@[simp] theorem State.emit_jobs (s : State) (o : Out) : (s.emit o).jobs = s.jobs := rfl
@[simp] theorem State.emit_hst (s : State) (o : Out) : (s.emit o).hst = s.hst := rfl
@[simp] theorem State.emit_ctl (s : State) (o : Out) : (s.emit o).ctl = s.ctl := rfl
@[simp] theorem State.emit_free (s : State) (o : Out) : (s.emit o).free = s.free := rfl
@[simp] theorem State.emit_out (s : State) (o : Out) : (s.emit o).out = s.out ++ [o] := rfl
@[simp] theorem State.emit_evq (s : State) (o : Out) : (s.emit o).evq = s.evq := rfl

@[simp] theorem State.draw_pending (s : State) : (s.draw.2).pending = s.pending := rfl
@[simp] theorem State.draw_obj (s : State) : (s.draw.2).obj = s.obj := rfl
@[simp] theorem State.draw_mem (s : State) : (s.draw.2).mem = s.mem := rfl
@[simp] theorem State.draw_merr (s : State) : (s.draw.2).merr = s.merr := rfl
@[simp] theorem State.draw_pwr (s : State) : (s.draw.2).pwr = s.pwr := rfl
@[simp] theorem State.draw_tim (s : State) : (s.draw.2).tim = s.tim := rfl
@[simp] theorem State.draw_fuses (s : State) : (s.draw.2).fuses = s.fuses := rfl
@[simp] theorem State.draw_dict (s : State) : (s.draw.2).dict = s.dict := rfl
@[simp] theorem State.draw_rings (s : State) : (s.draw.2).rings = s.rings := rfl
@[simp] theorem State.draw_dies (s : State) : (s.draw.2).dies = s.dies := rfl
@[simp] theorem State.draw_queues (s : State) : (s.draw.2).queues = s.queues := rfl
@[simp] theorem State.draw_coh (s : State) : (s.draw.2).coh = s.coh := rfl
@[simp] theorem State.draw_harts (s : State) : (s.draw.2).harts = s.harts := rfl
@[simp] theorem State.draw_fab (s : State) : (s.draw.2).fab = s.fab := rfl
@[simp] theorem State.draw_staging (s : State) : (s.draw.2).staging = s.staging := rfl
@[simp] theorem State.draw_stageResults (s : State) : (s.draw.2).stageResults = s.stageResults := rfl
@[simp] theorem State.draw_jobs (s : State) : (s.draw.2).jobs = s.jobs := rfl
@[simp] theorem State.draw_hst (s : State) : (s.draw.2).hst = s.hst := rfl
@[simp] theorem State.draw_ctl (s : State) : (s.draw.2).ctl = s.ctl := rfl
@[simp] theorem State.draw_free (s : State) : (s.draw.2).free = s.free + 1 := rfl
@[simp] theorem State.draw_out (s : State) : (s.draw.2).out = s.out := rfl
@[simp] theorem State.draw_evq (s : State) : (s.draw.2).evq = s.evq := rfl

@[simp] theorem putBytes_pending (s : State) (a : Nat) (l : List Byte) : (putBytes s a l).pending = s.pending := rfl
@[simp] theorem putBytes_obj (s : State) (a : Nat) (l : List Byte) : (putBytes s a l).obj = s.obj := rfl
@[simp] theorem putBytes_mem (s : State) (a : Nat) (l : List Byte) : (putBytes s a l).mem = putMem s.mem a l := rfl
@[simp] theorem putBytes_merr (s : State) (a : Nat) (l : List Byte) : (putBytes s a l).merr = s.merr := rfl
@[simp] theorem putBytes_pwr (s : State) (a : Nat) (l : List Byte) : (putBytes s a l).pwr = s.pwr := rfl
@[simp] theorem putBytes_tim (s : State) (a : Nat) (l : List Byte) : (putBytes s a l).tim = s.tim := rfl
@[simp] theorem putBytes_fuses (s : State) (a : Nat) (l : List Byte) : (putBytes s a l).fuses = s.fuses := rfl
@[simp] theorem putBytes_dict (s : State) (a : Nat) (l : List Byte) : (putBytes s a l).dict = s.dict := rfl
@[simp] theorem putBytes_rings (s : State) (a : Nat) (l : List Byte) : (putBytes s a l).rings = s.rings := rfl
@[simp] theorem putBytes_dies (s : State) (a : Nat) (l : List Byte) : (putBytes s a l).dies = s.dies := rfl
@[simp] theorem putBytes_queues (s : State) (a : Nat) (l : List Byte) : (putBytes s a l).queues = s.queues := rfl
@[simp] theorem putBytes_coh (s : State) (a : Nat) (l : List Byte) : (putBytes s a l).coh = s.coh := rfl
@[simp] theorem putBytes_harts (s : State) (a : Nat) (l : List Byte) : (putBytes s a l).harts = s.harts := rfl
@[simp] theorem putBytes_fab (s : State) (a : Nat) (l : List Byte) : (putBytes s a l).fab = s.fab := rfl
@[simp] theorem putBytes_staging (s : State) (a : Nat) (l : List Byte) : (putBytes s a l).staging = s.staging := rfl
@[simp] theorem putBytes_stageResults (s : State) (a : Nat) (l : List Byte) : (putBytes s a l).stageResults = s.stageResults := rfl
@[simp] theorem putBytes_jobs (s : State) (a : Nat) (l : List Byte) : (putBytes s a l).jobs = s.jobs := rfl
@[simp] theorem putBytes_hst (s : State) (a : Nat) (l : List Byte) : (putBytes s a l).hst = s.hst := rfl
@[simp] theorem putBytes_ctl (s : State) (a : Nat) (l : List Byte) : (putBytes s a l).ctl = s.ctl := rfl
@[simp] theorem putBytes_free (s : State) (a : Nat) (l : List Byte) : (putBytes s a l).free = s.free := rfl
@[simp] theorem putBytes_out (s : State) (a : Nat) (l : List Byte) : (putBytes s a l).out = s.out := rfl
@[simp] theorem putBytes_evq (s : State) (a : Nat) (l : List Byte) : (putBytes s a l).evq = s.evq := rfl

@[simp] theorem setPoison_pending (s : State) (u : Nat) (p : Bool) : (setPoison s u p).pending = s.pending := rfl
@[simp] theorem setPoison_obj (s : State) (u : Nat) (p : Bool) : (setPoison s u p).obj = s.obj := rfl
@[simp] theorem setPoison_mem (s : State) (u : Nat) (p : Bool) : (setPoison s u p).mem = s.mem := rfl
@[simp] theorem setPoison_pwr (s : State) (u : Nat) (p : Bool) : (setPoison s u p).pwr = s.pwr := rfl
@[simp] theorem setPoison_tim (s : State) (u : Nat) (p : Bool) : (setPoison s u p).tim = s.tim := rfl
@[simp] theorem setPoison_fuses (s : State) (u : Nat) (p : Bool) : (setPoison s u p).fuses = s.fuses := rfl
@[simp] theorem setPoison_dict (s : State) (u : Nat) (p : Bool) : (setPoison s u p).dict = s.dict := rfl
@[simp] theorem setPoison_rings (s : State) (u : Nat) (p : Bool) : (setPoison s u p).rings = s.rings := rfl
@[simp] theorem setPoison_dies (s : State) (u : Nat) (p : Bool) : (setPoison s u p).dies = s.dies := rfl
@[simp] theorem setPoison_queues (s : State) (u : Nat) (p : Bool) : (setPoison s u p).queues = s.queues := rfl
@[simp] theorem setPoison_coh (s : State) (u : Nat) (p : Bool) : (setPoison s u p).coh = s.coh := rfl
@[simp] theorem setPoison_harts (s : State) (u : Nat) (p : Bool) : (setPoison s u p).harts = s.harts := rfl
@[simp] theorem setPoison_fab (s : State) (u : Nat) (p : Bool) : (setPoison s u p).fab = s.fab := rfl
@[simp] theorem setPoison_staging (s : State) (u : Nat) (p : Bool) : (setPoison s u p).staging = s.staging := rfl
@[simp] theorem setPoison_stageResults (s : State) (u : Nat) (p : Bool) : (setPoison s u p).stageResults = s.stageResults := rfl
@[simp] theorem setPoison_jobs (s : State) (u : Nat) (p : Bool) : (setPoison s u p).jobs = s.jobs := rfl
@[simp] theorem setPoison_hst (s : State) (u : Nat) (p : Bool) : (setPoison s u p).hst = s.hst := rfl
@[simp] theorem setPoison_ctl (s : State) (u : Nat) (p : Bool) : (setPoison s u p).ctl = s.ctl := rfl
@[simp] theorem setPoison_free (s : State) (u : Nat) (p : Bool) : (setPoison s u p).free = s.free := rfl
@[simp] theorem setPoison_out (s : State) (u : Nat) (p : Bool) : (setPoison s u p).out = s.out := rfl
@[simp] theorem setPoison_evq (s : State) (u : Nat) (p : Bool) : (setPoison s u p).evq = s.evq := rfl

@[simp] theorem clearLatent_pending (s : State) (u : Nat) : (clearLatent s u).pending = s.pending := rfl
@[simp] theorem clearLatent_obj (s : State) (u : Nat) : (clearLatent s u).obj = s.obj := rfl
@[simp] theorem clearLatent_mem (s : State) (u : Nat) : (clearLatent s u).mem = s.mem := rfl
@[simp] theorem clearLatent_pwr (s : State) (u : Nat) : (clearLatent s u).pwr = s.pwr := rfl
@[simp] theorem clearLatent_tim (s : State) (u : Nat) : (clearLatent s u).tim = s.tim := rfl
@[simp] theorem clearLatent_fuses (s : State) (u : Nat) : (clearLatent s u).fuses = s.fuses := rfl
@[simp] theorem clearLatent_dict (s : State) (u : Nat) : (clearLatent s u).dict = s.dict := rfl
@[simp] theorem clearLatent_rings (s : State) (u : Nat) : (clearLatent s u).rings = s.rings := rfl
@[simp] theorem clearLatent_dies (s : State) (u : Nat) : (clearLatent s u).dies = s.dies := rfl
@[simp] theorem clearLatent_queues (s : State) (u : Nat) : (clearLatent s u).queues = s.queues := rfl
@[simp] theorem clearLatent_coh (s : State) (u : Nat) : (clearLatent s u).coh = s.coh := rfl
@[simp] theorem clearLatent_harts (s : State) (u : Nat) : (clearLatent s u).harts = s.harts := rfl
@[simp] theorem clearLatent_fab (s : State) (u : Nat) : (clearLatent s u).fab = s.fab := rfl
@[simp] theorem clearLatent_staging (s : State) (u : Nat) : (clearLatent s u).staging = s.staging := rfl
@[simp] theorem clearLatent_stageResults (s : State) (u : Nat) : (clearLatent s u).stageResults = s.stageResults := rfl
@[simp] theorem clearLatent_jobs (s : State) (u : Nat) : (clearLatent s u).jobs = s.jobs := rfl
@[simp] theorem clearLatent_hst (s : State) (u : Nat) : (clearLatent s u).hst = s.hst := rfl
@[simp] theorem clearLatent_ctl (s : State) (u : Nat) : (clearLatent s u).ctl = s.ctl := rfl
@[simp] theorem clearLatent_free (s : State) (u : Nat) : (clearLatent s u).free = s.free := rfl
@[simp] theorem clearLatent_out (s : State) (u : Nat) : (clearLatent s u).out = s.out := rfl
@[simp] theorem clearLatent_evq (s : State) (u : Nat) : (clearLatent s u).evq = s.evq := rfl

@[simp] theorem setCacheLine_pending (c line : Nat) (x : Option CLine) (s : State) : (setCacheLine c line x s).pending = s.pending := rfl
@[simp] theorem setCacheLine_obj (c line : Nat) (x : Option CLine) (s : State) : (setCacheLine c line x s).obj = s.obj := rfl
@[simp] theorem setCacheLine_mem (c line : Nat) (x : Option CLine) (s : State) : (setCacheLine c line x s).mem = s.mem := rfl
@[simp] theorem setCacheLine_merr (c line : Nat) (x : Option CLine) (s : State) : (setCacheLine c line x s).merr = s.merr := rfl
@[simp] theorem setCacheLine_pwr (c line : Nat) (x : Option CLine) (s : State) : (setCacheLine c line x s).pwr = s.pwr := rfl
@[simp] theorem setCacheLine_tim (c line : Nat) (x : Option CLine) (s : State) : (setCacheLine c line x s).tim = s.tim := rfl
@[simp] theorem setCacheLine_fuses (c line : Nat) (x : Option CLine) (s : State) : (setCacheLine c line x s).fuses = s.fuses := rfl
@[simp] theorem setCacheLine_dict (c line : Nat) (x : Option CLine) (s : State) : (setCacheLine c line x s).dict = s.dict := rfl
@[simp] theorem setCacheLine_rings (c line : Nat) (x : Option CLine) (s : State) : (setCacheLine c line x s).rings = s.rings := rfl
@[simp] theorem setCacheLine_dies (c line : Nat) (x : Option CLine) (s : State) : (setCacheLine c line x s).dies = s.dies := rfl
@[simp] theorem setCacheLine_queues (c line : Nat) (x : Option CLine) (s : State) : (setCacheLine c line x s).queues = s.queues := rfl
@[simp] theorem setCacheLine_harts (c line : Nat) (x : Option CLine) (s : State) : (setCacheLine c line x s).harts = s.harts := rfl
@[simp] theorem setCacheLine_fab (c line : Nat) (x : Option CLine) (s : State) : (setCacheLine c line x s).fab = s.fab := rfl
@[simp] theorem setCacheLine_staging (c line : Nat) (x : Option CLine) (s : State) : (setCacheLine c line x s).staging = s.staging := rfl
@[simp] theorem setCacheLine_stageResults (c line : Nat) (x : Option CLine) (s : State) : (setCacheLine c line x s).stageResults = s.stageResults := rfl
@[simp] theorem setCacheLine_jobs (c line : Nat) (x : Option CLine) (s : State) : (setCacheLine c line x s).jobs = s.jobs := rfl
@[simp] theorem setCacheLine_hst (c line : Nat) (x : Option CLine) (s : State) : (setCacheLine c line x s).hst = s.hst := rfl
@[simp] theorem setCacheLine_ctl (c line : Nat) (x : Option CLine) (s : State) : (setCacheLine c line x s).ctl = s.ctl := rfl
@[simp] theorem setCacheLine_free (c line : Nat) (x : Option CLine) (s : State) : (setCacheLine c line x s).free = s.free := rfl
@[simp] theorem setCacheLine_out (c line : Nat) (x : Option CLine) (s : State) : (setCacheLine c line x s).out = s.out := rfl
@[simp] theorem setCacheLine_evq (c line : Nat) (x : Option CLine) (s : State) : (setCacheLine c line x s).evq = s.evq := rfl

@[simp] theorem setDir_pending (line : Nat) (e : DirEntry) (s : State) : (setDir line e s).pending = s.pending := rfl
@[simp] theorem setDir_obj (line : Nat) (e : DirEntry) (s : State) : (setDir line e s).obj = s.obj := rfl
@[simp] theorem setDir_mem (line : Nat) (e : DirEntry) (s : State) : (setDir line e s).mem = s.mem := rfl
@[simp] theorem setDir_merr (line : Nat) (e : DirEntry) (s : State) : (setDir line e s).merr = s.merr := rfl
@[simp] theorem setDir_pwr (line : Nat) (e : DirEntry) (s : State) : (setDir line e s).pwr = s.pwr := rfl
@[simp] theorem setDir_tim (line : Nat) (e : DirEntry) (s : State) : (setDir line e s).tim = s.tim := rfl
@[simp] theorem setDir_fuses (line : Nat) (e : DirEntry) (s : State) : (setDir line e s).fuses = s.fuses := rfl
@[simp] theorem setDir_dict (line : Nat) (e : DirEntry) (s : State) : (setDir line e s).dict = s.dict := rfl
@[simp] theorem setDir_rings (line : Nat) (e : DirEntry) (s : State) : (setDir line e s).rings = s.rings := rfl
@[simp] theorem setDir_dies (line : Nat) (e : DirEntry) (s : State) : (setDir line e s).dies = s.dies := rfl
@[simp] theorem setDir_queues (line : Nat) (e : DirEntry) (s : State) : (setDir line e s).queues = s.queues := rfl
@[simp] theorem setDir_harts (line : Nat) (e : DirEntry) (s : State) : (setDir line e s).harts = s.harts := rfl
@[simp] theorem setDir_fab (line : Nat) (e : DirEntry) (s : State) : (setDir line e s).fab = s.fab := rfl
@[simp] theorem setDir_staging (line : Nat) (e : DirEntry) (s : State) : (setDir line e s).staging = s.staging := rfl
@[simp] theorem setDir_stageResults (line : Nat) (e : DirEntry) (s : State) : (setDir line e s).stageResults = s.stageResults := rfl
@[simp] theorem setDir_jobs (line : Nat) (e : DirEntry) (s : State) : (setDir line e s).jobs = s.jobs := rfl
@[simp] theorem setDir_hst (line : Nat) (e : DirEntry) (s : State) : (setDir line e s).hst = s.hst := rfl
@[simp] theorem setDir_ctl (line : Nat) (e : DirEntry) (s : State) : (setDir line e s).ctl = s.ctl := rfl
@[simp] theorem setDir_free (line : Nat) (e : DirEntry) (s : State) : (setDir line e s).free = s.free := rfl
@[simp] theorem setDir_out (line : Nat) (e : DirEntry) (s : State) : (setDir line e s).out = s.out := rfl
@[simp] theorem setDir_evq (line : Nat) (e : DirEntry) (s : State) : (setDir line e s).evq = s.evq := rfl

@[simp] theorem post_pending (code source job : Nat) (f : List (Nat × Nat)) (s : State) : (post code source job f s).pending = s.pending := rfl
@[simp] theorem post_obj (code source job : Nat) (f : List (Nat × Nat)) (s : State) : (post code source job f s).obj = s.obj := rfl
@[simp] theorem post_mem (code source job : Nat) (f : List (Nat × Nat)) (s : State) : (post code source job f s).mem = s.mem := rfl
@[simp] theorem post_merr (code source job : Nat) (f : List (Nat × Nat)) (s : State) : (post code source job f s).merr = s.merr := rfl
@[simp] theorem post_pwr (code source job : Nat) (f : List (Nat × Nat)) (s : State) : (post code source job f s).pwr = s.pwr := rfl
@[simp] theorem post_tim (code source job : Nat) (f : List (Nat × Nat)) (s : State) : (post code source job f s).tim = s.tim := rfl
@[simp] theorem post_fuses (code source job : Nat) (f : List (Nat × Nat)) (s : State) : (post code source job f s).fuses = s.fuses := rfl
@[simp] theorem post_dict (code source job : Nat) (f : List (Nat × Nat)) (s : State) : (post code source job f s).dict = s.dict := rfl
@[simp] theorem post_rings (code source job : Nat) (f : List (Nat × Nat)) (s : State) : (post code source job f s).rings = s.rings := rfl
@[simp] theorem post_dies (code source job : Nat) (f : List (Nat × Nat)) (s : State) : (post code source job f s).dies = s.dies := rfl
@[simp] theorem post_queues (code source job : Nat) (f : List (Nat × Nat)) (s : State) : (post code source job f s).queues = s.queues := rfl
@[simp] theorem post_coh (code source job : Nat) (f : List (Nat × Nat)) (s : State) : (post code source job f s).coh = s.coh := rfl
@[simp] theorem post_harts (code source job : Nat) (f : List (Nat × Nat)) (s : State) : (post code source job f s).harts = s.harts := rfl
@[simp] theorem post_fab (code source job : Nat) (f : List (Nat × Nat)) (s : State) : (post code source job f s).fab = s.fab := rfl
@[simp] theorem post_staging (code source job : Nat) (f : List (Nat × Nat)) (s : State) : (post code source job f s).staging = s.staging := rfl
@[simp] theorem post_stageResults (code source job : Nat) (f : List (Nat × Nat)) (s : State) : (post code source job f s).stageResults = s.stageResults := rfl
@[simp] theorem post_jobs (code source job : Nat) (f : List (Nat × Nat)) (s : State) : (post code source job f s).jobs = s.jobs := rfl
@[simp] theorem post_hst (code source job : Nat) (f : List (Nat × Nat)) (s : State) : (post code source job f s).hst = s.hst := rfl
@[simp] theorem post_ctl (code source job : Nat) (f : List (Nat × Nat)) (s : State) : (post code source job f s).ctl = s.ctl := rfl
@[simp] theorem post_free (code source job : Nat) (f : List (Nat × Nat)) (s : State) : (post code source job f s).free = s.free := rfl
@[simp] theorem post_out (code source job : Nat) (f : List (Nat × Nat)) (s : State) : (post code source job f s).out = s.out := rfl

@[simp] theorem setCoord_pending (j : Nat) (c : Coord) (s : State) : (setCoord j c s).pending = s.pending := rfl
@[simp] theorem setCoord_obj (j : Nat) (c : Coord) (s : State) : (setCoord j c s).obj = s.obj := rfl
@[simp] theorem setCoord_mem (j : Nat) (c : Coord) (s : State) : (setCoord j c s).mem = s.mem := rfl
@[simp] theorem setCoord_merr (j : Nat) (c : Coord) (s : State) : (setCoord j c s).merr = s.merr := rfl
@[simp] theorem setCoord_pwr (j : Nat) (c : Coord) (s : State) : (setCoord j c s).pwr = s.pwr := rfl
@[simp] theorem setCoord_tim (j : Nat) (c : Coord) (s : State) : (setCoord j c s).tim = s.tim := rfl
@[simp] theorem setCoord_fuses (j : Nat) (c : Coord) (s : State) : (setCoord j c s).fuses = s.fuses := rfl
@[simp] theorem setCoord_dict (j : Nat) (c : Coord) (s : State) : (setCoord j c s).dict = s.dict := rfl
@[simp] theorem setCoord_rings (j : Nat) (c : Coord) (s : State) : (setCoord j c s).rings = s.rings := rfl
@[simp] theorem setCoord_dies (j : Nat) (c : Coord) (s : State) : (setCoord j c s).dies = s.dies := rfl
@[simp] theorem setCoord_queues (j : Nat) (c : Coord) (s : State) : (setCoord j c s).queues = s.queues := rfl
@[simp] theorem setCoord_coh (j : Nat) (c : Coord) (s : State) : (setCoord j c s).coh = s.coh := rfl
@[simp] theorem setCoord_harts (j : Nat) (c : Coord) (s : State) : (setCoord j c s).harts = s.harts := rfl
@[simp] theorem setCoord_fab (j : Nat) (c : Coord) (s : State) : (setCoord j c s).fab = s.fab := rfl
@[simp] theorem setCoord_staging (j : Nat) (c : Coord) (s : State) : (setCoord j c s).staging = s.staging := rfl
@[simp] theorem setCoord_stageResults (j : Nat) (c : Coord) (s : State) : (setCoord j c s).stageResults = s.stageResults := rfl
@[simp] theorem setCoord_hst (j : Nat) (c : Coord) (s : State) : (setCoord j c s).hst = s.hst := rfl
@[simp] theorem setCoord_ctl (j : Nat) (c : Coord) (s : State) : (setCoord j c s).ctl = s.ctl := rfl
@[simp] theorem setCoord_free (j : Nat) (c : Coord) (s : State) : (setCoord j c s).free = s.free := rfl
@[simp] theorem setCoord_out (j : Nat) (c : Coord) (s : State) : (setCoord j c s).out = s.out := rfl
@[simp] theorem setCoord_evq (j : Nat) (c : Coord) (s : State) : (setCoord j c s).evq = s.evq := rfl

@[simp] theorem setTxn_pending (line : Nat) (t : Txn) (s : State) : (setTxn line t s).pending = s.pending := rfl
@[simp] theorem setTxn_obj (line : Nat) (t : Txn) (s : State) : (setTxn line t s).obj = s.obj := rfl
@[simp] theorem setTxn_mem (line : Nat) (t : Txn) (s : State) : (setTxn line t s).mem = s.mem := rfl
@[simp] theorem setTxn_merr (line : Nat) (t : Txn) (s : State) : (setTxn line t s).merr = s.merr := rfl
@[simp] theorem setTxn_pwr (line : Nat) (t : Txn) (s : State) : (setTxn line t s).pwr = s.pwr := rfl
@[simp] theorem setTxn_tim (line : Nat) (t : Txn) (s : State) : (setTxn line t s).tim = s.tim := rfl
@[simp] theorem setTxn_fuses (line : Nat) (t : Txn) (s : State) : (setTxn line t s).fuses = s.fuses := rfl
@[simp] theorem setTxn_dict (line : Nat) (t : Txn) (s : State) : (setTxn line t s).dict = s.dict := rfl
@[simp] theorem setTxn_rings (line : Nat) (t : Txn) (s : State) : (setTxn line t s).rings = s.rings := rfl
@[simp] theorem setTxn_dies (line : Nat) (t : Txn) (s : State) : (setTxn line t s).dies = s.dies := rfl
@[simp] theorem setTxn_queues (line : Nat) (t : Txn) (s : State) : (setTxn line t s).queues = s.queues := rfl
@[simp] theorem setTxn_harts (line : Nat) (t : Txn) (s : State) : (setTxn line t s).harts = s.harts := rfl
@[simp] theorem setTxn_fab (line : Nat) (t : Txn) (s : State) : (setTxn line t s).fab = s.fab := rfl
@[simp] theorem setTxn_staging (line : Nat) (t : Txn) (s : State) : (setTxn line t s).staging = s.staging := rfl
@[simp] theorem setTxn_stageResults (line : Nat) (t : Txn) (s : State) : (setTxn line t s).stageResults = s.stageResults := rfl
@[simp] theorem setTxn_jobs (line : Nat) (t : Txn) (s : State) : (setTxn line t s).jobs = s.jobs := rfl
@[simp] theorem setTxn_hst (line : Nat) (t : Txn) (s : State) : (setTxn line t s).hst = s.hst := rfl
@[simp] theorem setTxn_ctl (line : Nat) (t : Txn) (s : State) : (setTxn line t s).ctl = s.ctl := rfl
@[simp] theorem setTxn_free (line : Nat) (t : Txn) (s : State) : (setTxn line t s).free = s.free := rfl
@[simp] theorem setTxn_out (line : Nat) (t : Txn) (s : State) : (setTxn line t s).out = s.out := rfl
@[simp] theorem setTxn_evq (line : Nat) (t : Txn) (s : State) : (setTxn line t s).evq = s.evq := rfl

@[simp] theorem sendMsg_pending (m : Msg) (s : State) : (sendMsg m s).pending = s.pending := rfl
@[simp] theorem sendMsg_obj (m : Msg) (s : State) : (sendMsg m s).obj = s.obj := rfl
@[simp] theorem sendMsg_mem (m : Msg) (s : State) : (sendMsg m s).mem = s.mem := rfl
@[simp] theorem sendMsg_merr (m : Msg) (s : State) : (sendMsg m s).merr = s.merr := rfl
@[simp] theorem sendMsg_pwr (m : Msg) (s : State) : (sendMsg m s).pwr = s.pwr := rfl
@[simp] theorem sendMsg_tim (m : Msg) (s : State) : (sendMsg m s).tim = s.tim := rfl
@[simp] theorem sendMsg_fuses (m : Msg) (s : State) : (sendMsg m s).fuses = s.fuses := rfl
@[simp] theorem sendMsg_dict (m : Msg) (s : State) : (sendMsg m s).dict = s.dict := rfl
@[simp] theorem sendMsg_rings (m : Msg) (s : State) : (sendMsg m s).rings = s.rings := rfl
@[simp] theorem sendMsg_dies (m : Msg) (s : State) : (sendMsg m s).dies = s.dies := rfl
@[simp] theorem sendMsg_queues (m : Msg) (s : State) : (sendMsg m s).queues = s.queues := rfl
@[simp] theorem sendMsg_harts (m : Msg) (s : State) : (sendMsg m s).harts = s.harts := rfl
@[simp] theorem sendMsg_fab (m : Msg) (s : State) : (sendMsg m s).fab = s.fab := rfl
@[simp] theorem sendMsg_staging (m : Msg) (s : State) : (sendMsg m s).staging = s.staging := rfl
@[simp] theorem sendMsg_stageResults (m : Msg) (s : State) : (sendMsg m s).stageResults = s.stageResults := rfl
@[simp] theorem sendMsg_jobs (m : Msg) (s : State) : (sendMsg m s).jobs = s.jobs := rfl
@[simp] theorem sendMsg_hst (m : Msg) (s : State) : (sendMsg m s).hst = s.hst := rfl
@[simp] theorem sendMsg_ctl (m : Msg) (s : State) : (sendMsg m s).ctl = s.ctl := rfl
@[simp] theorem sendMsg_free (m : Msg) (s : State) : (sendMsg m s).free = s.free := rfl
@[simp] theorem sendMsg_out (m : Msg) (s : State) : (sendMsg m s).out = s.out := rfl
@[simp] theorem sendMsg_evq (m : Msg) (s : State) : (sendMsg m s).evq = s.evq := rfl
@[simp] theorem sendMsg_msgs (m : Msg) (s : State) : (sendMsg m s).coh.msgs = s.coh.msgs ++ [m] := rfl

@[simp] theorem giveHart_pending (h v : Nat) (s : State) : (giveHart h v s).pending = s.pending := rfl
@[simp] theorem giveHart_obj (h v : Nat) (s : State) : (giveHart h v s).obj = s.obj := rfl
@[simp] theorem giveHart_mem (h v : Nat) (s : State) : (giveHart h v s).mem = s.mem := rfl
@[simp] theorem giveHart_merr (h v : Nat) (s : State) : (giveHart h v s).merr = s.merr := rfl
@[simp] theorem giveHart_pwr (h v : Nat) (s : State) : (giveHart h v s).pwr = s.pwr := rfl
@[simp] theorem giveHart_tim (h v : Nat) (s : State) : (giveHart h v s).tim = s.tim := rfl
@[simp] theorem giveHart_fuses (h v : Nat) (s : State) : (giveHart h v s).fuses = s.fuses := rfl
@[simp] theorem giveHart_dict (h v : Nat) (s : State) : (giveHart h v s).dict = s.dict := rfl
@[simp] theorem giveHart_rings (h v : Nat) (s : State) : (giveHart h v s).rings = s.rings := rfl
@[simp] theorem giveHart_dies (h v : Nat) (s : State) : (giveHart h v s).dies = s.dies := rfl
@[simp] theorem giveHart_queues (h v : Nat) (s : State) : (giveHart h v s).queues = s.queues := rfl
@[simp] theorem giveHart_harts (h v : Nat) (s : State) : (giveHart h v s).harts = s.harts := rfl
@[simp] theorem giveHart_fab (h v : Nat) (s : State) : (giveHart h v s).fab = s.fab := rfl
@[simp] theorem giveHart_staging (h v : Nat) (s : State) : (giveHart h v s).staging = s.staging := rfl
@[simp] theorem giveHart_stageResults (h v : Nat) (s : State) : (giveHart h v s).stageResults = s.stageResults := rfl
@[simp] theorem giveHart_jobs (h v : Nat) (s : State) : (giveHart h v s).jobs = s.jobs := rfl
@[simp] theorem giveHart_hst (h v : Nat) (s : State) : (giveHart h v s).hst = s.hst := rfl
@[simp] theorem giveHart_ctl (h v : Nat) (s : State) : (giveHart h v s).ctl = s.ctl := rfl
@[simp] theorem giveHart_free (h v : Nat) (s : State) : (giveHart h v s).free = s.free := rfl
@[simp] theorem giveHart_out (h v : Nat) (s : State) : (giveHart h v s).out = s.out := rfl
@[simp] theorem giveHart_evq (h v : Nat) (s : State) : (giveHart h v s).evq = s.evq := rfl

@[simp] theorem clearResv_pending (line : Nat) (s : State) : (clearResv line s).pending = s.pending := rfl
@[simp] theorem clearResv_obj (line : Nat) (s : State) : (clearResv line s).obj = s.obj := rfl
@[simp] theorem clearResv_mem (line : Nat) (s : State) : (clearResv line s).mem = s.mem := rfl
@[simp] theorem clearResv_merr (line : Nat) (s : State) : (clearResv line s).merr = s.merr := rfl
@[simp] theorem clearResv_pwr (line : Nat) (s : State) : (clearResv line s).pwr = s.pwr := rfl
@[simp] theorem clearResv_tim (line : Nat) (s : State) : (clearResv line s).tim = s.tim := rfl
@[simp] theorem clearResv_fuses (line : Nat) (s : State) : (clearResv line s).fuses = s.fuses := rfl
@[simp] theorem clearResv_dict (line : Nat) (s : State) : (clearResv line s).dict = s.dict := rfl
@[simp] theorem clearResv_rings (line : Nat) (s : State) : (clearResv line s).rings = s.rings := rfl
@[simp] theorem clearResv_dies (line : Nat) (s : State) : (clearResv line s).dies = s.dies := rfl
@[simp] theorem clearResv_queues (line : Nat) (s : State) : (clearResv line s).queues = s.queues := rfl
@[simp] theorem clearResv_harts (line : Nat) (s : State) : (clearResv line s).harts = s.harts := rfl
@[simp] theorem clearResv_fab (line : Nat) (s : State) : (clearResv line s).fab = s.fab := rfl
@[simp] theorem clearResv_staging (line : Nat) (s : State) : (clearResv line s).staging = s.staging := rfl
@[simp] theorem clearResv_stageResults (line : Nat) (s : State) : (clearResv line s).stageResults = s.stageResults := rfl
@[simp] theorem clearResv_jobs (line : Nat) (s : State) : (clearResv line s).jobs = s.jobs := rfl
@[simp] theorem clearResv_hst (line : Nat) (s : State) : (clearResv line s).hst = s.hst := rfl
@[simp] theorem clearResv_ctl (line : Nat) (s : State) : (clearResv line s).ctl = s.ctl := rfl
@[simp] theorem clearResv_free (line : Nat) (s : State) : (clearResv line s).free = s.free := rfl
@[simp] theorem clearResv_out (line : Nat) (s : State) : (clearResv line s).out = s.out := rfl
@[simp] theorem clearResv_evq (line : Nat) (s : State) : (clearResv line s).evq = s.evq := rfl

@[simp] theorem fillStaging_pending (n : Nat) (s : State) : (fillStaging n s).pending = s.pending := rfl
@[simp] theorem fillStaging_obj (n : Nat) (s : State) : (fillStaging n s).obj = s.obj := rfl
@[simp] theorem fillStaging_mem (n : Nat) (s : State) : (fillStaging n s).mem = s.mem := rfl
@[simp] theorem fillStaging_merr (n : Nat) (s : State) : (fillStaging n s).merr = s.merr := rfl
@[simp] theorem fillStaging_pwr (n : Nat) (s : State) : (fillStaging n s).pwr = s.pwr := rfl
@[simp] theorem fillStaging_tim (n : Nat) (s : State) : (fillStaging n s).tim = s.tim := rfl
@[simp] theorem fillStaging_fuses (n : Nat) (s : State) : (fillStaging n s).fuses = s.fuses := rfl
@[simp] theorem fillStaging_dict (n : Nat) (s : State) : (fillStaging n s).dict = s.dict := rfl
@[simp] theorem fillStaging_rings (n : Nat) (s : State) : (fillStaging n s).rings = s.rings := rfl
@[simp] theorem fillStaging_queues (n : Nat) (s : State) : (fillStaging n s).queues = s.queues := rfl
@[simp] theorem fillStaging_coh (n : Nat) (s : State) : (fillStaging n s).coh = s.coh := rfl
@[simp] theorem fillStaging_harts (n : Nat) (s : State) : (fillStaging n s).harts = s.harts := rfl
@[simp] theorem fillStaging_fab (n : Nat) (s : State) : (fillStaging n s).fab = s.fab := rfl
@[simp] theorem fillStaging_staging (n : Nat) (s : State) : (fillStaging n s).staging = s.staging := rfl
@[simp] theorem fillStaging_stageResults (n : Nat) (s : State) : (fillStaging n s).stageResults = s.stageResults := rfl
@[simp] theorem fillStaging_jobs (n : Nat) (s : State) : (fillStaging n s).jobs = s.jobs := rfl
@[simp] theorem fillStaging_hst (n : Nat) (s : State) : (fillStaging n s).hst = s.hst := rfl
@[simp] theorem fillStaging_ctl (n : Nat) (s : State) : (fillStaging n s).ctl = s.ctl := rfl
@[simp] theorem fillStaging_out (n : Nat) (s : State) : (fillStaging n s).out = s.out := rfl
@[simp] theorem fillStaging_evq (n : Nat) (s : State) : (fillStaging n s).evq = s.evq := rfl

@[simp] theorem fillVector_pending (n : Nat) (s : State) : (fillVector n s).pending = s.pending := rfl
@[simp] theorem fillVector_obj (n : Nat) (s : State) : (fillVector n s).obj = s.obj := rfl
@[simp] theorem fillVector_mem (n : Nat) (s : State) : (fillVector n s).mem = s.mem := rfl
@[simp] theorem fillVector_merr (n : Nat) (s : State) : (fillVector n s).merr = s.merr := rfl
@[simp] theorem fillVector_pwr (n : Nat) (s : State) : (fillVector n s).pwr = s.pwr := rfl
@[simp] theorem fillVector_tim (n : Nat) (s : State) : (fillVector n s).tim = s.tim := rfl
@[simp] theorem fillVector_fuses (n : Nat) (s : State) : (fillVector n s).fuses = s.fuses := rfl
@[simp] theorem fillVector_dict (n : Nat) (s : State) : (fillVector n s).dict = s.dict := rfl
@[simp] theorem fillVector_rings (n : Nat) (s : State) : (fillVector n s).rings = s.rings := rfl
@[simp] theorem fillVector_queues (n : Nat) (s : State) : (fillVector n s).queues = s.queues := rfl
@[simp] theorem fillVector_coh (n : Nat) (s : State) : (fillVector n s).coh = s.coh := rfl
@[simp] theorem fillVector_harts (n : Nat) (s : State) : (fillVector n s).harts = s.harts := rfl
@[simp] theorem fillVector_fab (n : Nat) (s : State) : (fillVector n s).fab = s.fab := rfl
@[simp] theorem fillVector_staging (n : Nat) (s : State) : (fillVector n s).staging = s.staging := rfl
@[simp] theorem fillVector_stageResults (n : Nat) (s : State) : (fillVector n s).stageResults = s.stageResults := rfl
@[simp] theorem fillVector_jobs (n : Nat) (s : State) : (fillVector n s).jobs = s.jobs := rfl
@[simp] theorem fillVector_hst (n : Nat) (s : State) : (fillVector n s).hst = s.hst := rfl
@[simp] theorem fillVector_ctl (n : Nat) (s : State) : (fillVector n s).ctl = s.ctl := rfl
@[simp] theorem fillVector_out (n : Nat) (s : State) : (fillVector n s).out = s.out := rfl
@[simp] theorem fillVector_evq (n : Nat) (s : State) : (fillVector n s).evq = s.evq := rfl

@[simp] theorem Hart.setCsr_pc (x : Hart) (n v : Nat) : (x.setCsr n v).pc = x.pc := rfl
@[simp] theorem Hart.setCsr_x (x : Hart) (n v : Nat) : (x.setCsr n v).x = x.x := rfl
@[simp] theorem Hart.setCsr_f (x : Hart) (n v : Nat) : (x.setCsr n v).f = x.f := rfl
@[simp] theorem Hart.setCsr_v (x : Hart) (n v : Nat) : (x.setCsr n v).v = x.v := rfl
@[simp] theorem Hart.setCsr_mode (x : Hart) (n v : Nat) : (x.setCsr n v).mode = x.mode := rfl
@[simp] theorem Hart.setCsr_virt (x : Hart) (n v : Nat) : (x.setCsr n v).virt = x.virt := rfl
@[simp] theorem Hart.setCsr_arg (x : Hart) (n v : Nat) : (x.setCsr n v).arg = x.arg := rfl
@[simp] theorem Hart.setCsr_mtimecmp (x : Hart) (n v : Nat) : (x.setCsr n v).mtimecmp = x.mtimecmp := rfl
@[simp] theorem Hart.setCsr_stimecmp (x : Hart) (n v : Nat) : (x.setCsr n v).stimecmp = x.stimecmp := rfl
@[simp] theorem Hart.setCsr_vstimecmp (x : Hart) (n v : Nat) : (x.setCsr n v).vstimecmp = x.vstimecmp := rfl
@[simp] theorem Hart.setCsr_timerM (x : Hart) (n v : Nat) : (x.setCsr n v).timerM = x.timerM := rfl
@[simp] theorem Hart.setCsr_timerS (x : Hart) (n v : Nat) : (x.setCsr n v).timerS = x.timerS := rfl
@[simp] theorem Hart.setCsr_timerVs (x : Hart) (n v : Nat) : (x.setCsr n v).timerVs = x.timerVs := rfl
@[simp] theorem Hart.setCsr_files (x : Hart) (n v : Nat) : (x.setCsr n v).files = x.files := rfl
@[simp] theorem Hart.setCsr_enabled (x : Hart) (n v : Nat) : (x.setCsr n v).enabled = x.enabled := rfl
@[simp] theorem Hart.setCsr_delivery (x : Hart) (n v : Nat) : (x.setCsr n v).delivery = x.delivery := rfl
@[simp] theorem Hart.setCsr_threshold (x : Hart) (n v : Nat) : (x.setCsr n v).threshold = x.threshold := rfl
@[simp] theorem Hart.setCsr_csr (x : Hart) (n v : Nat) : (x.setCsr n v).csr = tset 0 n v x.csr := rfl

end Sys2Proof.Machine
end

