-- ==== Sys2Proof/Laws/Ops.lean ====
section
/-!
SUPPORT. Laws/Ops.lean: what the shared operations of the machine do, said once: reading an object after a write, counters and
events, a command and a step, and where a write of an object goes.
-/

namespace Sys2Proof.Machine

/-! ### Objects -/

/-- The objects stay sorted under every write. -/
theorem sorted_setVal (s : State) (i j : Nat) (v : Val) (h : tsorted s.obj = true) : tsorted (s.setVal i j v).obj = true :=
  tsorted_tset _ _ _ _ h

theorem sorted_setNum (s : State) (i j n : Nat) (h : tsorted s.obj = true) : tsorted (s.setNum i j n).obj = true :=
  tsorted_tset _ _ _ _ h

theorem sorted_setOct (s : State) (i j : Nat) (l : List Byte) (h : tsorted s.obj = true) : tsorted (s.setOct i j l).obj = true :=
  tsorted_tset _ _ _ _ h

/-- An object reads what was last written to it. -/
theorem val_setVal_same (s : State) (i j : Nat) (v : Val) (h : tsorted s.obj = true) : (s.setVal i j v).val i j = v :=
  tget_tset_same _ _ _ _ h

/-- An object keeps its value when another is written. -/
theorem val_setVal_other (s : State) (i j i' j' : Nat) (v : Val) (h : tsorted s.obj = true) (hk : okey i' j' ≠ okey i j) :
    (s.setVal i j v).val i' j' = s.val i' j' := tget_tset_other _ _ _ _ _ _ h hk

theorem num_setNum_same (s : State) (i j n : Nat) (h : tsorted s.obj = true) : (s.setNum i j n).num i j = n := by
  have e := val_setVal_same s i j (.num n) h
  simp only [State.num, State.setNum, e]

theorem num_setNum_other (s : State) (i j i' j' n : Nat) (h : tsorted s.obj = true) (hk : okey i' j' ≠ okey i j) :
    (s.setNum i j n).num i' j' = s.num i' j' := by
  have e := val_setVal_other s i j i' j' (.num n) h hk
  simp only [State.num, State.setNum, e]

theorem oct_setNum_other (s : State) (i j i' j' n : Nat) (h : tsorted s.obj = true) (hk : okey i' j' ≠ okey i j) :
    (s.setNum i j n).oct i' j' = s.oct i' j' := by
  have e := val_setVal_other s i j i' j' (.num n) h hk
  simp only [State.oct, State.setNum, e]

theorem oct_setOct_same (s : State) (i j : Nat) (l : List Byte) (h : tsorted s.obj = true) : (s.setOct i j l).oct i j = l := by
  have e := val_setVal_same s i j (.bytes l) h
  simp only [State.oct, State.setOct, e]

theorem num_setOct_other (s : State) (i j i' j' : Nat) (l : List Byte) (h : tsorted s.obj = true) (hk : okey i' j' ≠ okey i j) :
    (s.setOct i j l).num i' j' = s.num i' j' := by
  have e := val_setVal_other s i j i' j' (.bytes l) h hk
  simp only [State.num, State.setOct, e]

/-- Objects of different index or subindex have different keys. -/
theorem okey_ne {i j i' j' : Nat} (hj : j < 256) (hj' : j' < 256) (h : i ≠ i' ∨ j ≠ j') : okey i j ≠ okey i' j' := by
  unfold okey; omega

/-! ### Counters -/

/-- All that a count can do: the counter goes on; or it takes its largest value, with its flag set already, or set now and the
overflow posted. -/
theorem count_cases (i j n : Nat) (s : State) :
    (s.num i j + n ≤ max64 ∧ count i j n s = s.setNum i j (s.num i j + n))
    ∨ (max64 < s.num i j + n ∧ (s.setNum i j max64).num (i + 0x400) j ≠ 0 ∧ count i j n s = s.setNum i j max64)
    ∨ (max64 < s.num i j + n ∧ (s.setNum i j max64).num (i + 0x400) j = 0
        ∧ count i j n s = post 0x5002 (src 0 0) 0x1F [(2, i), (1, j)] ((s.setNum i j max64).setNum (i + 0x400) j 1)) := by
  unfold count
  by_cases h : s.num i j + n ≤ max64
  · exact .inl ⟨h, if_pos h⟩
  · by_cases g : (s.setNum i j max64).num (i + 0x400) j = 0
    · exact .inr (.inr ⟨by omega, g, by simp [h, g]⟩)
    · exact .inr (.inl ⟨by omega, g, by simp [h, g]⟩)

/-- A count changes objects and posts events, and nothing else. -/
theorem count_frame (i j n : Nat) (s : State) :
    ∃ obj evq, count i j n s = { s with obj := obj, evq := evq } := by
  rcases count_cases i j n s with ⟨_, e⟩ | ⟨_, _, e⟩ | ⟨_, _, e⟩ <;> exact ⟨_, _, e⟩

@[simp] theorem count_pending (i j n : Nat) (s : State) : (count i j n s).pending = s.pending := by
  obtain ⟨_, _, e⟩ := count_frame i j n s; rw [e]
@[simp] theorem count_mem (i j n : Nat) (s : State) : (count i j n s).mem = s.mem := by
  obtain ⟨_, _, e⟩ := count_frame i j n s; rw [e]
@[simp] theorem count_merr (i j n : Nat) (s : State) : (count i j n s).merr = s.merr := by
  obtain ⟨_, _, e⟩ := count_frame i j n s; rw [e]
@[simp] theorem count_pwr (i j n : Nat) (s : State) : (count i j n s).pwr = s.pwr := by
  obtain ⟨_, _, e⟩ := count_frame i j n s; rw [e]
@[simp] theorem count_tim (i j n : Nat) (s : State) : (count i j n s).tim = s.tim := by
  obtain ⟨_, _, e⟩ := count_frame i j n s; rw [e]
@[simp] theorem count_dict (i j n : Nat) (s : State) : (count i j n s).dict = s.dict := by
  obtain ⟨_, _, e⟩ := count_frame i j n s; rw [e]
@[simp] theorem count_rings (i j n : Nat) (s : State) : (count i j n s).rings = s.rings := by
  obtain ⟨_, _, e⟩ := count_frame i j n s; rw [e]
@[simp] theorem count_dies (i j n : Nat) (s : State) : (count i j n s).dies = s.dies := by
  obtain ⟨_, _, e⟩ := count_frame i j n s; rw [e]
@[simp] theorem count_queues (i j n : Nat) (s : State) : (count i j n s).queues = s.queues := by
  obtain ⟨_, _, e⟩ := count_frame i j n s; rw [e]
@[simp] theorem count_coh (i j n : Nat) (s : State) : (count i j n s).coh = s.coh := by
  obtain ⟨_, _, e⟩ := count_frame i j n s; rw [e]
@[simp] theorem count_harts (i j n : Nat) (s : State) : (count i j n s).harts = s.harts := by
  obtain ⟨_, _, e⟩ := count_frame i j n s; rw [e]
@[simp] theorem count_fab (i j n : Nat) (s : State) : (count i j n s).fab = s.fab := by
  obtain ⟨_, _, e⟩ := count_frame i j n s; rw [e]
@[simp] theorem count_staging (i j n : Nat) (s : State) : (count i j n s).staging = s.staging := by
  obtain ⟨_, _, e⟩ := count_frame i j n s; rw [e]
@[simp] theorem count_jobs (i j n : Nat) (s : State) : (count i j n s).jobs = s.jobs := by
  obtain ⟨_, _, e⟩ := count_frame i j n s; rw [e]
@[simp] theorem count_hst (i j n : Nat) (s : State) : (count i j n s).hst = s.hst := by
  obtain ⟨_, _, e⟩ := count_frame i j n s; rw [e]
@[simp] theorem count_free (i j n : Nat) (s : State) : (count i j n s).free = s.free := by
  obtain ⟨_, _, e⟩ := count_frame i j n s; rw [e]
@[simp] theorem count_out (i j n : Nat) (s : State) : (count i j n s).out = s.out := by
  obtain ⟨_, _, e⟩ := count_frame i j n s; rw [e]

/-- Below its largest value a counter posts nothing. -/
theorem count_quiet (i j n : Nat) (s : State) (h : s.num i j + n ≤ max64) : count i j n s = s.setNum i j (s.num i j + n) := if_pos h

/-! ### Jobs, ports and links -/

theorem job_setJob_same (s : State) (j : Nat) (x : Job) (h : tsorted s.jobs = true) : (s.setJob j x).job j = x :=
  tget_tset_same _ _ _ _ h

theorem job_setJob_other (s : State) (j k : Nat) (x : Job) (h : tsorted s.jobs = true) (hk : k ≠ j) : (s.setJob j x).job k = s.job k :=
  tget_tset_other _ _ _ _ _ _ h hk

theorem port_setPort_same (s : State) (p : Nat) (x : Port) (h : tsorted s.fab.ports = true) : (s.setPort p x).port p = x :=
  tget_tset_same _ _ _ _ h

theorem port_setPort_other (s : State) (p q : Nat) (x : Port) (h : tsorted s.fab.ports = true) (hq : q ≠ p) :
    (s.setPort p x).port q = s.port q := tget_tset_other _ _ _ _ _ _ h hq

theorem hart_setHart_same (s : State) (k : Nat) (x : Hart) (h : tsorted s.harts = true) : (s.setHart k x).hart k = x :=
  tget_tset_same _ _ _ _ h

theorem queue_setQueue_same (s : State) (n q : Nat) (x : DQ) (h : tsorted s.queues = true) : (s.setQueue n q x).queue n q = x :=
  tget_tset_same _ _ _ _ h

theorem hlink_setHlink_same (s : State) (k : Nat) (x : HLink) (h : k < s.hst.links.length) : (s.setHlink k x).hlink k = x := by
  simp [State.setHlink, State.hlink, lget, lset, List.getD, h]

theorem die_setDie_same (s : State) (n : Nat) (x : Die) (h : n < s.dies.length) : (s.setDie n x).die n = x := by
  simp [State.setDie, State.die, lget, lset, List.getD, h]

/-! ### Commands and steps -/

/-- A command either names a unit that there is not, and stops, or does its work, with the events it posts offered to the rings. -/
theorem exec_shape (i : Instr) (s : State) : ∃ t, exec i s = forUnit (Instr.wf i) t := by
  cases i <;> exact ⟨_, rfl⟩

/-- A step on an empty queue. -/
theorem step_idle (s : State) (h : s.pending = []) : step s = .next (tick s) := by
  unfold step; rw [h]

/-! ### Where a write of an object goes -/

/-- A write of an object of a job. -/
theorem applyObj_job (j k sub v : Nat) (l : List Byte) (s : State) (hj : j < 16) (hk : k < 256) :
    applyObj (jobIx j k) sub v l s = applyJob j k sub v l s := by
  have h : jobIx j k = 0x4000 + 0x100 * j + k := rfl
  have e1 : jobIx j k / 256 - 0x40 = j := by omega
  have e2 : jobIx j k % 256 = k := by omega
  unfold applyObj
  rw [if_neg (by omega), if_neg (by omega), if_neg (by omega), if_neg (by omega), if_neg (by omega), if_pos (by omega), e1, e2]

/-- A write that is refused changes nothing. -/
theorem writeObj_refused (path i j type : Nat) (l : List Byte) (s : State) (h : (writeObj path i j type l s).1 ≠ stOk) :
    (writeObj path i j type l s).2 = s := by
  unfold writeObj at h ⊢
  by_cases e : writeStatus s path i j type l = stOk
  · rw [if_pos e] at h ⊢
    dsimp only at h ⊢
    by_cases g : (applyObj i j (leNat l) l (noteHold s)).1 = stOk
    · rw [if_pos g] at h; exact absurd g h
    · rw [if_neg g]
  · rw [if_neg e]

end Sys2Proof.Machine
end

