-- ==== Sys2Proof/Laws/Memory.lean ====
section
/-!
SUPPORT. Laws/Memory.lean: device memory and the other stores of bytes: a read after a write, every other byte as it was, and the
canonical form kept by every operation that stores.
-/

namespace Sys2Proof.Machine

/-! ### Bytes -/

/-- Stored bytes keep the canonical form. -/
theorem twf_putMem (m : List Host.Cell) (a : Nat) (l : List Byte) (h : twf (0 : Byte) m = true) : twf (0 : Byte) (putMem m a l) = true := by
  induction l generalizing m a with
  | nil => exact h
  | cons b r ih => exact ih _ _ (twf_tset 0 b a m h)

/-- A byte outside those stored reads as before. -/
theorem tget_putMem_other (m : List Host.Cell) (a b : Nat) (l : List Byte) (h : twf (0 : Byte) m = true) (hb : b < a ∨ a + l.length ≤ b) :
    tget (0 : Byte) b (putMem m a l) = tget 0 b m := by
  induction l generalizing m a with
  | nil => rfl
  | cons x r ih =>
    simp only [List.length_cons] at hb
    rw [putMem, ih _ _ (twf_tset 0 x a m h) (by omega), tget_tset_other 0 0 x a b m (tsorted_of_twf 0 m h) (by omega)]

/-- A byte stored reads as stored. -/
theorem tget_putMem_inside (m : List Host.Cell) (a k : Nat) (l : List Byte) (h : twf (0 : Byte) m = true) (hk : k < l.length) :
    tget (0 : Byte) (a + k) (putMem m a l) = l[k] := by
  induction l generalizing m a k with
  | nil => simp at hk
  | cons x r ih =>
    have hm := twf_tset 0 x a m h
    cases k with
    | zero =>
      rw [putMem, Nat.add_zero, tget_putMem_other _ _ _ _ hm (by omega), tget_tset_same 0 x a m (tsorted_of_twf 0 m h)]
      rfl
    | succ k =>
      have e : a + (k + 1) = a + 1 + k := by omega
      rw [putMem, e, ih _ _ _ hm (by simpa using hk)]
      rfl

/-- n bytes from an address, one by one. -/
theorem getBytes_eq (s : State) (a n : Nat) : getBytes s a n = (List.range n).map fun i => getByte s (a + i) := by
  induction n generalizing a with
  | zero => rfl
  | succ n ih =>
    rw [getBytes, ih, List.range_succ_eq_map, List.map_cons, List.map_map]
    congr 1
    apply List.map_congr_left
    intro i _
    simp only [Function.comp, Nat.succ_eq_add_one]
    congr 1; omega

@[simp] theorem getBytes_length (s : State) (a n : Nat) : (getBytes s a n).length = n := by simp [getBytes_eq]

theorem getByte_putBytes_other (s : State) (a b : Nat) (l : List Byte) (h : Memory.wf s.mem = true) (hb : b < a ∨ a + l.length ≤ b) :
    getByte (putBytes s a l) b = getByte s b := tget_putMem_other _ _ _ _ h hb

theorem getByte_putBytes_inside (s : State) (a k : Nat) (l : List Byte) (h : Memory.wf s.mem = true) (hk : k < l.length) :
    getByte (putBytes s a l) (a + k) = l[k] := tget_putMem_inside _ _ _ _ h hk

/-- The bytes just stored are read back. -/
theorem getBytes_putBytes (s : State) (a : Nat) (l : List Byte) (h : Memory.wf s.mem = true) : getBytes (putBytes s a l) a l.length = l := by
  rw [getBytes_eq]
  apply List.ext_getElem (by simp)
  intro i h1 h2
  simp only [List.getElem_map, List.getElem_range]
  exact getByte_putBytes_inside s a i l h h2

/-! ### Reads and writes of lines -/

/-- What a read finds changes no byte. -/
@[simp] theorem readUnit_mem (b : Bool) (u : Nat) (s : State) : (readUnit b u s).mem = s.mem := by
  unfold readUnit
  split
  · rfl
  · dsimp only
    split
    · rfl
    · split <;> (try rfl) <;> simp only [dramCe, dramUe, canopyUe, post_mem, count_mem, setPoison_mem, clearLatent_mem, State.setNum_mem]
      split <;> simp [post_mem]

@[simp] theorem readUnits_mem (b : Bool) (l : List Nat) (s : State) : (readUnits b l s).mem = s.mem := by
  unfold readUnits
  induction l generalizing s with
  | nil => rfl
  | cons u r ih => rw [List.foldl_cons, ih, readUnit_mem]

/-- A read of a line changes no byte. -/
@[simp] theorem memReadLine_mem (line : Nat) (s : State) : (memReadLine line s).2.mem = s.mem := readUnits_mem _ _ _

@[simp] theorem writeUnit_mem (line mask whole u : Nat) (s : State) : (writeUnit line mask whole u s).mem = s.mem := by
  unfold writeUnit
  split
  · rfl
  · split <;> simp

theorem writeUnits_mem (line mask whole : Nat) (l : List Nat) (s : State) :
    (l.foldl (fun s u => writeUnit line mask whole u s) s).mem = s.mem := by
  induction l generalizing s with
  | nil => rfl
  | cons u r ih => rw [List.foldl_cons, ih, writeUnit_mem]

/-- A write of a line stores the bytes of its mask, and no other. -/
theorem memMergeLine_mem (line mask whole : Nat) (data : List Byte) (s : State) :
    (memMergeLine line mask whole data s).mem = putMem s.mem line (mergeMask mask (getBytes s line 64) data) := by
  have h := writeUnits_mem line mask whole (poisonUnits s line) s
  have g : ∀ t : State, t.mem = s.mem → getBytes t line 64 = getBytes s line 64 := by
    intro t e; simp only [getBytes_eq, getByte, e]
  unfold memMergeLine
  dsimp only
  split
  · split
    · simp only [putBytes_mem, h, g _ h]
    · simp only [putBytes_mem, count_mem, h]; rw [g _ ((count_mem _ _ _ _).trans h)]
  · simp only [putBytes_mem, h, g _ h]

theorem memWriteLine_mem (line mask : Nat) (data : List Byte) (s : State) :
    (memWriteLine line mask data s).mem = putMem s.mem line (mergeMask mask (getBytes s line 64) data) :=
  memMergeLine_mem line mask mask data s

/-! ### The canonical form -/

theorem reset_mem_wf : Memory.wf State.reset.mem = true := rfl

theorem putBytes_wf (s : State) (a : Nat) (l : List Byte) (h : Memory.wf s.mem = true) : Memory.wf (putBytes s a l).mem = true :=
  twf_putMem _ _ _ h

theorem memMergeLine_wf (line mask whole : Nat) (data : List Byte) (s : State) (h : Memory.wf s.mem = true) :
    Memory.wf (memMergeLine line mask whole data s).mem = true := by
  rw [memMergeLine_mem]; exact twf_putMem _ _ _ h

theorem memWriteLine_wf (line mask : Nat) (data : List Byte) (s : State) (h : Memory.wf s.mem = true) :
    Memory.wf (memWriteLine line mask data s).mem = true := by
  rw [memWriteLine_mem]; exact twf_putMem _ _ _ h

/-- Free values in a line (R210, R436) are a store of 64 bytes. -/
theorem scramble_mem (u : Nat) (s : State) : (scramble u s).mem = putMem s.mem u (freeLine s) := by
  unfold scramble; generalize freeLine s = l; rfl

theorem scramble_wf (u : Nat) (s : State) (h : Memory.wf s.mem = true) : Memory.wf (scramble u s).mem = true := by
  rw [scramble_mem]; exact twf_putMem _ _ _ h

/-- Free values in a line change no other byte. -/
theorem getByte_scramble_other (u b : Nat) (s : State) (h : Memory.wf s.mem = true) (hb : b < u ∨ u + 64 ≤ b) :
    getByte (scramble u s) b = getByte s b := by
  unfold getByte
  rw [scramble_mem]
  exact tget_putMem_other s.mem u b (freeLine s) h (by unfold freeLine; rwa [List.length_map, List.length_range])

@[simp] theorem putLatent_mem (u : Nat) (k : ErrKind) (s : State) : (putLatent u k s).mem = s.mem := rfl

@[simp] theorem putSpots_mem (u : Nat) (l : List Nat) (s : State) : (putSpots u l s).mem = s.mem := rfl

/-- Free poison bits change no byte of memory. -/
@[simp] theorem freePoison_mem (u : Nat) (l : List Nat) (s : State) : (freePoison u l s).mem = s.mem := by
  have fold : ∀ (f : State → Nat → State), (∀ t i, (f t i).mem = t.mem) → ∀ (l : List Nat) t, (l.foldl f t).mem = t.mem := by
    intro f hf l
    induction l with
    | nil => exact fun _ => rfl
    | cons i r ih => intro t; rw [List.foldl_cons, ih, hf]
  unfold freePoison
  split
  · apply fold; intros; rfl
  · rfl

/-- What errors past the code do to a line leaves memory as it was, or free values in that line (R210). -/
theorem spoilCode_cases (u : Nat) (l : List Nat) (b : Bool) (s : State) :
    (spoilCode u l b s).mem = s.mem ∨ (spoilCode u l b s).mem = (scramble u s).mem := by
  unfold spoilCode
  split <;> split <;> simp only [freePoison_mem, true_or, or_true]

/-- An error of a line leaves memory as it was, or free values in that line (R210). -/
theorem strikeBytes_cases (u : Nat) (l : List Nat) (g : Sight) (s : State) :
    (strikeBytes u l g s).mem = s.mem ∨ (strikeBytes u l g s).mem = (scramble u s).mem := by
  unfold strikeBytes; dsimp only
  split
  · exact .inl rfl
  · split
    · exact .inl rfl
    · cases g
      · exact .inl rfl
      · have h := spoilCode_cases u (tget [] u s.merr.spots ++ l.filter (· < 72)).dedup true s
        simpa only [putLatent_mem, putSpots_mem] using h
      · have h := spoilCode_cases u (tget [] u s.merr.spots ++ l.filter (· < 72)).dedup false s
        simpa only [putSpots_mem] using h

theorem strikeBytes_wf (u : Nat) (l : List Nat) (g : Sight) (s : State) (h : Memory.wf s.mem = true) :
    Memory.wf (strikeBytes u l g s).mem = true := by
  rcases strikeBytes_cases u l g s with e | e <;> rw [e]
  · exact h
  · exact scramble_wf u s h

theorem forgetGroup_wf (n : Nat) (s : State) (h : Memory.wf s.mem = true) : Memory.wf (forgetGroup n s).mem = true := by
  unfold forgetGroup Memory.wf; dsimp only; exact twf_tkeep 0 _ s.mem h

theorem forgetCanopy_wf (n : Nat) (s : State) (h : Memory.wf s.mem = true) : Memory.wf (forgetCanopy n s).mem = true := by
  unfold forgetCanopy Memory.wf; dsimp only; exact twf_tkeep 0 _ s.mem h

/-- Bytes moved to other addresses. -/
theorem twf_moved (f : Nat → Nat) (l m : List Host.Cell) (h : twf (0 : Byte) m = true) :
    twf (0 : Byte) (l.foldl (fun m e => tset 0 (f e.1) e.2 m) m) = true := by
  induction l generalizing m with
  | nil => exact h
  | cons e r ih => exact ih _ (twf_tset 0 e.2 (f e.1) m h)

theorem setShare_wf (g : Nat) (s : State) : Memory.wf (setShare g s).mem = true := twf_moved _ s.mem [] rfl

/-- Bytes of host memory that a completion delivers. -/
theorem hostDeliver_wf (a : Nat) (l : List Byte) (s : State) (h : Memory.wf s.hst.mem = true) : Memory.wf (hostDeliver a l s).hst.mem = true :=
  twf_putMem _ _ _ h

end Sys2Proof.Machine
end

