-- ==== Sys2Proof/Laws/PerInstr.lean ====
section
/-!
SUPPORT. Laws/PerInstr.lean: one family of facts over the commands as syntax, one lemma for each constructor. The opcode table gives its rows
no bits (log entry 13), so no word spells a command.
-/

namespace Sys2Proof.Laws.Unspelled

/-- No word of any length is decoded to the command. -/
def Statement (i : Instr) : Prop := ∀ nbits w, decodeTableWord nbits w ≠ some i

/-- The decoder reads no command from a word. -/
theorem no_word (i : Instr) : Statement i := fun _ _ h => nomatch h

theorem powerUp (b : Board) : Statement (.powerUp b) := no_word _
theorem restIntervalExpiry (b : Board) : Statement (.restIntervalExpiry b) := no_word _
theorem enDeassert : Statement (.enDeassert) := no_word _
theorem powerFault (cause : Nat) (source : Nat) : Statement (.powerFault cause source) := no_word _
theorem timeReferenceStart (timeref : Bool) (refclk : Bool) : Statement (.timeReferenceStart timeref refclk) := no_word _
theorem settingsHoldExpiry : Statement (.settingsHoldExpiry) := no_word _
theorem domainRamp (domains : List Nat) : Statement (.domainRamp domains) := no_word _
theorem domainRampTimeout (domain : Nat) : Statement (.domainRampTimeout domain) := no_word _
theorem dieSelftestPowerup (unit : Unit3) (pass : Bool) : Statement (.dieSelftestPowerup unit pass) := no_word _
theorem memChannelTrainingDone (group : Nat) (failed : Option (Nat × Nat)) : Statement (.memChannelTrainingDone group failed) := no_word _
theorem memInitialisationDone (group : Nat) : Statement (.memInitialisationDone group) := no_word _
theorem coreImageLoad : Statement (.coreImageLoad) := no_word _
theorem secReady (rq : Request) (value : List Byte) : Statement (.secReady rq value) := no_word _
theorem configRequest (access : ConfigAccess) : Statement (.configRequest access) := no_word _
theorem read (rq : Request) (index : Nat) (sub : Nat) : Statement (.read rq index sub) := no_word _
theorem write (rq : Request) (index : Nat) (sub : Nat) (type : Nat) (value : List Byte) : Statement (.write rq index sub type value) := no_word _
theorem readMulti (rq : Request) (items : List (Nat × Nat)) : Statement (.readMulti rq items) := no_word _
theorem writeMulti (rq : Request) (items : List WriteItem) : Statement (.writeMulti rq items) := no_word _
theorem describe (rq : Request) (index : Nat) (sub : Nat) : Statement (.describe rq index sub) := no_word _
theorem domRead (rq : Request) (index : Nat) (sub : Nat) (offset : Nat) (length : Nat) : Statement (.domRead rq index sub offset length) := no_word _
theorem domWrite (rq : Request) (index : Nat) (sub : Nat) (offset : Nat) (bytes : List Byte) : Statement (.domWrite rq index sub offset bytes) := no_word _
theorem spdm (port : Nat) (msg : SpdmFrame) : Statement (.spdm port msg) := no_word _
theorem ident (port : Nat) (frame : CamipFrame) : Statement (.ident port frame) := no_word _
theorem camipSessionIdleTimeout (slot : Nat) : Statement (.camipSessionIdleTimeout slot) := no_word _
theorem camipSessionClose (rq : Request) (slot : Nat) (value : List Byte) : Statement (.camipSessionClose rq slot value) := no_word _
theorem camipEnable (rq : Request) (port : Nat) (value : List Byte) : Statement (.camipEnable rq port value) := no_word _
theorem camipNodeId (rq : Request) (port : Nat) (value : List Byte) : Statement (.camipNodeId rq port value) := no_word _
theorem plcaBeaconLost (port : Nat) : Statement (.plcaBeaconLost port) := no_word _
theorem notifyRepeat (ring : Nat) : Statement (.notifyRepeat ring) := no_word _
theorem mailboxCmd (core : Bool) (chan : Nat) (link : Nat) (word : Nat) : Statement (.mailboxCmd core chan link word) := no_word _
theorem dictReplayDone (rq : Request) (value : List Byte) : Statement (.dictReplayDone rq value) := no_word _
theorem dictHoldMs (rq : Request) (value : List Byte) : Statement (.dictHoldMs rq value) := no_word _
theorem dictPathWrite (rq : Request) (value : List Byte) : Statement (.dictPathWrite rq value) := no_word _
theorem memInitStart (rq : Request) (value : List Byte) : Statement (.memInitStart rq value) := no_word _
theorem secKeyRevoke (rq : Request) (value : List Byte) : Statement (.secKeyRevoke rq value) := no_word _
theorem secSvnCommit (rq : Request) (value : List Byte) : Statement (.secSvnCommit rq value) := no_word _
theorem srvTimeReselect (rq : Request) (value : List Byte) : Statement (.srvTimeReselect rq value) := no_word _
theorem timerefLoss : Statement (.timerefLoss) := no_word _
theorem referenceLoss : Statement (.referenceLoss) := no_word _
theorem tnsDieEnable (rq : Request) (value : List Byte) : Statement (.tnsDieEnable rq value) := no_word _
theorem tnsQuadEnable (rq : Request) (die : Nat) (value : List Byte) : Statement (.tnsQuadEnable rq die value) := no_word _
theorem tnsCanopyEnable (rq : Request) (die : Nat) (value : List Byte) : Statement (.tnsCanopyEnable rq die value) := no_word _
theorem srvClusterEnable (rq : Request) (hd : Nat) (value : List Byte) : Statement (.srvClusterEnable rq hd value) := no_word _
theorem pwrMemgrpEnable (rq : Request) (value : List Byte) : Statement (.pwrMemgrpEnable rq value) := no_word _
theorem pwrLdEnable (rq : Request) (value : List Byte) : Statement (.pwrLdEnable rq value) := no_word _
theorem domainSwitchOff (domain : Nat) : Statement (.domainSwitchOff domain) := no_word _
theorem domainRegulatorFail (domain : Nat) (arrayRail : Bool) : Statement (.domainRegulatorFail domain arrayRail) := no_word _
theorem cappingSample (sample : PowerSample) : Statement (.cappingSample sample) := no_word _
theorem pwrInputWPeak (rq : Request) (value : List Byte) : Statement (.pwrInputWPeak rq value) := no_word _
theorem lpddrRefresh (group : Nat) : Statement (.lpddrRefresh group) := no_word _
theorem mr4Read (group : Nat) (rates : List Nat) (hot : List Bool) : Statement (.mr4Read group rates hot) := no_word _
theorem memScrubVisit (addr : Nat) (found : Option ErrKind) (strikes : List Strike) : Statement (.memScrubVisit addr found strikes) := no_word _
theorem canopyScrubVisit (addr : Nat) (found : Option ErrKind) : Statement (.canopyScrubVisit addr found) := no_word _
theorem memGroupFail (group : Nat) (channel : Option (Nat × Nat)) : Statement (.memGroupFail group channel) := no_word _
theorem hsRateMeasure (rates : List Nat) : Statement (.hsRateMeasure rates) := no_word _
theorem tnsSelftestStart (rq : Request) (value : List Byte) : Statement (.tnsSelftestStart rq value) := no_word _
theorem selftestDone (die : Nat) (failing : List Nat) : Statement (.selftestDone die failing) := no_word _
theorem tnsDoorbell (die : Nat) (queue : Nat) (value : Nat) : Statement (.tnsDoorbell die queue value) := no_word _
theorem controlRegisterWrite (source : StoreBy) (addr : Nat) (width : Nat) (value : Nat) : Statement (.controlRegisterWrite source addr width value) := no_word _
theorem tnsDqCtrlEnable (rq : Request) (die : Nat) (queue : Nat) (value : List Byte) : Statement (.tnsDqCtrlEnable rq die queue value) := no_word _
theorem tnsDqReset (rq : Request) (value : List Byte) : Statement (.tnsDqReset rq value) := no_word _
theorem dqResetDone (die : Nat) (queue : Nat) : Statement (.dqResetDone die queue) := no_word _
theorem descriptorTake (die : Nat) : Statement (.descriptorTake die) := no_word _
theorem splitNotice (root : Nat) (isn : Nat) (die : Nat) : Statement (.splitNotice root isn die) := no_word _
theorem operationStart (die : Nat) (isn : Nat) : Statement (.operationStart die isn) := no_word _
theorem nop (die : Nat) (isn : Nat) : Statement (.nop die isn) := no_word _
theorem mma (die : Nat) (isn : Nat) : Statement (.mma die isn) := no_word _
theorem mmaDrain (die : Nat) (isn : Nat) : Statement (.mmaDrain die isn) := no_word _
theorem drain (die : Nat) (isn : Nat) : Statement (.drain die isn) := no_word _
theorem tileRestore (die : Nat) (isn : Nat) : Statement (.tileRestore die isn) := no_word _
theorem vecMap (die : Nat) (isn : Nat) : Statement (.vecMap die isn) := no_word _
theorem vecReduce (die : Nat) (isn : Nat) : Statement (.vecReduce die isn) := no_word _
theorem stashBegin (die : Nat) (isn : Nat) : Statement (.stashBegin die isn) := no_word _
theorem stashPut (die : Nat) (isn : Nat) : Statement (.stashPut die isn) := no_word _
theorem regrowPut (die : Nat) (isn : Nat) : Statement (.regrowPut die isn) := no_word _
theorem stashFree (die : Nat) (isn : Nat) : Statement (.stashFree die isn) := no_word _
theorem operationComplete (die : Nat) (isn : Nat) : Statement (.operationComplete die isn) := no_word _
theorem tnsSlotBindBound (rq : Request) (slot : Nat) (value : List Byte) : Statement (.tnsSlotBindBound rq slot value) := no_word _
theorem tnsSlotBindRelease (rq : Request) (slot : Nat) (value : List Byte) : Statement (.tnsSlotBindRelease rq slot value) := no_word _
theorem slotReleaseDone (slot : Nat) : Statement (.slotReleaseDone slot) := no_word _
theorem tnsStashPoolPeak (rq : Request) (die : Nat) (job : Nat) (value : List Byte) : Statement (.tnsStashPoolPeak rq die job value) := no_word _
theorem rdShare (agent : Agent) (line : Nat) : Statement (.rdShare agent line) := no_word _
theorem rdUnique (agent : Agent) (line : Nat) : Statement (.rdUnique agent line) := no_word _
theorem promote (agent : Agent) (line : Nat) : Statement (.promote agent line) := no_word _
theorem rdPeek (agent : Agent) (line : Nat) : Statement (.rdPeek agent line) := no_word _
theorem rdPeekWatch (agent : Agent) (line : Nat) : Statement (.rdPeekWatch agent line) := no_word _
theorem wrFull (agent : Agent) (line : Nat) (data : List Byte) : Statement (.wrFull agent line data) := no_word _
theorem wrHint (agent : Agent) (line : Nat) (data : List Byte) (targetOk : Bool) : Statement (.wrHint agent line data targetOk) := no_word _
theorem wrMasked (agent : Agent) (line : Nat) (mask : Nat) (data : List Byte) : Statement (.wrMasked agent line mask data) := no_word _
theorem atomicHome (agent : Agent) (hart : Nat) (addr : Nat) (width : Nat) (op : AtomicOp) (operand : Nat) : Statement (.atomicHome agent hart addr width op operand) := no_word _
theorem snpShare (agent : Agent) (line : Nat) : Statement (.snpShare agent line) := no_word _
theorem snpUnique (agent : Agent) (line : Nat) : Statement (.snpUnique agent line) := no_word _
theorem snpKill (agent : Agent) (line : Nat) : Statement (.snpKill agent line) := no_word _
theorem snpPeek (agent : Agent) (line : Nat) : Statement (.snpPeek agent line) := no_word _
theorem watchNotice (die : Nat) (line : Nat) : Statement (.watchNotice die line) := no_word _
theorem rspNone (agent : Agent) (line : Nat) : Statement (.rspNone agent line) := no_word _
theorem rspSentKeep (agent : Agent) (line : Nat) : Statement (.rspSentKeep agent line) := no_word _
theorem rspSentGone (agent : Agent) (line : Nat) : Statement (.rspSentGone agent line) := no_word _
theorem wbInFlight (agent : Agent) (line : Nat) : Statement (.wbInFlight agent line) := no_word _
theorem dat (agent : Agent) (line : Nat) : Statement (.dat agent line) := no_word _
theorem evDirty (agent : Agent) (line : Nat) : Statement (.evDirty agent line) := no_word _
theorem evClean (agent : Agent) (line : Nat) : Statement (.evClean agent line) := no_word _
theorem ackGrant (agent : Agent) (line : Nat) : Statement (.ackGrant agent line) := no_word _
theorem ackEv (agent : Agent) (line : Nat) : Statement (.ackEv agent line) := no_word _
theorem ackWr (agent : Agent) (line : Nat) : Statement (.ackWr agent line) := no_word _
theorem cacheEviction (agent : Agent) (line : Nat) : Statement (.cacheEviction agent line) := no_word _
theorem agentLost (agent : Agent) : Statement (.agentLost agent) := no_word _
theorem cohHomeEnableSet (rq : Request) (value : List Byte) : Statement (.cohHomeEnableSet rq value) := no_word _
theorem cohHomeEnableClear (rq : Request) (value : List Byte) : Statement (.cohHomeEnableClear rq value) := no_word _
theorem amo (hart : Nat) (addr : Nat) (width : Nat) (op : AtomicOp) (operand : Nat) : Statement (.amo hart addr width op operand) := no_word _
theorem lr (hart : Nat) (addr : Nat) (width : Nat) : Statement (.lr hart addr width) := no_word _
theorem sc (hart : Nat) (addr : Nat) (width : Nat) (value : Nat) : Statement (.sc hart addr width value) := no_word _
theorem streamingStore (hart : Nat) (addr : Nat) (data : List Byte) : Statement (.streamingStore hart addr data) := no_word _
theorem cboClean (hart : Nat) (addr : Nat) : Statement (.cboClean hart addr) := no_word _
theorem cboFlush (hart : Nat) (addr : Nat) : Statement (.cboFlush hart addr) := no_word _
theorem cboInval (hart : Nat) (addr : Nat) : Statement (.cboInval hart addr) := no_word _
theorem hartStartPc (hart : Nat) (pc : Nat) : Statement (.hartStartPc hart pc) := no_word _
theorem coreCacheUe (hd : Nat) (error : CacheError) (hart : Nat) (addr : Nat) : Statement (.coreCacheUe hd error hart addr) := no_word _
theorem fabPortEnable (rq : Request) (value : List Byte) : Statement (.fabPortEnable rq value) := no_word _
theorem cmisRead (port : Nat) (result : CmisResult) : Statement (.cmisRead port result) := no_word _
theorem portLaneTrainingDone (port : Nat) : Statement (.portLaneTrainingDone port) := no_word _
theorem portTrainTimeout (port : Nat) : Statement (.portTrainTimeout port) := no_word _
theorem portRetryTimer (port : Nat) : Statement (.portRetryTimer port) := no_word _
theorem fabPortExpect (rq : Request) (port : Nat) (portNumber : Bool) (value : List Byte) : Statement (.fabPortExpect rq port portNumber value) := no_word _
theorem laneFailure (port : Nat) : Statement (.laneFailure port) := no_word _
theorem linkUnitReceive (port : Nat) (unit : LinkUnit) : Statement (.linkUnitReceive port unit) := no_word _
theorem nak (port : Nat) (ackSeq : Nat) : Statement (.nak port ackSeq) := no_word _
theorem replayTimeout (port : Nat) : Statement (.replayTimeout port) := no_word _
theorem frameRoute (port : Option Nat) (vl : Nat) : Statement (.frameRoute port vl) := no_word _
theorem data (port : Option Nat) : Statement (.data port) := no_word _
theorem rdReq (port : Option Nat) : Statement (.rdReq port) := no_word _
theorem rdRsp (port : Option Nat) : Statement (.rdRsp port) := no_word _
theorem wrReq (port : Option Nat) : Statement (.wrReq port) := no_word _
theorem wrPart (port : Option Nat) : Statement (.wrPart port) := no_word _
theorem wrAck (port : Option Nat) : Statement (.wrAck port) := no_word _
theorem ctrl (port : Option Nat) : Statement (.ctrl port) := no_word _
theorem fellNotice (port : Option Nat) : Statement (.fellNotice port) := no_word _
theorem identExchange (port : Nat) : Statement (.identExchange port) := no_word _
theorem ringRecordWrite (port : Option Nat) : Statement (.ringRecordWrite port) := no_word _
theorem remoteTimeout (tag : Nat) : Statement (.remoteTimeout tag) := no_word _
theorem vlStall (port : Nat) (vl : Nat) : Statement (.vlStall port vl) := no_word _
theorem sendDoorbell (job : Nat) (value : Nat) : Statement (.sendDoorbell job value) := no_word _
theorem sendDescriptor (job : Nat) : Statement (.sendDescriptor job) := no_word _
theorem colDoorbell (job : Nat) (value : Nat) : Statement (.colDoorbell job value) := no_word _
theorem colDescriptorTake (job : Nat) : Statement (.colDescriptorTake job) := no_word _
theorem colNop (job : Nat) (path : Nat) : Statement (.colNop job path) := no_word _
theorem reduce (job : Nat) (path : Nat) : Statement (.reduce job path) := no_word _
theorem reduceHop (job : Nat) (path : Nat) : Statement (.reduceHop job path) := no_word _
theorem broadcast (job : Nat) (path : Nat) : Statement (.broadcast job path) := no_word _
theorem prism (job : Nat) (path : Nat) : Statement (.prism job path) := no_word _
theorem collectiveComplete (job : Nat) (path : Nat) : Statement (.collectiveComplete job path) := no_word _
theorem luDoorbell (job : Nat) (value : Nat) : Statement (.luDoorbell job value) := no_word _
theorem luNop (job : Nat) : Statement (.luNop job) := no_word _
theorem ortho (job : Nat) : Statement (.ortho job) := no_word _
theorem norm (job : Nat) : Statement (.norm job) := no_word _
theorem update (job : Nat) : Statement (.update job) := no_word _
theorem stemRecord (job : Nat) (turn : StemTurn) : Statement (.stemRecord job turn) := no_word _
theorem stragglerRelease (job : Nat) (turn : ReleaseTurn) : Statement (.stragglerRelease job turn) := no_word _
theorem memberList (job : Nat) (list : List Byte) (step : Nat) : Statement (.memberList job list step) := no_word _
theorem normReport (job : Nat) (payload : List Byte) : Statement (.normReport job payload) := no_word _
theorem clipRecord (job : Nat) (payload : List Byte) (step : Nat) (clipAddr : Nat) : Statement (.clipRecord job payload step clipAddr) := no_word _
theorem heartbeat (job : Nat) (payload : List Byte) : Statement (.heartbeat job payload) := no_word _
theorem faultReport (job : Nat) (payload : List Byte) : Statement (.faultReport job payload) := no_word _
theorem epochPlan (job : Nat) (plan : PlanMessage) : Statement (.epochPlan job plan) := no_word _
theorem ready (job : Nat) (payload : List Byte) : Statement (.ready job payload) := no_word _
theorem start (job : Nat) (payload : List Byte) : Statement (.start job payload) := no_word _
theorem prismPlan (job : Nat) (payload : List Byte) (planAddr : Nat) (targetAddr : Nat) (targets : List Byte) (path : Nat) : Statement (.prismPlan job payload planAddr targetAddr targets path) := no_word _
theorem switch (job : Nat) (payload : List Byte) : Statement (.switch job payload) := no_word _
theorem partDone (job : Nat) (part : PartMessage) : Statement (.partDone job part) := no_word _
theorem ckptDone (job : Nat) (payload : List Byte) : Statement (.ckptDone job payload) := no_word _
theorem snagReport (job : Nat) (payload : List Byte) : Statement (.snagReport job payload) := no_word _
theorem jobCtrlStart (rq : Request) (job : Nat) : Statement (.jobCtrlStart rq job) := no_word _
theorem jobCtrlStop (rq : Request) (job : Nat) : Statement (.jobCtrlStop rq job) := no_word _
theorem jobCtrlSpare (rq : Request) (job : Nat) : Statement (.jobCtrlSpare rq job) := no_word _
theorem jobKick (rq : Request) (job : Nat) (value : List Byte) : Statement (.jobKick rq job value) := no_word _
theorem jobSwitch (rq : Request) (job : Nat) (value : List Byte) : Statement (.jobSwitch rq job value) := no_word _
theorem watchdogExpiry (job : Nat) : Statement (.watchdogExpiry job) := no_word _
theorem heartbeatTimer (job : Nat) : Statement (.heartbeatTimer job) := no_word _
theorem deadTimeout (job : Nat) (device : Nat) : Statement (.deadTimeout job device) := no_word _
theorem restartTimeout (job : Nat) : Statement (.restartTimeout job) := no_word _
theorem journalReplay (turn : ReplayTurn) : Statement (.journalReplay turn) := no_word _
theorem requestAccept (job : Nat) (payload : List Byte) (source layers positions : Nat) (form : KvForm) (table : Nat) :
    Statement (.requestAccept job payload source layers positions form table) := no_word _
theorem resultDelivery (turn : ResultTurn) : Statement (.resultDelivery turn) := no_word _
theorem attach (link : Nat) (value : Nat) : Statement (.attach link value) := no_word _
theorem detach (link : Nat) : Statement (.detach link) := no_word _
theorem pcieLinkUp (link : Nat) (speed : Nat) (width : Nat) : Statement (.pcieLinkUp link speed width) := no_word _
theorem pcieLinkDown (link : Nat) : Statement (.pcieLinkDown link) := no_word _
theorem pcieReset (link : Nat) (kind : PcieResetKind) : Statement (.pcieReset link kind) := no_word _
theorem busMasterDisable (link : Nat) : Statement (.busMasterDisable link) := no_word _
theorem inboundRead (link : Nat) (place : BarPlace) (length : Nat) : Statement (.inboundRead link place length) := no_word _
theorem inboundWrite (link : Nat) (offset : Nat) (data : List Byte) (poisoned : Bool) : Statement (.inboundWrite link offset data poisoned) := no_word _
theorem inboundAtomicop (link : Nat) (offset : Nat) (width : Nat) (op : AtomicOp) (operand : Nat) : Statement (.inboundAtomicop link offset width op operand) := no_word _
theorem setShared (link : Nat) (word : Nat) : Statement (.setShared link word) := no_word _
theorem setDevice (link : Nat) (word : Nat) : Statement (.setDevice link word) := no_word _
theorem flush (link : Nat) (word : Nat) : Statement (.flush link word) := no_word _
theorem ack (job : Nat) (value : Nat) : Statement (.ack job value) := no_word _
theorem outboundReadCompletion (id : Nat) (outcome : CplOutcome) : Statement (.outboundReadCompletion id outcome) := no_word _
theorem hostCplTimeout (id : Nat) : Statement (.hostCplTimeout id) := no_word _
theorem eventPost (hart : Nat) (word : Nat) : Statement (.eventPost hart word) := no_word _
theorem evtRingCons (ring : Nat) (value : Nat) : Statement (.evtRingCons ring value) := no_word _
theorem evtRingDone (ring : Nat) : Statement (.evtRingDone ring) := no_word _
theorem evtRingEnable (rq : Request) (ring : Nat) (value : List Byte) : Statement (.evtRingEnable rq ring value) := no_word _
theorem evtGlobalEnable (rq : Request) (value : List Byte) : Statement (.evtGlobalEnable rq value) := no_word _
theorem evtRingTarget (rq : Request) (ring : Nat) (value : List Byte) : Statement (.evtRingTarget rq ring value) := no_word _
theorem timerInterrupt (hart : Nat) (level : TimerLevel) : Statement (.timerInterrupt hart level) := no_word _
theorem hartStop (hart : Nat) : Statement (.hartStop hart) := no_word _
theorem timeReferenceReturn (timeref : Bool) : Statement (.timeReferenceReturn timeref) := no_word _
theorem plcaStatusTrue (port : Nat) : Statement (.plcaStatusTrue port) := no_word _
theorem vinCrosses20v (rising : Bool) : Statement (.vinCrosses20v rising) := no_word _
theorem pwrRailTargetMv (rq : Request) (die : Nat) (value : List Byte) : Statement (.pwrRailTargetMv rq die value) := no_word _
theorem domainRampDone (domain : Nat) : Statement (.domainRampDone domain) := no_word _
theorem landingOperationComplete (job : Nat) : Statement (.landingOperationComplete job) := no_word _

end Sys2Proof.Laws.Unspelled
end

