-- ==== Sys2Proof/Tests/Slice0.lean ====
section
/-!
SUPPORT. Tests/Slice0.lean: the model's own tests. First the checks of a command's operands, each with a term it refuses; then, for every
statement of Certificates/Slice0/Obligations.lean that has hypotheses, states and operands that meet those of each of its clauses; then
small tests of single steps whose expected results come from the spec's rules, tables and worked examples.
-/

open Sys2Proof Sys2Proof.Machine

namespace Sys2Proof.Tests

set_option maxRecDepth 20000

/-! ### Small states -/

/-- Objects written one after the other: index, subindex, value. -/
def nums (l : List (Nat × Nat × Nat)) (s : State) : State := l.foldl (fun s e => s.setNum e.1 e.2.1 e.2.2) s

/-- Domains set to a state. -/
def doms (l : List Nat) (v : Nat) (s : State) : State := l.foldl (fun s d => s.setDomain d v) s

/-- A package that is on, with its dictionary open and its counter running from TIMEREF. -/
def opened : State :=
  nums [(0x6003, 2, 1)] { State.reset with
    pwr := { Pwr.init with on := true, en := true, opened := true },
    tim := { now := 7, started := true, timeref := true, refclk := true } }

/-- A ready package whose dies have passed their self-tests, with tensor die 0, server-core die 0, link die 0 and group 0 up. -/
def ready : State :=
  let s := doms [0, 1, 2, 3, 4, 5, 48, 49, 50, 51, 52, 58, 59, 60, 61, 66, 67, 69, 70, 78, 79] 2 opened
  let s := nums [(0x5400, 1, 5), (0x2401, 1, 2), (0x2400, 1, 1), (0x3C00, 1, 1)] s
  { s with pwr := { s.pwr with selftestOk := [.td 0, .hd 0, .ld 0] }, merr := { s.merr with zeroed := [0] } }

/-- A ready package with one job, RUNNING, that may use all of memory, and with descriptor queue 0 of die 0 running for it: slots at 0x10000
and 0x20000, 64 each, shadow line at 0x30000. -/
def running : State :=
  let s := nums [(jobIx 0 1, 1, 2), (0x3C28, 1, 0x80000000), (0x3C30, 1, 1), (0x3C10, 1, 0x10006), (0x3C18, 1, 0x20006), (0x3C20, 1, 0x30000)] ready
  s.setJob 0 { Job.init with
    prots := [{ base := 0, bytes := 2 ^ 48, shared := true, remote := true, write := true, read := true }],
    desc := { Desc.init with jobId := 9, kind := 0, device := 1, epoch := 4, dieMask := 1, slotMask := 0xFFFFFFFF } }

/-- An open Camip session in slot 0 on port A. -/
def session : State := nums [(0x1110, 1, 1), (0x1111, 1, 5), (0x1120, 1, 2), (0x1121, 1, 0)] ready

/-- A ring of 64 slots at 0x40000 with its shadow line at 0x50000, numbered from 1, ACTIVE and delivered to the session. -/
def ringing : State :=
  nums [(0x5002, 1, 0x40006), (0x5003, 1, 0x50000), (0x500A, 1, 1), (0x5001, 1, 1), (0x5000, 1, 1), (0x5004, 1, 0xFFFFFFFFFFFF),
    (0x5005, 1, 2 ^ 61)] session

/-- A package whose home 0 is ON, with the coherence state given. -/
def homed (c : Coh) : State := nums [(0x2800, 1, 1), (0x2801, 1, 1)] { ready with coh := c }

/-- A transaction of an agent on line 0x40, in the directory as it stands. -/
def txnFor (k : ReqKind) (a : Agent) : Txn :=
  { req := { kind := k, agent := a, data := [] }, alone := false, others := true, asks := k.asks, target := none, entry := true, snoops := [], got := none, served := false,
    granted := false, wbWait := none, done := false, acked := false }

/-- A line in a cache. -/
def lineIn (c : Nat) (st : CacheSt) : Coh := { Coh.init with caches := [(c, [(0x40, { st := st, data := [], poisoned := false })])] }

/-- A hart whose PMP forbids even M-mode the first 16 KiB and the first page of the control window. -/
def confined : Hart := { Hart.init with csr := [(0x3A0, 0x9898), (0x3B0, 0x7FF), (0x3B1, 0xC0000001FF)] }

/-- Link k in a state, with its function set up as a host does before it attaches. -/
def linked (k v : Nat) (s : State) : State :=
  let s := nums [(0x2C01, k + 1, v)] s
  s.setHlink k { s.hlink k with busMaster := true, barUp := true }

/-! ### The checks of WellFormed.lean -/

/-- A request on host channel 0, and one on a channel that does not exist. -/
def goodRq : Request := { src := .host 0, trans := 1 }
def badRq : Request := { src := .host 4, trans := 1 }

/-- A cache of one layer and one position, in rows of 64 QF8 codes, with its page table at 0xA0000. -/
def someNeed : KvNeed := { layers := 1, positions := 1, fmt := 2, blk := 1, dim := 64, table := 0xA0000 }

/-- Terms each of which breaks one check: none is well formed (1). -/
theorem test_wf_refuses_1 :
    ([
      .domainRampTimeout 80,
      .dieSelftestPowerup (.td 8) true,
      .dieSelftestPowerup (.hd 2) true,
      .dieSelftestPowerup (.ld 2) true,
      .memChannelTrainingDone 8 (some (31, 3)),
      .memChannelTrainingDone 7 (some (27, 3)),
      .memChannelTrainingDone 7 (some (28, 4)),
      .memInitialisationDone 8,
      .secReady badRq [],
      .configRequest ⟨2, .ident, none⟩,
      .read badRq 0 0,
      .write badRq 0 0 0 [],
      .readMulti badRq [],
      .writeMulti badRq [],
      .describe badRq 0 0,
      .domRead badRq 0 0 0 0,
      .domWrite badRq 0 0 0 [],
      .spdm 4 { msg := .endSession 15 },
      .spdm 3 { msg := .endSession 16 },
      .spdm 3 { msg := .keyUpdate 16 },
      .spdm 3 { msg := .finish 16 [] true },
      .spdm 3 { msg := .keyUpdate 15, frame := { secured := some (16, 0) } },
      .ident 2 {},
      .ident 1 { secured := some (16, 0) },
      .camipSessionIdleTimeout 16,
      .camipSessionClose badRq 15 [],
      .camipSessionClose goodRq 16 [],
      .camipEnable badRq 1 [],
      .camipEnable goodRq 2 [],
      .camipNodeId badRq 1 [],
      .camipNodeId goodRq 2 [],
      .plcaBeaconLost 2,
      .notifyRepeat 64,
      .mailboxCmd true 4 1 0,
      .mailboxCmd true 3 2 0,
      .dictReplayDone badRq [],
      .dictHoldMs badRq [],
      .dictPathWrite badRq [],
      .memInitStart badRq [],
      .secKeyRevoke badRq [],
      .secSvnCommit badRq [],
      .srvTimeReselect badRq [],
      .tnsDieEnable badRq [],
      .tnsQuadEnable badRq 7 [],
      .tnsQuadEnable goodRq 8 [],
      .tnsCanopyEnable badRq 7 [],
      .tnsCanopyEnable goodRq 8 []] : List Instr).all (fun i => !i.wf) = true := by decide

/-- Terms each of which breaks one check: none is well formed (2). -/
theorem test_wf_refuses_2 :
    ([
      .srvClusterEnable badRq 1 [],
      .srvClusterEnable goodRq 2 [],
      .pwrMemgrpEnable badRq [],
      .pwrLdEnable badRq [],
      .domainSwitchOff 80,
      .domainRegulatorFail 80 true,
      .pwrInputWPeak badRq [],
      .lpddrRefresh 8,
      .mr4Read 8 [] [],
      .memGroupFail 8 (some (31, 3)),
      .memGroupFail 7 (some (27, 3)),
      .memGroupFail 7 (some (28, 4)),
      .tnsSelftestStart badRq [],
      .selftestDone 8 [],
      .tnsDoorbell 8 31 0,
      .tnsDoorbell 7 32 0,
      .controlRegisterWrite (.bar0 2) 0 8 0,
      .controlRegisterWrite (.hart 72) 0 8 0,
      .controlRegisterWrite (.bar0 1) 0 3 0,
      .controlRegisterWrite (.bar0 1) 0 16 0,
      .tnsDqCtrlEnable badRq 7 31 [],
      .tnsDqCtrlEnable goodRq 8 31 [],
      .tnsDqCtrlEnable goodRq 7 32 [],
      .tnsDqReset badRq [],
      .dqResetDone 8 31,
      .dqResetDone 7 32,
      .descriptorTake 8,
      .splitNotice 8 0 7,
      .splitNotice 7 0 8,
      .operationStart 8 0,
      .nop 8 0,
      .mma 8 0,
      .mmaDrain 8 0,
      .drain 8 0,
      .tileRestore 8 0,
      .vecMap 8 0,
      .vecReduce 8 0,
      .stashBegin 8 0,
      .stashPut 8 0,
      .regrowPut 8 0,
      .stashFree 8 0,
      .operationComplete 8 0,
      .tnsSlotBindBound badRq 31 [],
      .tnsSlotBindBound goodRq 32 [],
      .tnsSlotBindRelease badRq 31 [],
      .tnsSlotBindRelease goodRq 32 []] : List Instr).all (fun i => !i.wf) = true := by decide

/-- Terms each of which breaks one check: none is well formed (3). -/
theorem test_wf_refuses_3 :
    ([
      .slotReleaseDone 32,
      .tnsStashPoolPeak badRq 7 15 [],
      .tnsStashPoolPeak goodRq 8 15 [],
      .tnsStashPoolPeak goodRq 7 16 [],
      .rdShare (.td 8) 0xFFFFFFFFFFC0,
      .rdShare (.lu 1) 32,
      .rdUnique (.td 8) 0xFFFFFFFFFFC0,
      .rdUnique (.lu 1) 32,
      .promote (.td 8) 0xFFFFFFFFFFC0,
      .promote (.lu 1) 32,
      .rdPeek (.td 8) 0xFFFFFFFFFFC0,
      .rdPeek (.lu 1) 32,
      .rdPeekWatch (.td 8) 0xFFFFFFFFFFC0,
      .rdPeekWatch (.lu 1) 32,
      .wrFull (.td 8) 0xFFFFFFFFFFC0 (List.replicate 64 0),
      .wrFull (.lu 1) 32 (List.replicate 64 0),
      .wrFull (.lu 1) 0xFFFFFFFFFFC0 (List.replicate 63 0),
      .wrHint (.td 8) 0xFFFFFFFFFFC0 (List.replicate 64 0) true,
      .wrHint (.lu 1) 32 (List.replicate 64 0) true,
      .wrHint (.lu 1) 0xFFFFFFFFFFC0 (List.replicate 63 0) true,
      .wrMasked (.td 8) 0xFFFFFFFFFFC0 18446744073709551615 (List.replicate 64 0),
      .wrMasked (.lu 1) 32 18446744073709551615 (List.replicate 64 0),
      .wrMasked (.lu 1) 0xFFFFFFFFFFC0 18446744073709551616 (List.replicate 64 0),
      .wrMasked (.lu 1) 0xFFFFFFFFFFC0 18446744073709551615 (List.replicate 63 0),
      .atomicHome (.td 8) 71 0 8 .add 0,
      .atomicHome (.lu 1) 72 0 8 .add 0,
      .atomicHome (.lu 1) 71 0 2 .add 0,
      .atomicHome (.lu 1) 71 0 16 .add 0,
      .snpShare (.td 8) 0xFFFFFFFFFFC0,
      .snpShare (.lu 1) 32,
      .snpUnique (.td 8) 0xFFFFFFFFFFC0,
      .snpUnique (.lu 1) 32,
      .snpKill (.td 8) 0xFFFFFFFFFFC0,
      .snpKill (.lu 1) 32] : List Instr).all (fun i => !i.wf) = true := by decide

/-- Terms each of which breaks one check: none is well formed (4). -/
theorem test_wf_refuses_4 :
    ([
      .snpPeek (.td 8) 0xFFFFFFFFFFC0,
      .snpPeek (.lu 1) 32,
      .watchNotice 8 0xFFFFFFFFFFC0,
      .watchNotice 7 32,
      .rspNone (.td 8) 0xFFFFFFFFFFC0,
      .rspNone (.lu 1) 32,
      .rspSentKeep (.td 8) 0xFFFFFFFFFFC0,
      .rspSentKeep (.lu 1) 32,
      .rspSentGone (.td 8) 0xFFFFFFFFFFC0,
      .rspSentGone (.lu 1) 32,
      .wbInFlight (.td 8) 0xFFFFFFFFFFC0,
      .wbInFlight (.lu 1) 32,
      .dat (.td 8) 0xFFFFFFFFFFC0,
      .dat (.lu 1) 32,
      .evDirty (.td 8) 0xFFFFFFFFFFC0,
      .evDirty (.lu 1) 32,
      .evClean (.td 8) 0xFFFFFFFFFFC0,
      .evClean (.lu 1) 32,
      .ackGrant (.td 8) 0xFFFFFFFFFFC0,
      .ackGrant (.lu 1) 32,
      .ackEv (.td 8) 0xFFFFFFFFFFC0,
      .ackEv (.lu 1) 32,
      .ackWr (.td 8) 0xFFFFFFFFFFC0,
      .ackWr (.lu 1) 32,
      .cacheEviction (.td 8) 0xFFFFFFFFFFC0,
      .cacheEviction (.lu 1) 32,
      .agentLost (.td 8),
      .cohHomeEnableSet badRq [],
      .cohHomeEnableClear badRq [],
      .amo 72 0 8 .add 0,
      .amo 71 0 2 .add 0,
      .amo 71 0 16 .add 0] : List Instr).all (fun i => !i.wf) = true := by decide

/-- Terms each of which breaks one check: none is well formed (5). -/
theorem test_wf_refuses_5 :
    ([
      .lr 72 0 8,
      .lr 71 0 2,
      .lr 71 0 16,
      .sc 72 0 8 0,
      .sc 71 0 2 0,
      .sc 71 0 16 0,
      .streamingStore 72 0 (List.replicate 64 0),
      .streamingStore 71 0 (List.replicate 63 0),
      .cboClean 72 0,
      .cboFlush 72 0,
      .cboInval 72 0,
      .hartStartPc 72 0,
      .coreCacheUe 2 ⟨3, 0⟩ 71 0,
      .coreCacheUe 1 ⟨4, 0⟩ 71 0,
      .coreCacheUe 1 ⟨3, 0⟩ 72 0,
      .fabPortEnable badRq [],
      .cmisRead 24 .noAnswer,
      .portLaneTrainingDone 24,
      .portTrainTimeout 24,
      .portRetryTimer 24,
      .fabPortExpect badRq 23 true [],
      .fabPortExpect goodRq 24 true [],
      .laneFailure 24,
      .linkUnitReceive 24 { word := 0, frame := none, crc := 0, fecBad := false },
      .nak 24 0,
      .replayTimeout 24,
      .frameRoute (some 24) 3,
      .frameRoute (some 23) 4,
      .data (some 24),
      .rdReq (some 24),
      .rdRsp (some 24),
      .wrReq (some 24),
      .wrPart (some 24),
      .wrAck (some 24),
      .ctrl (some 24),
      .fellNotice (some 24),
      .identExchange 24,
      .ringRecordWrite (some 24),
      .vlStall 24 3,
      .vlStall 23 4,
      .sendDoorbell 16 0,
      .sendDescriptor 16,
      .colDoorbell 16 0,
      .colDescriptorTake 16,
      .colNop 16 15] : List Instr).all (fun i => !i.wf) = true := by decide

/-- Terms each of which breaks one check: none is well formed (6). -/
theorem test_wf_refuses_6 :
    ([
      .colNop 15 16,
      .reduce 16 15,
      .reduce 15 16,
      .reduceHop 16 15,
      .reduceHop 15 16,
      .broadcast 16 15,
      .broadcast 15 16,
      .prism 16 15,
      .prism 15 16,
      .collectiveComplete 16 15,
      .collectiveComplete 15 16,
      .luDoorbell 16 0,
      .luNop 16,
      .ortho 16,
      .norm 16,
      .update 16,
      .stemRecord 16 ⟨[], 0⟩,
      .stragglerRelease 16 ⟨0, 0⟩,
      .memberList 16 [] 0,
      .normReport 16 [],
      .clipRecord 16 [] 0 0,
      .heartbeat 16 [],
      .faultReport 16 [],
      .epochPlan 16 ⟨[], [], []⟩,
      .ready 16 [],
      .start 16 [],
      .prismPlan 16 [] 0 0 [] 15,
      .prismPlan 15 [] 0 0 [] 16,
      .switch 16 [],
      .partDone 16 ⟨[], []⟩,
      .ckptDone 16 [],
      .snagReport 16 [],
      .jobCtrlStart badRq 15,
      .jobCtrlStart goodRq 16,
      .jobCtrlStop badRq 15,
      .jobCtrlStop goodRq 16,
      .jobCtrlSpare badRq 15,
      .jobCtrlSpare goodRq 16,
      .jobKick badRq 15 [],
      .jobKick goodRq 16 [],
      .jobSwitch badRq 15 [],
      .jobSwitch goodRq 16 [],
      .watchdogExpiry 16,
      .heartbeatTimer 16,
      .deadTimeout 16 0] : List Instr).all (fun i => !i.wf) = true := by decide

/-- Terms each of which breaks one check: none is well formed (7). -/
theorem test_wf_refuses_7 :
    ([
      .restartTimeout 16,
      .journalReplay ⟨16, someNeed⟩,
      .requestAccept 16 [] 0 1 1 someNeed.toKvForm 0xA0000,
      .resultDelivery ⟨16, none, 0⟩,
      .resultDelivery ⟨15, none, 240⟩,
      .attach 2 0,
      .detach 2,
      .pcieLinkUp 2 0 0,
      .pcieLinkDown 2,
      .pcieReset 2 .hot,
      .busMasterDisable 2,
      .inboundRead 2 (.bar2 0) 0,
      .inboundRead 2 (.bar0 0) 8,
      .inboundWrite 2 0 [] true,
      .inboundAtomicop 2 0 8 .add 0,
      .inboundAtomicop 1 0 2 .add 0,
      .inboundAtomicop 1 0 32 .add 0,
      .setShared 2 0,
      .setDevice 2 0,
      .flush 2 0,
      .ack 16 0,
      .eventPost 72 0,
      .evtRingCons 64 0,
      .evtRingDone 64,
      .evtRingEnable badRq 63 [],
      .evtRingEnable goodRq 64 [],
      .evtGlobalEnable badRq [],
      .evtRingTarget badRq 63 [],
      .evtRingTarget goodRq 64 [],
      .timerInterrupt 72 .m,
      .hartStop 72,
      .plcaStatusTrue 2,
      .pwrRailTargetMv badRq 7 [],
      .pwrRailTargetMv goodRq 8 [],
      .domainRampDone 80,
      .landingOperationComplete 16] : List Instr).all (fun i => !i.wf) = true := by decide

/-- The commands at the largest unit numbers that they may name (1). -/
theorem test_wf_accepts_1 :
    ([
      .powerUp Board.none,
      .restIntervalExpiry Board.none,
      .enDeassert,
      .powerFault 0 0,
      .timeReferenceStart true true,
      .settingsHoldExpiry,
      .domainRamp [],
      .domainRampTimeout 79,
      .dieSelftestPowerup (.ld 1) true,
      .memChannelTrainingDone 7 (some (31, 3)),
      .memInitialisationDone 7,
      .coreImageLoad,
      .secReady goodRq [],
      .configRequest ⟨1, .ident, none⟩,
      .read goodRq 0 0,
      .write goodRq 0 0 0 [],
      .readMulti goodRq [],
      .writeMulti goodRq [],
      .describe goodRq 0 0,
      .domRead goodRq 0 0 0 0,
      .domWrite goodRq 0 0 0 [],
      .spdm 3 { msg := .endSession 15, frame := { secured := some (15, 0) } },
      .ident 1 {},
      .camipSessionIdleTimeout 15,
      .camipSessionClose goodRq 15 [],
      .camipEnable goodRq 1 [],
      .camipNodeId goodRq 1 [],
      .plcaBeaconLost 1,
      .notifyRepeat 63,
      .mailboxCmd true 3 1 0,
      .dictReplayDone goodRq [],
      .dictHoldMs goodRq [],
      .dictPathWrite goodRq [],
      .memInitStart goodRq [],
      .secKeyRevoke goodRq [],
      .secSvnCommit goodRq [],
      .srvTimeReselect goodRq [],
      .timerefLoss,
      .referenceLoss,
      .tnsDieEnable goodRq [],
      .tnsQuadEnable goodRq 7 [],
      .tnsCanopyEnable goodRq 7 [],
      .srvClusterEnable goodRq 1 [],
      .pwrMemgrpEnable goodRq [],
      .pwrLdEnable goodRq [],
      .domainSwitchOff 79,
      .domainRegulatorFail 79 true,
      .cappingSample { volts := 0, amps := 0, milliwatts := 0, temps := [] },
      .pwrInputWPeak goodRq [],
      .lpddrRefresh 7,
      .mr4Read 7 [] [],
      .memScrubVisit 0 none [],
      .canopyScrubVisit 0 none,
      .memGroupFail 7 (some (31, 3))] : List Instr).all Instr.wf = true := by decide

/-- The commands at the largest unit numbers that they may name (2). -/
theorem test_wf_accepts_2 :
    ([
      .hsRateMeasure [],
      .tnsSelftestStart goodRq [],
      .selftestDone 7 [],
      .tnsDoorbell 7 31 0,
      .controlRegisterWrite (.bar0 1) 0 8 0,
      .controlRegisterWrite (.hart 71) 0 8 0,
      .tnsDqCtrlEnable goodRq 7 31 [],
      .tnsDqReset goodRq [],
      .dqResetDone 7 31,
      .descriptorTake 7,
      .splitNotice 7 0 7,
      .operationStart 7 0,
      .nop 7 0,
      .mma 7 0,
      .mmaDrain 7 0,
      .drain 7 0,
      .tileRestore 7 0,
      .vecMap 7 0,
      .vecReduce 7 0,
      .stashBegin 7 0,
      .stashPut 7 0,
      .regrowPut 7 0,
      .stashFree 7 0,
      .operationComplete 7 0,
      .tnsSlotBindBound goodRq 31 [],
      .tnsSlotBindRelease goodRq 31 [],
      .slotReleaseDone 31,
      .tnsStashPoolPeak goodRq 7 15 [],
      .rdShare (.lu 1) 0xFFFFFFFFFFC0,
      .rdUnique (.lu 1) 0xFFFFFFFFFFC0,
      .promote (.lu 1) 0xFFFFFFFFFFC0,
      .rdPeek (.lu 1) 0xFFFFFFFFFFC0,
      .rdPeekWatch (.lu 1) 0xFFFFFFFFFFC0,
      .wrFull (.lu 1) 0xFFFFFFFFFFC0 (List.replicate 64 0),
      .wrHint (.lu 1) 0xFFFFFFFFFFC0 (List.replicate 64 0) true,
      .wrMasked (.lu 1) 0xFFFFFFFFFFC0 18446744073709551615 (List.replicate 64 0),
      .atomicHome (.lu 1) 71 0 8 .add 0,
      .snpShare (.lu 1) 0xFFFFFFFFFFC0,
      .snpUnique (.lu 1) 0xFFFFFFFFFFC0,
      .snpKill (.lu 1) 0xFFFFFFFFFFC0,
      .snpPeek (.lu 1) 0xFFFFFFFFFFC0,
      .watchNotice 7 0xFFFFFFFFFFC0,
      .rspNone (.lu 1) 0xFFFFFFFFFFC0,
      .rspSentKeep (.lu 1) 0xFFFFFFFFFFC0,
      .rspSentGone (.lu 1) 0xFFFFFFFFFFC0,
      .wbInFlight (.lu 1) 0xFFFFFFFFFFC0,
      .dat (.lu 1) 0xFFFFFFFFFFC0,
      .evDirty (.lu 1) 0xFFFFFFFFFFC0,
      .evClean (.lu 1) 0xFFFFFFFFFFC0,
      .ackGrant (.lu 1) 0xFFFFFFFFFFC0,
      .ackEv (.lu 1) 0xFFFFFFFFFFC0,
      .ackWr (.lu 1) 0xFFFFFFFFFFC0,
      .cacheEviction (.lu 1) 0xFFFFFFFFFFC0,
      .agentLost (.lu 1),
      .cohHomeEnableSet goodRq []] : List Instr).all Instr.wf = true := by decide

/-- The commands at the largest unit numbers that they may name (3). -/
theorem test_wf_accepts_3 :
    ([
      .cohHomeEnableClear goodRq [],
      .amo 71 0 8 .add 0,
      .lr 71 0 8,
      .sc 71 0 8 0,
      .streamingStore 71 0 (List.replicate 64 0),
      .cboClean 71 0,
      .cboFlush 71 0,
      .cboInval 71 0,
      .hartStartPc 71 0,
      .coreCacheUe 1 ⟨3, 1⟩ 71 0,
      .fabPortEnable goodRq [],
      .cmisRead 23 .noAnswer,
      .portLaneTrainingDone 23,
      .portTrainTimeout 23,
      .portRetryTimer 23,
      .fabPortExpect goodRq 23 true [],
      .laneFailure 23,
      .linkUnitReceive 23 { word := 0, frame := none, crc := 0, fecBad := false },
      .nak 23 0,
      .replayTimeout 23,
      .frameRoute (some 23) 3,
      .data (some 23),
      .rdReq (some 23),
      .rdRsp (some 23),
      .wrReq (some 23),
      .wrPart (some 23),
      .wrAck (some 23),
      .ctrl (some 23),
      .fellNotice (some 23),
      .identExchange 23,
      .ringRecordWrite (some 23),
      .remoteTimeout 0,
      .vlStall 23 3,
      .sendDoorbell 15 0,
      .sendDescriptor 15,
      .colDoorbell 15 0,
      .colDescriptorTake 15,
      .colNop 15 15,
      .reduce 15 15,
      .reduceHop 15 15,
      .broadcast 15 15,
      .prism 15 15,
      .collectiveComplete 15 15,
      .luDoorbell 15 0,
      .luNop 15,
      .ortho 15,
      .norm 15,
      .update 15,
      .stemRecord 15 ⟨[], 0⟩,
      .stragglerRelease 15 ⟨0, 0⟩,
      .memberList 15 [] 0,
      .normReport 15 [],
      .clipRecord 15 [] 0 0,
      .heartbeat 15 []] : List Instr).all Instr.wf = true := by decide

/-- The commands at the largest unit numbers that they may name (4). -/
theorem test_wf_accepts_4 :
    ([
      .faultReport 15 [],
      .epochPlan 15 ⟨[], [], []⟩,
      .ready 15 [],
      .start 15 [],
      .prismPlan 15 [] 0 0 [] 15,
      .switch 15 [],
      .partDone 15 ⟨[], []⟩,
      .ckptDone 15 [],
      .snagReport 15 [],
      .jobCtrlStart goodRq 15,
      .jobCtrlStop goodRq 15,
      .jobCtrlSpare goodRq 15,
      .jobKick goodRq 15 [],
      .jobSwitch goodRq 15 [],
      .watchdogExpiry 15,
      .heartbeatTimer 15,
      .deadTimeout 15 0,
      .restartTimeout 15,
      .journalReplay ⟨15, someNeed⟩,
      .requestAccept 15 [] 0 1 1 someNeed.toKvForm 0xA0000,
      .resultDelivery ⟨15, none, 239⟩,
      .attach 1 0,
      .detach 1,
      .pcieLinkUp 1 0 0,
      .pcieLinkDown 1,
      .pcieReset 1 .hot,
      .busMasterDisable 1,
      .inboundRead 1 (.bar2 0) 0,
      .inboundRead 1 (.bar0 0) 8,
      .inboundWrite 1 0 [] true,
      .inboundAtomicop 1 0 8 .add 0,
      .setShared 1 0,
      .setDevice 1 0,
      .flush 1 0,
      .ack 15 0,
      .outboundReadCompletion 0 .refused,
      .hostCplTimeout 0,
      .eventPost 71 0,
      .evtRingCons 63 0,
      .evtRingDone 63,
      .evtRingEnable goodRq 63 [],
      .evtGlobalEnable goodRq [],
      .evtRingTarget goodRq 63 [],
      .timerInterrupt 71 .m,
      .hartStop 71,
      .timeReferenceReturn true,
      .plcaStatusTrue 1,
      .vinCrosses20v true,
      .pwrRailTargetMv goodRq 7 [],
      .domainRampDone 79,
      .landingOperationComplete 15] : List Instr).all Instr.wf = true := by decide

/-- The paths that no request comes on. -/
theorem test_wf_paths :
    ([.camip 2 [] none [], .camip 0 [] (some (16, 1)) [], .camip 2 [] (some (0, 1)) [], .host 4, .core 4] : List Src).all
      (fun p => !rqOk { src := p, trans := 0 }) = true
    ∧ ([.camip 1 [] none [], .camip 1 [] (some (15, 1)) [], .host 3, .core 3] : List Src).all
      (fun p => rqOk { src := p, trans := 0 }) = true := by decide

/-- An ill-formed command faults by name; no word spells a command. -/
theorem test_ill_formed_faults :
    exec (.evtRingDone 64) State.reset = .fault .noSuchUnit ∧ exec (.nop 8 1) State.reset = .fault .noSuchUnit := ⟨rfl, rfl⟩

theorem test_no_word_spells_a_command (nbits w : Nat) :
    decodeTableWord nbits w = none ∧ State.reset.withFetchWord nbits w = State.reset := ⟨rfl, rfl⟩

/-! ### States and operands that meet the hypotheses of the statements -/

/-- A queue with a command in front. -/
theorem test_witness_StepRunsFrontCommand :
    ({ State.reset with pending := [.timerefLoss] } : State).pending = .timerefLoss :: [] := rfl

/-- A well-formed and an ill-formed command. -/
theorem test_witness_EveryCommandAnswers :
    Instr.wf (.evtRingDone 63) = true ∧ Instr.wf (.evtRingDone 64) = false := by decide

/-- A step from a state that waits on nothing answers a next state. -/
theorem test_witness_EveryStepEndsQuiet : State.reset.Quiet ∧ step State.reset = .next State.reset := ⟨rfl, rfl⟩

/-- Memory in canonical form, and a step that answers. -/
theorem test_witness_StepsKeepMemoryForm :
    Memory.wf ({ State.reset with mem := [(64, 1)] } : State).mem = true
    ∧ step { State.reset with mem := [(64, 1)] } = .next { State.reset with mem := [(64, 1)] } := ⟨by decide, rfl⟩

/-- Memory in canonical form, and a line of data. -/
theorem test_witness_WritesReadBack :
    Memory.wf ({ State.reset with mem := [(0, 1), (63, 7)] } : State).mem = true
    ∧ (List.replicate 64 (5 : Byte)).length = 64 := by decide

/-- A finite value, an infinity and the NaN of QW32; the formats whose pairing is allowed. -/
theorem test_witness_ElementsAndHeartwood :
    decodeF qw32 0x3F000001 = .fin false 0x1000001 (-24) ∧ decodeF qw32 0xFF000000 = .inf true
    ∧ nanOf qw32 = 0x7F800000 ∧ pairingOk codeQN4 2 = true := by decide

/-- Two chunks with one infinite product and different finite ones. -/
theorem test_witness_NonFiniteChunks :
    ([FV.inf true, .fin false 3 0].any fun v => !v.isFinite) = true
    ∧ [FV.inf true, .fin false 3 0].filter (fun v => !v.isFinite)
      = [FV.fin true 1 5, .inf true, .fin false 0 0].filter (fun v => !v.isFinite) := by decide

/-- A home that is ON, with a target that runs and one that does not. -/
theorem test_witness_HintsMeetTheirTarget :
    let s := nums [(0x2800, 1, 1)] ready
    homeOf s 0x1000 = some 0 ∧ s.homeState 0 = 1 ∧ s.on (domUncore 0) = true ∧ s.coh.lost.contains (targetCache 0) = false
    ∧ s.on (domUncore 7) = false ∧ s.on (domHdUncore 1) = false ∧ place s 0x1000 = .dram 0 0x1000
    ∧ dirRoom s 0x1000 = true ∧ waitsOf s (targetCache 0) 0x1000 = [] ∧ s.num 0x5854 1 < max64 := by dsimp only [State.Quiet]; decide

/-- A word whose home is OFF, and what an atomic on it answers. -/
theorem test_witness_OffHomesUseControllers :
    let s := ready
    homeOf s (lineOf 0x1000) = some 0 ∧ s.homeState 0 = 0 ∧ atomicTrap s 0 0x1004 4 true = none
    ∧ (atomicAt .add 0x1004 4 9 s).1 = (0, false) := by dsimp only [State.Quiet]; decide

/-- An object that a table lists, an overflow flag, and one that none lists. -/
theorem test_witness_SubindexZero :
    rowOf 0x2006 2 ≠ none ∧ rowOf 0x5C54 1 ≠ none ∧ rowOf 0x2006 3 = none ∧ rowOf 0x0FFF 0 = none := by decide

/-- A package that is on; one that is off with EN high; one that rests; a board whose input is too low. -/
theorem test_witness_PackagePower :
    (opened.Quiet ∧ opened.pwr.on = true ∧ opened.pwr.en = true)
    ∧ (let s := { State.reset with pwr := { Pwr.init with en := true, restDone := false } }
       s.Quiet ∧ s.pwr.on = false ∧ s.pwr.en = true ∧ s.pwr.restDone = false)
    ∧ (let s := { State.reset with pwr := { Pwr.init with resting := true, restDone := false } }
       s.Quiet ∧ s.pwr.on = false ∧ s.pwr.resting = true ∧ s.pwr.en = false)
    ∧ ({ Board.none with vinMv := 35999 } : Board).vinMv < 36000 := by dsimp only [State.Quiet]; decide

/-- Boards at 36 V, with an IOD that passes and one that fails; a package whose rest is over and one that rests with EN high. -/
theorem test_witness_BootStarts :
    36000 ≤ ({ Board.none with vinMv := 36000, iodOk := false } : Board).vinMv
    ∧ ({ Board.none with vinMv := 36000, iodOk := true } : Board).iodOk = true
    ∧ (State.reset.Quiet ∧ State.reset.pwr.on = false ∧ State.reset.pwr.restDone = true)
    ∧ (let s := { State.reset with pwr := { Pwr.init with resting := true, en := true } }
       s.Quiet ∧ s.pwr.on = false ∧ s.pwr.resting = true ∧ s.pwr.en = true) := by dsimp only [State.Quiet]; decide

/-- A running counter, one that has not started, one that has lost both references, and comparisons at and above the time. -/
theorem test_witness_TimeBase :
    (opened.pending = [] ∧ timeRuns opened = true ∧ timeRuns State.reset = false)
    ∧ (let s := { opened with tim := Tim.init }
       s.Quiet ∧ s.pwr.on = true ∧ s.tim.started = false)
    ∧ (opened.tim.started = true ∧ opened.timeSource = 1 ∧ opened.tim.timeref = true)
    ∧ (let s := nums [(0x6003, 2, 0)] opened
       s.Quiet ∧ s.tim.started = true ∧ s.timeSource = 0)
    ∧ ((opened.hart 71).mtimecmp ≤ opened.tim.now
       ∧ ¬ ((opened.setHart 71 { Hart.init with mtimecmp := 8 }).hart 71).mtimecmp ≤ opened.tim.now) := by dsimp only [State.Quiet]; decide

/-- A STOPPED hart of a powered cluster, one of a cluster that is off, and a STARTED one. -/
theorem test_witness_HartStartAndStop :
    let s := nums [(0x6002, 1, 1), (0x6002, 2, 0)] ready
    s.Quiet ∧ s.hartState 0 = 1 ∧ hartOn s 0 = true ∧ hartOn s 71 = false ∧ s.hartState 1 = 0
    ∧ tsorted Hart.init.x = true ∧ tsorted Hart.init.csr = true := by dsimp only [State.Quiet]; decide

/-- A domain that may ramp, one that ramps, one that is ON, and one that is due to go off, with its home drained and not. -/
theorem test_witness_DomainsRampAndFail :
    (let s := doms (List.range 80) 2 opened
     let s := s.setDomain 70 0
     s.Quiet ∧ s.pwr.opened = true ∧ stepReached s 70 = true ∧ s.domain 70 = 0 ∧ domWanted s 70 = true ∧ needsMet s 70 = true
       ∧ rampRoom s = true)
    ∧ (let s := opened.setDomain 79 1
       s.Quiet ∧ s.domain 79 = 1 ∧ timeRuns s = true)
    ∧ (0 ∈ regulated 0 true ∧ 5 ∈ regulated 5 true ∧ ready.domain 0 ≠ 0 ∧ ready.domain 0 ≠ 4)
    ∧ (let s := nums [(0x3C01, 1, 14)] (doms [0] 3 opened)
       s.Quiet ∧ s.domain 0 = 3 ∧ domWanted s 0 = false)
    ∧ (let s := nums [(0x3C01, 1, 0)] (doms [0, 4] 2 opened)
       offDue s 0 = true ∧ drained (drainDomain 0 s) 0 = true)
    ∧ (let s := nums [(0x3C00, 2, 0), (0x2006, 1, 0), (0x3C01, 1, 0), (0x2800, 1, 1), (0x2801, 1, 1)] (doms [4] 2 opened)
       let s := { s with coh := { s.coh with txns := [(0x40, txnFor .rdShare (.td 1))] } }
       offDue s 4 = true ∧ drained (drainDomain 4 s) 4 = false)
    ∧ (let s := nums [(0x3C01, 1, 14)] ready
       let s := { s with merr := { s.merr with gSet := true } }
       s.domain (domQuad 0 0) = 2 ∧ domWanted s (domQuad 0 0) = false ∧ (s.die 0).ops = [] ∧ s.merr.gSet = true ∧ s.memState 0 ≠ 3
       ∧ (∀ j, j < 16 → s.jobState j = 0) ∧ (s.setDomain (domQuad 0 0) 1).domain (domQuad 0 0) = 1
       ∧ timeRuns (s.setDomain (domQuad 0 0) 1) = true) := by dsimp only [State.Quiet]; decide

/-- A group that trains, one that is READY, and one whose channels are trained with the command to initialise given. -/
theorem test_witness_DomainUpBrings :
    opened.pwr.handoff = none ∧ (opened.setDomain (domHdUncore 1) 1).domain (domHdUncore 1) = 1
    ∧ (opened.setDomain (domQuad 7 3) 1).domain (domQuad 7 3) = 1
    ∧ (opened.setDomain (domCluster 1 3) 1).domain (domCluster 1 3) = 1
    ∧ (opened.setDomain (domGroup 7) 1).domain (domGroup 7) = 1 ∧ (opened.setDomain (domGroup 7) 1).Quiet := by dsimp only [State.Quiet]; decide

/-- Dies whose self-tests are due, of each kind; a die under test; a package whose rates are measured. -/
theorem test_witness_SelfTestsAndRates :
    (let s := doms (List.range 80) 2 opened
     s.Quiet ∧ selftestDue s (.td 7) = true ∧ selftestDue s (.hd 1) = true ∧ selftestDue s (.ld 1) = true)
    ∧ (let s := ready.setDie 7 { Die.init with testing := true }
       s.Quiet ∧ (s.die 7).testing = true)
    ∧ (ready.Quiet ∧ ready.pwr.opened = true ∧ timeRuns ready = true) := by dsimp only [State.Quiet]; decide

/-- A hold that runs; a group HELD and one that initialises; a package ready to load its core image; links before and after the dictionary
opens. -/
theorem test_witness_BootStages :
    (let s := nums [(0x1101, 3, 1)] opened
     s.Quiet ∧ s.pwr.opened = true ∧ timeRuns s = true ∧ s.num 0x1101 3 = 1)
    ∧ (let s := nums [(0x1101, 3, 3), (0x2401, 1, 0)] ready
       s.Quiet ∧ s.num 0x1101 3 ≠ 1 ∧ s.on (domGroup 0) = true ∧ s.pwr.selftestOk.contains (.td 0) = true ∧ s.memState 0 = 0)
    ∧ (let s := nums [(0x2401, 1, 1)] { ready with dict := { ready.dict with memInit := true } }
       s.Quiet ∧ s.memState 0 = 1 ∧ s.dict.memInit = true)
    ∧ (let s := nums [(0x5400, 1, 3)] ready
       s.Quiet ∧ s.pwr.opened = true ∧ s.num 0x5400 1 = 3 ∧ s.memState 0 = 2 ∧ s.pwr.selftestOk.contains (.hd 0) = true
         ∧ s.on (domCluster 0 0) = true ∧ s.pwr.handoff = none ∧ s.on domNet = true)
    ∧ (let s := nums [(0x5400, 1, 3)] { ready with pwr := { ready.pwr with handoff := some 0x80000 } }
       s.pwr.handoff = some 0x80000 ∧ s.num 0x5400 1 = 3 ∧ s.pwr.selftestOk.contains (.hd 0) = true ∧ s.on (domCluster 0 0) = true
         ∧ (s.setDomain (domCluster 0 0) 1).on (domCluster 0 0) = false
         ∧ ({ s with pwr := { s.pwr with selftestOk := [] } } : State).pwr.selftestOk.contains (.hd 0) = false)
    ∧ (let s := { State.reset with pwr := { Pwr.init with on := true } }.setDomain domPcie 2
       s.Quiet ∧ s.pwr.on = true ∧ s.pwr.opened = false ∧ s.pwr.bstat1 = false ∧ s.on domPcie = true)
    ∧ (let s := nums [(0x2C00, 1, 1), (0x2C01, 2, 1)] opened
       s.num 0x2C00 1 ≠ 0 ∧ s.pwr.opened = true ∧ linkState s 1 ≠ 0) := by dsimp only [State.Quiet]; decide

/-- A group that is on, cool and hot; lines and Canopy words in reach, within a pass and at its end. -/
theorem test_witness_MemoryHousekeeping :
    (timeRuns ready = true ∧ timeRuns (nums [(0x6003, 2, 0)] ready) = false)
    ∧ (ready.Quiet ∧ ready.on (domGroup 0) = true ∧ ([false, true].take 4).findIdx? id = some 1
      ∧ lget false ready.pwr.memHot 0 = false)
    ∧ (place ready (lineOf 0x1000) = .dram 0 0x1000 ∧ ready.memState 0 = 2 ∧ 0x1000 ≠ lastOffset
      ∧ tfind (lineOf 0x1000) ready.merr.latent = none)
    ∧ (place ready (lineOf lastOffset) = .dram 0 lastOffset ∧ tfind (lineOf lastOffset) ready.merr.latent = none)
    ∧ (place ready (0x20000000008 / 8 * 8) = .canopy 0 8 ∧ placeOk ready (.canopy 0 8) = true
      ∧ tfind 0x20000000008 ready.merr.latent = none) := by dsimp only [State.Quiet]; decide

/-- Errors of both kinds at a line and at a Canopy word; a storm limit that is not passed; a READY group. -/
theorem test_witness_MemoryErrors :
    (let s := { ready with merr := { ready.merr with latent := [(0, .ue), (64, .ce), (0x20000000000, .ce), (0x20000000008, .ue)] } }
     (64 ∉ s.merr.poison ∧ tfind 128 s.merr.latent = none)
     ∧ (place s 0 = .dram 0 0 ∧ tfind 0 s.merr.latent = some .ue) ∧ (place s 64 = .dram 0 64 ∧ tfind 64 s.merr.latent = some .ce)
     ∧ (place s 0x20000000000 = .canopy 0 0 ∧ tfind 0x20000000000 s.merr.latent = some .ce)
     ∧ (place s 0x20000000008 = .canopy 0 8 ∧ tfind 0x20000000008 s.merr.latent = some .ue)
     ∧ (s.num 0x2406 1 = 0 ∨ tget 0 (16 * 0 + channelOf 64) s.merr.chanCe + 1 ≤ s.num 0x2406 1))
    ∧ (ready.Quiet ∧ ready.memState 0 = 2) := by dsimp only [State.Quiet]; decide

/-- A sample with a sensor above 115 °C and one without; sums above the limit, below 97 % of it and between the two. -/
theorem test_witness_PowerLoops :
    (opened.Quiet ∧ opened.pwr.opened = true)
    ∧ ((([20000, 115001] : List Int).take 13).zipIdx).find? (fun e => decide (115000 < e.1)) = some (115001, 1)
    ∧ ((([20000, 115000] : List Int).take 13).zipIdx).find? (fun e => decide (115000 < e.1)) = none
    ∧ (let lim := powerLimit opened
       lim = 600 ∧ lim * 10000 < 6000001 ∧ atFloor opened = false ∧ capActive opened = false
       ∧ 5819999 * 100 < 97 * (lim * 10000) ∧ ¬ lim * 10000 < 6000000 ∧ ¬ 5820000 * 100 < 97 * (lim * 10000))
    ∧ (let s := { opened with pwr := { opened.pwr with capped := List.replicate 8 550, floorPosted := true, lowRun := 9 } }
       atFloor s = true ∧ s.pwr.floorPosted = true ∧ s.pwr.lowRun = 9)
    ∧ (let s := { opened with pwr := { opened.pwr with capped := List.replicate 8 600 } }
       atFloor s = false ∧ capActive s = true) := by dsimp only [State.Quiet]; decide

/-- Paths that may take a request: host and core channels that are not BUSY, a session that is open on its port; an object that reads. -/
theorem test_witness_ServicesRunOnTheirPath :
    ready.pwr.opened = true ∧ rqOk { src := .host 3, trans := 1 } = true ∧ (ready.chan 3).state ≠ 1 ∧ (ready.chan 7).state ≠ 1
    ∧ camipUp session 0 = true ∧ sessOpen (count 0x58C0 1 1 session) 0 = true ∧ (count 0x58C0 1 1 session).num 0x1121 1 = 0
    ∧ ((count 0x58C0 1 1 session).sess 0).rxSeq.any (0 ≤ ·) = false
    ∧ ((count 0x58C0 1 1 session).sess 0).cache.find? (fun e => e.1 == 1) = none
    ∧ ready.Quiet ∧ bit (ready.chan 3).irq 63 = false ∧ ready.dict.closing = [] ∧ readStatus ready 0x5400 1 = stOk := by
  dsimp only [State.Quiet]; decide

/-- An object of each kind that a check meets: none, not ready, a path that may not write, read only, another type and length, busy, a value out of
its range, and one that is applied. -/
theorem test_witness_WriteChecks :
    rowOf 0x0FFF 1 = none ∧ (rowOf 0x1102 1).isSome = true ∧ objReady State.reset 0x1102 1 1 = false ∧ objReady ready 0x1102 1 1 = true
    ∧ pathAllowed (nums [(0x1102, 1, 1)] ready) 1 = false ∧ pathConfined 1 0x5401 1 = true ∧ pathAllowed ready 1 = true
    ∧ pathConfined 1 0x1102 1 = false
    ∧ ((rowOf 0x5400 1).map (·.access) = some 0 ∧ (rowOf 0x1102 1).map (·.access) = some 1)
    ∧ (rowOf 0x1102 1).map (fun r => (r.type, r.size)) = some (2, 1)
    ∧ objIdle running 0x3C10 1 0 = false ∧ objIdle ready 0x1102 1 7 = true ∧ rangeTaken ready 0x1102 1 8 = false
    ∧ (typeTaken 2 7 [7] && rangeTaken ready 0x1102 1 7) = true ∧ (applyObj 0x1102 1 7 [7] (noteHold ready)).1 = stOk
    ∧ (writeObj 1 0x1102 1 2 [8] ready).1 ≠ stOk ∧ (svcDomWrite 1 0x1102 1 0 [8] ready).1 ≠ stOk := by decide

/-- Command words with GO 0 and GO 1, on channels that are idle and BUSY. -/
theorem test_witness_MailboxCommands :
    (let s := nums [(0x2C01, 2, 1)] ready
     s.pwr.opened = true ∧ linkState s 1 ≠ 0 ∧ (s.chan 3).state ≠ 1)
    ∧ ((ready.setChan 7 { ready.chan 7 with state := 1 }).chan 7).state = 1
    ∧ bit 0x0100000100040000 0 = false ∧ bit 0x0100000100040001 0 = true
    ∧ (bits 0x010000003FC00001 31 16 ≤ 16320 ∧ bits 0x010000003FC00001 55 48 = 0 ∧ bits 0x010000003FC00001 15 1 = 0) := by
  dsimp only; decide

/-- A write of one object that its path, its checks and its own effect take, on each path. -/
theorem test_witness_DedicatedWrites :
    Instr.wf (.dictPathWrite { src := .host 0, trans := 1 } [7]) = true ∧ (rowOf 0x1102 1).map (·.type) = some 2
    ∧ ready.pwr.opened = true ∧ (ready.chan 0).state ≠ 1 ∧ (ready.chan 4).state ≠ 1
    ∧ writeStatus ready 1 0x1102 1 2 [7] = stOk ∧ writeStatus ready 2 0x1102 1 2 [7] = stOk
    ∧ (applyObj 0x1102 1 7 [7] (noteHold ready)).1 = stOk
    ∧ (let t := count 0x58C0 1 1 session
       let u := t.setSess 0 { t.sess 0 with failPosted := false, rxSeq := some 0 }
       camipUp session 0 = true ∧ sessOpen t 0 = true ∧ t.num 0x1121 1 = 0 ∧ (t.sess 0).rxSeq.any (0 ≤ ·) = false
       ∧ writeStatus u 0 0x1102 1 2 [7] = stOk ∧ (applyObj 0x1102 1 7 [7] (noteHold u)).1 = stOk) := by
  dsimp only; decide

/-- The last stage before ready, another, and ready; fuses with two live keys; an image version above the fused one; port enables. -/
theorem test_witness_BootAndPortObjects :
    (let u := nums [(0x5400, 1, 4), (0x1101, 3, 3)] ready
     u.num 0x5400 1 = 4 ∧ u.num 0x1101 3 ≠ 1 ∧ ready.num 0x5400 1 ≠ 4)
    ∧ (let u := { ready with
         fuses := { ready.fuses with keyHash := [List.replicate 48 1, List.replicate 48 1, List.replicate 48 1, List.replicate 48 1] },
         pwr := { ready.pwr with mcSlot := 0, coreSlot := 1, mcSvn := 2 } }
       u.num 0x5400 1 = 5 ∧ bit 8 u.pwr.mcSlot = false ∧ bit 8 u.pwr.coreSlot = false
       ∧ (List.range 4).any (slotLive u ((u.fuses.revoked ||| 8) % 16)) = true ∧ (u.fuses.revoked ||| 8) % 16 ≠ u.fuses.revoked % 16
       ∧ ¬ ((u.fuses.svnMc ||| thermo u.pwr.mcSvn) = u.fuses.svnMc ∧ u.fuses.svnCore = u.fuses.svnCore))
    ∧ session.num 0x1111 1 = 5 ∧ session.num 0x1111 1 ≠ 6 ∧ session.num 0x1111 1 ≠ 0 := by dsimp only; decide

/-- Enables whose needs are met and not; dies present and absent; homes and ports that may rise; queues, slots and jobs in each state. -/
theorem test_witness_EnableAndQueueObjects :
    (let u := nums [(0x3C00, 2, 1), (0x3C01, 1, 0)] ready
     let t := u.setNum 0x3C01 1 15
     (allDomains.filter fun d => domWanted t d && !domWanted u d).all (mayEnable t) = true)
    ∧ (let u := nums [(0x3C00, 2, 1), (0x3C01, 1, 0), (0x2010, 80, 4)] ready
       let t := u.setNum 0x3C01 1 15
       (allDomains.filter fun d => domWanted t d && !domWanted u d).all (mayEnable t) = false)
    ∧ (let t := ready.setNum 0x2006 1 1
       (allDomains.filter fun d => domWanted t d && !domWanted ready d).all (mayEnable t) = true)
    ∧ (bitList 2 8).all (bit (ready.num 0x3C00 1)) = false ∧ (bitList 1 8).all (bit (ready.num 0x3C00 1)) = true
    ∧ (bitList 1 8).all (dieReady ready) = true ∧ homeOnAllowed ready 0 = true ∧ mayEnable ready (domOfPort 0) = true
    ∧ (dqOn ready 0 31 = false ∧ bits 0x1 30 4 = 0 ∧ bit 0x1 31 = false) ∧ (dqOn running 0 0 = true ∧ 0x1 ≠ dqCtrl running 0 0)
    ∧ (bits 0 10 8 = 0 ∧ bits 0 4 0 = 0 ∧ bits 0 15 11 = 0 ∧ bits 0 7 5 = 0)
    ∧ (bits 0x80 6 5 ≤ 1 ∧ bit 0x80 7 = true ∧ slotFree ready 0 = true)
    ∧ (let u := nums [(0x3C40, 1, 0x80)] ready
       slotFree u 0 = false ∧ bit (slotBind u 0) 7 = true ∧ bit 0 7 = false)
    ∧ (ready.jobState 0 = 0 ∧ running.jobState 0 = 2) ∧ isCoord (running.setJob 0 { running.job 0 with coord := { Coord.init with acting := true } }) 0 = true
    ∧ (nums [(jobIx 0 4, 2, 1)] running).num (jobIx 0 4) 2 ≠ 0 := by dsimp only; decide

/-- SPDM on a Camip port and over DOE; sessions free, in their handshake and open; blocks and codes that are answered. -/
theorem test_witness_SpdmAndSessions :
    spdmOk (.endSession 15) = true ∧ camipUp session 0 = true
    ∧ (let s := nums [(0x2C00, 1, 1), (0x2C01, 2, 1)] ready
       packageReady s = true ∧ linkExists s 1 = true ∧ linkState s 1 ≠ 0)
    ∧ freeSession session = some 1
    ∧ (let u := (nums [(0x1120, 16, 1), (0x1121, 16, 1)] session).setSess 15 { Sess.init with roots := [[7]] }
       sessionAt u 1 15 1 = true ∧ (u.sess 15).roots.contains [7] = true ∧ (u.sess 15).roots.contains [8] = false)
    ∧ sessionAt session 0 0 2 = true ∧ (measurementOf session 6).isSome = true := by
  dsimp only; decide

/-- A port that is up, one that has its beacon, sessions in each state, and a ring with a repeat due and not. -/
theorem test_witness_IdentPlcaAndNotify :
    camipUp session 0 = true
    ∧ (let s := { session with dict := { session.dict with plca := [true, false] } }
       lget false s.dict.plca 0 = true ∧ s.num 0x1111 1 ≠ 0 ∧ s.pwr.opened = true)
    ∧ (session.Quiet ∧ timeRuns session = true ∧ session.num 0x1120 16 = 0 ∧ session.num 0x1120 1 ≠ 0)
    ∧ repeatDue ringing 63 = false
    ∧ (let s := nums [(0x5008, 1, 2), (0x1117, 1, 100)] ringing
       repeatDue s 0 = true ∧ (s.sess 0).txSeq ≤ max64 ∧ lget false s.dict.plca 0 = false) := by dsimp only [State.Quiet]; decide

/-- A word that software may post, one that it may not, and events that a ring takes and that none does. -/
theorem test_witness_PostsAreOffered :
    ready.Quiet ∧ ready.pwr.opened = true ∧ postGood (0x60 * 2 ^ 32) = true ∧ postGood 1 = false ∧ State.reset.pwr.opened = false
    ∧ takers ready { code := 0x6000, source := 0, sev := 1, job := 0x1F, payload := [], except := none } = []
    ∧ takers ringing { code := 0x6000, source := 0, sev := 1, job := 0x1F, payload := [], except := none } ≠ [] := by
  dsimp only [State.Quiet]; decide

/-- Records that are written, fail at the slot, and fail at the shadow line; rings PENDING with and without a target. -/
theorem test_witness_RecordsAndDelivery :
    (let r1 := tryWrite (ringBase ringing 0) (List.replicate 32 0) ringing
     r1.1 = true ∧ (tryWrite (ringShadow ringing 0) (List.replicate 16 0) r1.2).1 = true)
    ∧ (let s := nums [(0x5002, 1, 0x10000006)] { ringing with obj := (nums [(0x2401, 1, 3)] ringing).obj }
       (tryWrite (ringBase s 0) (List.replicate 32 0) s).1 = false)
    ∧ (let s := nums [(0x5003, 1, 0x1E00000000)] ringing
       (tryWrite (ringBase s 0) (List.replicate 32 0) s).1 = true
       ∧ (tryWrite (ringShadow s 0) (List.replicate 16 0) (tryWrite (ringBase s 0) (List.replicate 32 0) s).2).1 = false)
    ∧ (ready.num 0x5000 1 ≠ 1 ∨ ready.num 0x5008 1 ≠ 1)
    ∧ (let s := nums [(0x5008, 1, 1)] ringing
       s.num 0x5000 1 = 1 ∧ s.num 0x5008 1 = 1 ∧ (bit (s.num 0x5005 1) 61 && sessOpen s 0) = true)
    ∧ (let s := nums [(0x5008, 1, 1), (0x5005, 1, 0)] ringing
       s.num 0x5000 1 = 1 ∧ s.num 0x5008 1 = 1 ∧ bit (s.num 0x5005 1) 61 = false) := by dsimp only; decide

/-- CONS within PROD, past it and past the ring; each state of a ring; a ring that may be enabled and ones that may not. -/
theorem test_witness_RingMoves :
    (let s := nums [(0x5009, 1, 63), (0x5006, 1, 62)] ringing
     s.Quiet ∧ ringSlots s 0 = 64 ∧ ringProd s 0 = 63 ∧ ringCons s 0 = 62 ∧ (s.ring 0).lostSince = 0
     ∧ (63 + 64 - ringCons s 0 % 64) % 64 ≤ (ringProd s 0 + 64 - ringCons s 0 % 64) % 64
     ∧ (ringProd s 0 + 64 - ringCons s 0 % 64) % 64 < (61 + 64 - ringCons s 0 % 64) % 64)
    ∧ ((nums [(0x5008, 1, 2)] ringing).num 0x5008 1 = 2 ∧ (nums [(0x5008, 1, 3)] ringing).num 0x5008 1 = 3
       ∧ ringing.num 0x5008 1 < 2)
    ∧ (ringBaseOk ringing (ringing.num 0x5002 1) = true ∧ ringShadowOk ringing (ringShadow ringing 0) = true
       ∧ ringing.num 0x500A 1 ≠ 0 ∧ (tryWrite (ringShadow ringing 0) (List.replicate 64 0) ringing).1 = true)
    ∧ ringBaseOk ringing 0x40005 = false := by dsimp only [State.Quiet]; decide

/-- Harts of clusters that are on, and the edges of the window's blocks; a link that is up before and after ready; unassigned offsets. -/
theorem test_witness_WindowStores :
    ready.pwr.on = true ∧ storeWidth 1 = true ∧ hartOn ready 35 = true ∧ (∀ o ∈ [0, 0x7008, 0x10100, 0x500000, 0x70C000], (ready.hart 71).pmpOk (0x30000000000 + o) 8 true = true)
    ∧ ready.on (domHdUncore 0) = true ∧ confined.pmpOk 0x30000000008 8 true = false ∧ ctrlAssigned 0x8000 = false ∧ ctrlAssigned 0x7FF8 = true
    ∧ (let s := linked 1 1 (nums [(0x2C00, 1, 1)] ready)
       s.Quiet ∧ barReach s 1 = true ∧ packageReady s = true)
    ∧ barAssigned 0x8000 = false ∧ barAssigned 0x3FFFFFF = false
    ∧ (packageReady (doms [66] 2 opened) = false ∧ barReach (linked 0 1 (doms [66] 2 opened)) 0 = true) ∧ barEarly 0x0 = false ∧ barAssigned 0x0 = true := by dsimp only [State.Quiet]; decide

/-- Queues that run and do not, PROD at and past the end of the ring; a queue under reset with nothing in flight; a releasing slot. -/
theorem test_witness_DoorbellsAndReset :
    (running.Quiet ∧ dqState running 0 0 = 1 ∧ sub32 64 (running.queue 0 0).cons ≤ dqSlots running 0 0
      ∧ dqSlots running 0 0 < sub32 65 (running.queue 0 0).cons ∧ dqState running 7 31 ≠ 1)
    ∧ (let s := running.setQueue 0 0 { DQ.init with resetting := true }
       (s.queue 0 0).resetting = true ∧ (s.queue 0 0).order.all (·.2) = true
       ∧ ((s.die 0).ops.all fun o => !(o.queue == 0 && o.partOf.isNone)) = true)
    ∧ (let s := nums [(0x3C40, 32, 0x10)] running
       bit (slotBind s 31) 4 = true ∧ (s.dies.any fun d => d.ops.any fun o => o.slotEn && o.slot == 31) = false) := by
  dsimp only [State.Quiet]; decide

/-- An operation of queue 0 that waits, with the words given and then zeros. -/
def opOf (l : List Nat) : Op :=
  { isn := 1, queue := 0, words := l ++ List.replicate (32 - l.length) 0, phase := .waiting, status := 0, detail := 0, errorAddr := 0,
    sat := false, nonfinite := false, longRed := false, ieee := 0, sbWaited := false, partOf := none, hostWrote := [], flushed := false,
    asked := 0 }

/-- The package with operations on die 0. -/
def withOps (l : List Op) : State := running.setDie 0 { Die.init with nextIsn := 2, ops := l }

/-- A queue with a descriptor to take and one without; descriptors that are malformed, outside the job, and good. -/
theorem test_witness_DescriptorsAreTaken :
    (let s := running.setQueue 0 0 { DQ.init with prod := 1 }
     s.Quiet ∧ (s.die 0).testing = false ∧ (s.die 0).ops.length < 512 ∧ nextQueue s 0 = some 0 ∧ takeHost s 0 0 = []
     ∧ (queueRead 0 0 (dqShadow s 0 0 + 8) 4 s).1 = .ok (List.replicate 4 0) ∧ cqRoom s 0 0 0 = true
     ∧ (queueRead 0 0 (dqBase s 0 0) 256 s).1 = .ok (List.replicate 256 0))
    ∧ nextQueue running 0 = none ∧ 512 ≤ ((withOps (List.replicate 512 (opOf []))).die 0).ops.length
    ∧ ((admitOp running 0 0 (newOp 1 0 (List.replicate 256 0))).dies 0).filter (· != 0) = []
    ∧ (firstBroken (opChecks 0 (opOf [0x7F * 2 ^ 56])) = some 7)
    ∧ (firstBroken (opChecks 0 (opOf [2 ^ 52])) = none ∧ outsideJob running 0 0 (opOf [2 ^ 52]) = true)
    ∧ (firstBroken (opChecks 0 (opOf [])) = none ∧ outsideJob running 0 0 (opOf []) = false ∧ (opOf []).phase = .waiting) := by
  dsimp only [State.Quiet]; decide

/-- A notice that waits, and none; an operation that is released, and one that FENCE holds. -/
theorem test_witness_OperationsStart :
    (let s := (withOps [opOf []]).setDie 7 { Die.init with notices := [(0, 1)] }
     s.Quiet ∧ (s.die 0).ops.find? (fun o => o.isn == 1 && o.partOf.isNone) = some (opOf [])
     ∧ (s.die 7).notices.contains (0, 1) = true ∧ (s.die 7).ops.length < 512 ∧ (s.die 7).testing = false
     ∧ (s.die 6).notices.contains (0, 1) = false)
    ∧ (findOp (withOps [opOf []]) 0 1 = some (opOf []) ∧ (opOf []).waitAddr = 0 ∧ released (withOps [opOf []]) 0 (opOf []) = true)
    ∧ (let o : Op := { opOf [2 ^ 42] with isn := 2 }
       let s := withOps [opOf [], o]
       findOp s 0 2 = some o ∧ o.phase = .waiting ∧ released s 0 o = false) := by dsimp only [State.Quiet]; decide

/-- A NOP that has started does its work; a RESTORE whose rows cannot be read fails; an MMA with an empty reduction range. -/
theorem test_witness_OperationsRun :
    (let o : Op := { opOf [] with phase := .started }
     let s := withOps [o]
     let x : Ctx := { die := 0, job := 0, op := o }
     startedOp s 0 1 0 = some o ∧ awayRanges s o = [] ∧ readsOpen x s = false ∧ (remoteFailed x s).isNone = true)
    ∧ (let o : Op := opOf [0x01 * 2 ^ 56]
       let x : Ctx := { die := 0, job := 0, op := o }
       x.op.splitEng = 0 ∧ x.op.splitDie = 0 ∧ x.op.acc = false ∧ (offEngine running 0 o).isNone = true ∧ (sramRead 0 1 0 0 running).1 = false) := by
  dsimp only; decide

/-- A view of a row of one element at an address. -/
def viewAt (base fmt : Nat) : List Nat := [base, fmt * 2 ^ 60 + 1, 2 ^ 32, 64, 0, 0, 0, 0]
def noView : List Nat := List.replicate 8 0

/-- A started operation of an opcode, with slot 0 for the stash, VFUNC, KLEN and its views. -/
def refOp (op vf klen : Nat) (a b d : List Nat) : Op :=
  { opOf ([op * 2 ^ 56 + (if 0x20 ≤ op then 2 ^ 46 else 0) + vf, 0, 0, 0, klen, 0, 0, 0] ++ a ++ b ++ d) with phase := .started }

/-- Well-formed operations of each opcode. -/
def mmaOp (k : Nat) : Op := refOp k 0 1 (viewAt 0xB0000 2) (viewAt 0xB1000 2) (if k = 2 then viewAt 0xB2000 codeB32 else noView)
def drainOp : Op := refOp 3 0 0 noView noView (viewAt 0xB2000 codeB32)
def restoreOp : Op := refOp 5 0 0 (viewAt 0xB0000 codeQA40) noView noView
def vecOp (k vf fmt : Nat) : Op := refOp k vf 0 (viewAt 0xB0000 fmt) noView (viewAt 0xB2000 codeB32)
def stashOp (k : Nat) : Op := refOp k 0 0 (if k = 0x21 ∨ k = 0x22 then viewAt 0xB0000 2 else noView) noView noView

/-- The operation on die 0 for job 0. -/
def ctxOf (o : Op) : Ctx := { die := 0, job := 0, op := o }

/-- Job 0 with a region on die 0 described at 0x92000, of one layer, slot 0 described at 0x93000, and its chain at 0x94000. -/
def stashing (chain : List Byte) : State :=
  let region := leBytes 8 0x1000000 ++ leBytes 8 4096 ++ leBytes 8 0x1100000 ++ leBytes 8 (4096 * 2 ^ 32 + 1) ++ leBytes 8 0x1200000
    ++ leBytes 8 (4096 * 2 ^ 32) ++ leBytes 8 0x95000 ++ leBytes 8 (2 ^ 48 + 3 * 2 ^ 44)
  writeMem 0x92000 region (writeMem 0x93000 (List.replicate 32 0 ++ leBytes 8 0x94000)
    (writeMem 0x94000 chain (writeMem 0x95000 [1] (nums [(0x3C50, 1, 0x92000), (0x3C41, 1, 0x93000)] running))))

/-- A MARKED record of a layer of one element. -/
def markedRec : LRec := { lrecOf emptyRec with rows := 1, cols := 1, fmt := 2, state := recMarked, bytes_ := 4096 }

/-- What a part of an operation's work leaves meets a test; it fails where the part does not end well. -/
def thenMeets {α : Type} (r : Res α) (p : α → State → Bool) : Bool :=
  match r with
  | (.ok v, s) => p v s
  | _ => false

/-- The region, the record of layer 0 and the chain of the slot are there, with the vector units on. -/
def chainMeets (k : Nat) (s : State) (p : Region → Nat → Chain → LRec → State → Bool) : Bool :=
  let x := ctxOf (stashOp k)
  thenMeets (vectorUnit x s) fun _ u => thenMeets (stashCtx x u) fun c t => bit c.2.1.slotMask 0 && decide (0 < c.2.1.layers)
    && thenMeets (stashRead x c.2.2 64 t) fun h v => thenMeets (stashRead x (c.2.2 + 64) 64 v) fun r w => p c.2.1 c.2.2 (chainOf h) (lrecOf r) w

/-- Each of the eleven opcodes has a well-formed operation that has started, with no operand away and its engines on. -/
theorem test_witness_OperationsRun_forms :
    ([mmaOp 1, mmaOp 2, drainOp, restoreOp, vecOp 0x10 0 codeB32, vecOp 0x10 0 2, vecOp 0x11 0x20 codeB32] ++ [0x20, 0x21, 0x22, 0x23].map stashOp).all
      (fun o => (firstBroken (opChecks 0 o)).isNone && (offEngine running 0 o).isNone && (awayRanges running o).isEmpty
        && !readsOpen (ctxOf o) running && (remoteFailed (ctxOf o) running).isNone && findOp (withOps [o]) 0 1 == some o
        && (startedOp (withOps [o]) 0 1 o.opcode).isSome) = true := by decide

/-- What an MMA, an MMA_DRAIN, a DRAIN and a TILE_RESTORE read and write is in order. -/
theorem test_witness_OperationsRun_tiles :
    (mapRes (leafTile (ctxOf (mmaOp 1))) (List.range (2 ^ 0)) running).1.isOk = true
    ∧ thenMeets (mapRes (leafTile (ctxOf (mmaOp 2))) (List.range (2 ^ 0)) running) (fun l u =>
        (drainTile (ctxOf (mmaOp 2)) (l.headD []) u).1.isOk) = true
    ∧ thenMeets (useTile 0 0 running) (fun t u => (drainTile (ctxOf drainOp) t u).1.isOk) = true
    ∧ (leafRows (ctxOf restoreOp) 0 restoreOp.a 0 0 1 running).1.isOk = true := by decide

/-- The same of the vector operations: an arithmetic, a conversion and a reduction. -/
theorem test_witness_OperationsRun_vectors :
    thenMeets (vectorUnit (ctxOf (vecOp 0x10 0 codeB32)) running) (fun _ u =>
      thenMeets (mapRes (mapRow (ctxOf (vecOp 0x10 0 codeB32))) (List.range 1) u) fun l v => (storeRows (ctxOf (vecOp 0x10 0 codeB32)) l v).1.isOk) = true
    ∧ (convertWork (ctxOf (vecOp 0x10 0 2)) running).1.isOk = true
    ∧ thenMeets (vectorUnit (ctxOf (vecOp 0x11 0x20 codeB32)) running) (fun _ u =>
      thenMeets (mapRes (redRow (ctxOf (vecOp 0x11 0x20 codeB32))) (List.range 1) u) fun l v => (storeRows (ctxOf (vecOp 0x11 0x20 codeB32)) l v).1.isOk) = true := by
  decide

/-- The same of STASH_BEGIN on a chain that is not active, and of STASH_FREE. -/
theorem test_witness_OperationsRun_begin_free :
    chainMeets 0x20 (stashing []) (fun r c h _ u => let x := ctxOf (stashOp 0x20)
      !h.active && (regionBroken u 0 0 r).isNone && (partsAllowed x r u).1.isOk
        && (stashWrite x [(c, (newChain 0 r.layers).bytes ++ (List.replicate r.layers emptyRec).flatten)] u).1.isOk) = true
    ∧ chainMeets 0x23 (stashing ((newChain 0 1).bytes ++ markedRec.bytes)) (fun r c _ _ u => let x := ctxOf (stashOp 0x23)
      decide (x.op.layer < r.layers) && (stashRead x c 128 u).1.isOk && (freeWork x u).1.isOk) = true := by decide

/-- The same of STASH_PUT with room in the pool, with and without an entry, and of REGROW_PUT of a MARKED layer. -/
theorem test_witness_OperationsRun_puts :
    chainMeets 0x21 (stashing ((newChain 0 1).bytes ++ emptyRec)) (fun r c h rc u => let x := ctxOf (stashOp 0x21)
      h.active && h.lastPut == 0xFFFF && (sourceBroken x.op.a r).isNone && !h.overflow
        && thenMeets (stashRead x r.ckptTable 1 u) (fun t v => ckptBit t 0 && decide (h.ckptUsed + (ckptGeom x.op.a).2.2 ≤ r.ckptShare)
          && (freeRun 4096 (r.poolBase + r.poolBytes) r.poolBase (jobRuns v 0 0)).isSome && (putEntry x r c h rc true (some r.poolBase) v).1.isOk)
        && (putEntry x r c h rc true none u).1.isOk && (readAll x u).1.isOk) = true
    ∧ chainMeets 0x22 (stashing ((newChain 0 1).bytes ++ markedRec.bytes)) (fun r _ h rc u => let x := ctxOf (stashOp 0x22)
      rc.state == recMarked && (sourceDiffers x.op.a rc).isNone && decide (h.regrowUsed + rc.bytes_ ≤ r.regrowShare) && (readAll x u).1.isOk
        && (regrowWork x u).1.isOk) = true := by decide

/-- The engines of an operation are on, and are not; its staging buffer is good. -/
theorem test_witness_OperationsRun_units :
    enginesOn (ctxOf (mmaOp 1)) running = (.ok (), running) ∧ (enginesOn { ctxOf (mmaOp 1) with die := 1 } running).1.isOk = false
    ∧ (useStaging 0 0 running).1.isOk = true ∧ (mmaOp 1).splitEng = 0 ∧ (mmaOp 1).splitDie = 0 ∧ (mmaOp 1).acc = false :=
  ⟨rfl, by decide, by decide, by decide, by decide, by decide⟩

/-- Operations whose work is done, and that has not begun; a queue with completed operations before one that is not. -/
theorem test_witness_OperationsRetire :
    (let o : Op := { opOf [] with phase := .done }
     let s := withOps [o]
     let x : Ctx := { die := 0, job := 0, op := o }
     s.Quiet ∧ findOp s 0 1 = some o ∧ s.fab.remotes.any (fun r => r.owner == x.owner && r.answer.isNone) = false
     ∧ (remoteFailed x s).isNone = true ∧ o.hostWrote = [] ∧ askedHost s (.flush 0 1) = false)
    ∧ (opOf []).phase ≠ .done ∧ ([(3, false)] : List (Nat × Bool)).head?.map (·.2) ≠ some true := by
  dsimp only [State.Quiet]; decide

/-- Codes of the widest and the narrowest format; the smallest subnormal of QW16 and the smallest value of QF6. -/
theorem test_witness_FormatsAreExact :
    ((6 ≤ 8 ∧ 6 ≠ codeQR16 ∧ 2 ^ 40 - 1 < 2 ^ widthOf 6) ∧ 15 < 2 ^ widthOf 0)
    ∧ (qw16.full = true ∧ decodeF qw16 1 = .fin false 1 (-70)) ∧ (4 / 2 ^ qf6.fb % 2 ^ qf6.eb ≠ 0 ∧ decodeF qf6 4 = .fin false 4 (-5)) := by
  decide

/-- Agents that miss and that share; a line in a hint window; homes OFF and ON, with the line busy and idle. -/
theorem test_witness_RequestsReachTheHome :
    agentOk (.td 0) = true ∧ lineOk 0x40 = true ∧ lineOk 0xFFFFFFFFFFC0 = true
    ∧ (let s := homed Coh.init
       s.Quiet ∧ memOk s 0x40 = true ∧ homeOf s 0x40 = some 0 ∧ s.coh.lost.contains 2 = false ∧ s.homeState 0 ≠ 0 ∧ cacheLine s 2 0x40 = none
       ∧ ownCanopy s 2 0x40 = false ∧ biasLinks s 0x40 = [] ∧ s.coh.lost.contains 0 = false ∧ cacheLine s 0 0x40 = none
       ∧ tget [] 0x40 s.coh.waiting = [] ∧ admits s 0x40 { kind := .rdShare, agent := .td 0, data := [] } = true)
    ∧ (cacheLine (homed (lineIn 0 .s)) 0 0x40).map (·.st) = some .s
    ∧ 0x44 % 4 = 0 ∧ lineOf 0x44 = 0x40 ∧ ready.homeState 0 = 0
    ∧ admits (homed { Coh.init with txns := [(0x40, txnFor .rdShare (.td 0))] }) 0x40 { kind := .rdShare, agent := .td 1, data := [] } = false
    ∧ tget [] 0x40 (homed { Coh.init with waiting := [(0x40, [{ kind := .rdPeek, agent := .pcie, data := [] }])] }).coh.waiting ≠ [] := by
  dsimp only [State.Quiet]; decide

/-- An idle line at a home that is ON. -/
theorem test_witness_IdleLinesAreGranted :
    let s := homed Coh.init
    cacheIx (.td 0) = some 2 ∧ homeOf s 0x40 = some 0 ∧ s.homeState 0 = 1 ∧ txnOf s 0x40 = none ∧ dirOf s 0x40 = DirEntry.empty
    ∧ s.coh.dir.length + s.coh.txns.length < 16 ∧ s.coh.lost.contains 2 = false ∧ (∀ u ∈ poisonUnits s 0x40, tfind u s.merr.latent = none)
    ∧ s.coh.msgs.any (Msg.rspOn 0x40) = false ∧ memOk s 0x40 = true ∧ s.coh.waiting = [] ∧ biasLinks s 0x40 = []
    ∧ (∀ c, cacheIx (.hd 1) = some c → s.coh.lost.contains c = false) ∧ cacheLine s 2 0x40 = none ∧ cacheLine s 1 0x40 = none
    ∧ (tget [] 2 s.coh.caches).length < roomLimit 2 ∧ (tget [] 1 s.coh.caches).length < roomLimit 1 ∧ ownCanopy s 2 0x40 = false
    ∧ hintTarget s 0x40 = none ∧ isPoisoned s 0x40 = false ∧ lineOf 0x44 = 0x40 := by
  dsimp only; decide

/-- The only sharer of an idle line; a watch notice on its way. -/
theorem test_witness_IdleLinesAreGranted_forms :
    (let e : DirEntry := { sole := false, holders := 1#10 <<< 1, watch := 0 }
     let s := homed { lineIn 1 .s with dir := [(0x40, e)] }
     (cacheLine s 1 0x40).map (·.st) = some .s ∧ dirOf s 0x40 = e ∧ s.coh.dir.length + s.coh.txns.length < 16 ∧ txnOf s 0x40 = none)
    ∧ (let s := homed { Coh.init with msgs := [.watch 7 0x40], watching := [(7, 0x40)] }
       s.coh.msgs.find? (· == .watch 7 0x40) = some (.watch 7 0x40) ∧ s.coh.watching.contains (7, 0x40) = true
       ∧ s.coh.msgs.any (Msg.rspOn 0x40) = false ∧ agentOk (.wm 7) = true ∧ cacheIx (.wm 7) = none) := by dsimp only; decide

/-- Snoops of each kind that wait, on lines in each state; each message, first of its kind; a home with no message. -/
theorem test_witness_SnoopsAndMessages :
    (let t : Txn := { txnFor .rdShare (.td 0) with snoops := [(3, .share), (3, .unique), (3, .kill), (3, .peek)] }
     let s := homed { lineIn 3 .d with txns := [(0x40, t)] }
     cacheIx (.td 1) = some 3 ∧ txnOf s 0x40 = some t ∧ t.snoops.contains (3, .share) = true ∧ t.snoops.contains (3, .unique) = true
     ∧ t.snoops.contains (3, .kill) = true ∧ t.snoops.contains (3, .peek) = true ∧ t.snoops.contains (2, .share) = false
     ∧ (cacheLine s 3 0x40).map (·.st) = some .d ∧ returnsHome t.req.kind = false ∧ homeDrains s 0x40 = false ∧ requesterLost s t = false ∧ cacheLine s 2 0x40 = none
     ∧ requesterLost (homed { s.coh with lost := [2] }) t = true ∧ (cacheLine (homed (lineIn 1 .sdW)) 1 0x40).map (·.st) = some .sdW
     ∧ (tget [] 3 s.coh.caches).length ≤ roomLimit 3 ∧ (tget [] 1 (homed (lineIn 1 .sdW)).coh.caches).length ≤ roomLimit 1
     ∧ returnsHome (.wrMasked 1) = true ∧ agentError 3 0x40 s = s)
    ∧ ((cacheLine (homed (lineIn 3 .diW)) 3 0x40).map (·.st) = some .diW ∧ (cacheLine (homed (lineIn 3 .ciW)) 3 0x40).map (·.st) = some .ciW)
    ∧ (let s := homed { Coh.init with
         txns := [(0x40, txnFor .rdPeek (.td 0))],
         msgs := [.rsp 0 3 0x40 none, .rsp 1 3 0x40 none, .rsp 2 3 0x40 none, .rsp 3 3 0x40 none, .ackGrant (.td 0) 0x40,
           .rsp 2 4 0x40 (some ([], false)), .rsp 1 4 0x40 (some ([], false))] }
       s.coh.msgs.find? (Msg.isRsp 0 3 0x40) = some (.rsp 0 3 0x40 none) ∧ s.coh.msgs.find? (Msg.isRsp 1 3 0x40) = some (.rsp 1 3 0x40 none)
       ∧ s.coh.msgs.find? (Msg.isRsp 2 3 0x40) = some (.rsp 2 3 0x40 none) ∧ s.coh.msgs.find? (Msg.isRsp 3 3 0x40) = some (.rsp 3 3 0x40 none)
       ∧ s.coh.msgs.find? (Msg.isRsp 2 4 0x40) = some (.rsp 2 4 0x40 (some ([], false)))
       ∧ s.coh.msgs.find? (Msg.isRsp 1 4 0x40) = some (.rsp 1 4 0x40 (some ([], false)))
       ∧ ReqKind.peeks .rdPeek = true ∧ ReqKind.peeks .rdShare = false ∧ homeOf s 0x40 = some 0
       ∧ s.coh.msgs.find? (· == .ackGrant (.td 0) 0x40) = some (.ackGrant (.td 0) 0x40))
    ∧ (let s := homed { lineIn 3 .diW with msgs := [.ev true 3 0x40 [] false, .ev false 3 0x40 [] false, .ackEv 3 0x40, .ackWr .pcie 0x40,
         .watch 0 0x40, .old (.hd 0) 0x40 0 0x44 9 false false, .dat (.td 1) 0x40 (some .s) (some ([], false)) false true], watching := [(0, 0x40)] }
       s.Quiet ∧ s.coh.msgs.find? (Msg.isEv true 3 0x40) = some (.ev true 3 0x40 [] false) ∧ txnOf s 0x40 = none
       ∧ txnOf (sendMsg (.ackEv 3 0x40) (dropHolder 3 0x40 (memWriteBack 0x40 [] false s))) 0x40 = none
       ∧ s.coh.msgs.find? (Msg.isEv false 3 0x40) = some (.ev false 3 0x40 [] false)
       ∧ s.coh.msgs.find? (· == .ackEv 3 0x40) = some (.ackEv 3 0x40) ∧ (cacheLine s 3 0x40).map (·.st) = some .diW
       ∧ s.coh.msgs.find? (· == .ackWr .pcie 0x40) = some (.ackWr .pcie 0x40)
       ∧ s.coh.msgs.find? (· == .watch 0 0x40) = some (.watch 0 0x40) ∧ s.coh.watching.contains (0, 0x40) = true
       ∧ s.coh.msgs.find? (Msg.isDat (.td 1) 0x40) = some (.dat (.td 1) 0x40 (some .s) (some ([], false)) false true)
       ∧ s.coh.msgs.find? (Msg.isDat (.hd 0) 0x40) = none
       ∧ s.coh.msgs.find? (Msg.isOld (.hd 0) 0x40) = some (.old (.hd 0) 0x40 0 0x44 9 false false))
    ∧ (let t := { txnFor (.atomic 0 0x44 4 .add 1) (.hd 0) with done := true }
       txnOf (homed { Coh.init with txns := [(0x40, t)] }) 0x40 = some t ∧ t.req.agent = .hd 0 ∧ t.done = true)
    ∧ (homed Coh.init).coh.msgs = [] := by dsimp only [State.Quiet]; decide

/-- Lines in D, C and S and one not held; agents that may be lost, one of which alone holds a line. -/
theorem test_witness_LinesLeave :
    (homed (lineIn 9 .d)).Quiet ∧ cacheIx (.td 7) = some 9 ∧ (cacheLine (homed (lineIn 9 .d)) 9 0x40).map (·.st) = some .d
    ∧ (cacheLine (homed (lineIn 9 .c)) 9 0x40).map (·.st) = some .c ∧ (cacheLine (homed (lineIn 9 .s)) 9 0x40).map (·.st) = some .s
    ∧ cacheLine (homed Coh.init) 9 0x40 = none ∧ (homed Coh.init).coh.lost.contains 9 = false
    ∧ (∀ v ∈ [CacheSt.d, .c, .s], agentError 9 0x40 (homed (lineIn 9 v)) = homed (lineIn 9 v))
    ∧ (let e : DirEntry := { sole := true, holders := 1#10 <<< 9, watch := 0 }
       let s := homed { Coh.init with dir := [(0x40, e)] }
       s.coh.txns = [] ∧ e.holders.toNat.testBit 9 = true ∧ homeOf s 0x40 = some 0
       ∧ (count 0x5855 1 1 (dropHolder 9 0x40 (poisonLine 0x40 s))).coh.txns = []) := by dsimp only [State.Quiet]; decide

/-- Words that trap, by alignment, by the PMP and in a hole; lines in each effective mode, in D in the hart's die and not, with reservations on it, on another line and none. -/
theorem test_witness_HartsDoAtomics :
    (atomicTrap ready 0 0x45 4 true = some 6 ∧ atomicTrap ready 0 0x45 4 false = some 4 ∧ memOk ready 0xF000000000 = false
      ∧ confined.pmpOk 0x44 4 true = false ∧ confined.pmpOk 0x44 4 false = false
      ∧ (ready.hart 0).pmpOk 0x44 4 true = true ∧ (ready.hart 71).pmpOk 0x44 4 false = true)
    ∧ (0x41 % 4 ≠ 0 ∧ 0x44 % 4 = 0 ∧ memOk ready 0x44 = true ∧ lineMode ready 0x40 = 3 ∧ (atomicAt .add 0x44 4 1 ready).1 = (0, false)
      ∧ (cohReadLine 0x40 ready).1 = (List.replicate 64 0, false))
    ∧ lineMode (nums [(0x2802, 1, 2)] (homed Coh.init)) 0x40 = 2
    ∧ (let s := nums [(0x2802, 1, 0), (0x2803, 1, 2)] (homed Coh.init)
       lineMode s 0x40 = 0 ∧ tget 0 (predKey 0 0x44) s.coh.pred < s.num 0x2803 1 ∧ cacheLine s 0 0x40 = none
       ∧ (let u := { s with coh := { s.coh with pred := [(predKey 0 0x44, 3)] } }
          lineMode u 0x40 = 0 ∧ u.num 0x2803 1 ≤ tget 0 (predKey 0 0x44) u.coh.pred))
    ∧ (∀ v ∈ [CacheSt.s, .isW, .diW], (cacheLine (homed (lineIn 1 v)) (71 / 36) 0x40).map (·.st) = some v)
    ∧ (let s := nums [(0x2802, 1, 1)] (homed (lineIn 1 .d))
       lineMode s 0x40 = 1 ∧ (cacheLine s 1 0x40).map (fun y => (y.st, y.poisoned)) = some (.d, false))
    ∧ (ready.Quiet ∧ tfind 71 ready.coh.resv = none)
    ∧ (let s := { ready with coh := { Coh.init with resv := [(71, { line := 0x40, atHome := true })] } }
       (tfind 71 s.coh.resv).map (fun r => (r.line, r.atHome)) = some (0x40, true) ∧ lineOf 0x44 = 0x40 ∧ lineOf 0x84 ≠ 0x40) := by
  dsimp only [State.Quiet]; decide

/-- Lines of memory and of the host window with its link ATTACHED and not; lines in D and C in the hart's die, and an address outside memory. -/
theorem test_witness_StoresAndCacheOperations :
    (hostOf ready 0x40 = none ∧ memOk ready 0x40 = true ∧ hostOf ready 0x800000000040 = some 0x40)
    ∧ (linkAttached (linked 0 2 ready) 0 = true ∧ linkAttached ready 0 = false
      ∧ hostParts ready 0x40 8 = [(0, 0x40, 8)] ∧ hostParts ready 0x40 64 = [(0, 0x40, 64)])
    ∧ (ready.Quiet ∧ isDevice ready 0xF000000000 = false ∧ isDevice ready 0x40 = true)
    ∧ (hostOf ready 0xF000000000 = none ∧ memOk ready 0xF000000000 = false ∧ confined.pmpOk 0x40 64 true = false
      ∧ (ready.hart 71).pmpOk 0x40 64 true = true ∧ (ready.hart 71).pmpOk 0x800000000040 64 true = true)
    ∧ (let c := lineIn 1 .d
       let s := homed { c with l1d := [(71, [0x40])], l2 := [(71, [0x40])] }
       levelHolds s 1 1 71 0x40 = true ∧ levelHolds s 1 2 71 0x40 = true ∧ levelHolds s 1 3 71 0x40 = false ∧ levelHolds (homed c) 1 3 71 0x40 = true)
    ∧ ((cacheLine (homed (lineIn 1 .d)) (71 / 36) (lineOf 0x44)).map (·.st) = some .d
      ∧ (cacheLine (homed (lineIn 1 .c)) (71 / 36) (lineOf 0x44)).map (·.st) = some .c) := by dsimp only [State.Quiet]; decide

/-- Port 0 in a state, with what it keeps. -/
def portAt (v : Nat) (x : Port) : State := nums [(0x3001, 1, v)] (ready.setPort 0 x)

/-- A port in each of its states, on the backplane and not, with an identity that is expected and one that is not. -/
theorem test_witness_PortsTrain :
    (let s := portAt 2 Port.init
     s.Quiet ∧ portState s 0 = 2 ∧ (s.port 0).cmisOk = false ∧ isBackplane s 0 = false
     ∧ isBackplane (nums [(0x7001, 4, 1)] s) 0 = true)
    ∧ (portAt 2 Port.init).on domNet = true ∧ ((portAt 2 Port.init).setDomain domNet 4).on domNet = false
    ∧ (let s := portAt 2 { Port.init with cmisOk := true }
       s.Quiet ∧ portState s 0 = 2 ∧ (s.port 0).cmisOk = true)
    ∧ timeRuns ready = true ∧ timeRuns (nums [(0x6003, 2, 0)] ready) = false
    ∧ (portAt 3 Port.init).Quiet ∧ portState (portAt 3 Port.init) 0 = 3 ∧ portState (portAt 5 Port.init) 0 = 5
    ∧ portState (portAt 6 Port.init) 0 = 6 ∧ portState (portAt 1 Port.init) 0 = 1 ∧ portState (portAt 4 Port.init) 0 = 4
    ∧ (let f : Frame := { w0 := 0, w1 := 0, w2 := 0, w3 := 0, payload := [5], crc := 0 }
       let s := portAt 3 { Port.init with ident := some f }
       (s.port 0).ident = some f ∧ miswired s 0 5 0 = false ∧ miswired (nums [(0x3003, 1, 6)] s) 0 5 0 = true) := by
  dsimp only [State.Quiet]; decide

/-- A unit without a frame whose CRC is that of its prefix. -/
def bareUnit (bad : Bool) : LinkUnit :=
  { word := 0, frame := none, crc := crc32 (List.replicate 8 0) + b2n bad, fecBad := false }

/-- A DATA frame with no payload, of JOB_ID 9 to device 1. -/
def frameOf (type epoch src dst chan seq : Nat) : Frame :=
  mkFrame ready { type := type, jobId := 9, epoch := epoch, chan := chan, seq := seq, src := src, dst := dst }

/-- Good and bad units at a port that runs, and at one that does not; units in the replay buffer, below the limit and at it; sequence
numbers expected, later and earlier. -/
theorem test_witness_LinkUnitsAreTaken :
    (let u : HopUnit := { seq := 0, vl := 2, frame := frameOf 1 4 2 1 0 0, resends := 0 }
     let s := portAt 4 { Port.init with unacked := [u] }
     portState s 0 = 4 ∧ (bareUnit false).fecBad = false ∧ unitGood (bareUnit false) = true ∧ (bareUnit true).fecBad = false
     ∧ unitGood (bareUnit true) = false ∧ (s.port 0).rxDiscard = false ∧ (s.port 0).unacked ≠ []
     ∧ (s.port 0).unacked.any (fun u => decide (s.num 0x3012 1 ≤ u.resends)) = false
     ∧ (let t := portAt 4 { Port.init with unacked := [{ u with resends := 255 }] }
        (t.port 0).unacked.any (fun u => decide (t.num 0x3012 1 ≤ u.resends)) = true))
    ∧ (portState (portAt 6 Port.init) 0 ≠ 3 ∧ portState (portAt 6 Port.init) 0 ≠ 4 ∧ (portAt 6 Port.init).Quiet)
    ∧ (let s := portAt 4 { Port.init with rxNext := 3 }
       seqCmp 16 3 (s.port 0).rxNext = .expected ∧ (frameOf 1 4 2 1 0 0).type ≠ 8
       ∧ frameUnits (frameOf 1 4 2 1 0 0) ≤ rxRoom (s.port 0) 2 ∧ seqCmp 16 4 (s.port 0).rxNext = .later
       ∧ seqCmp 16 2 (s.port 0).rxNext = .earlier ∧ (s.port 0).rxDiscard = false) := by
  dsimp only [State.Quiet]; decide

/-- Job 0 with a route table at 0x60000 that keeps device 1 here and sends device 2 through port 5, and a channel table at 0x70000 whose
channel 0 receives from device 2, with frames that await routing. -/
def routed (l : List Frame) : State :=
  let s := nums [(0x3020, 1, 0x60000), (0x3021, 1, 0x70000), (0x3022, 1, 1)] running
  { writeMem 0x70000 (leBytes 8 (2 * 2 ^ 50 + 2 * 2 ^ 48)) (writeMem 0x60001 [0xFE, 5] s) with fab := { s.fab with localq := l } }

/-- Frames of each type for this package at the head of their lanes; frames that break their form, have no job, and go on. -/
theorem test_witness_FramesAreRouted :
    ingressOk none = true
    ∧ (let f := frameOf 1 4 2 1 0 0
       laneHead (routed [f]) (laneKey none 2) = some f ∧ forHere 1 (routed [f]) f = true)
    ∧ (let f := frameOf 2 4 2 1 0 0
       laneHead (routed [f]) (laneKey none 0) = some f ∧ forHere 2 (routed [f]) f = true)
    ∧ forHere 4 (routed []) (frameOf 4 4 2 1 0 0) = true ∧ forHere 9 (routed []) (frameOf 9 4 2 1 0 0) = true
    ∧ vlOf 4 = 0 ∧ vlOf 9 = 0 ∧ vlOf 5 = 1 ∧ vlOf 7 = 3
    ∧ (let f := frameOf 3 4 2 1 0 0
       laneHead (routed [f]) (laneKey none 1) = some f ∧ forHere 3 (routed [f]) f = true)
    ∧ forHere 5 (routed []) (frameOf 5 4 2 1 0 0) = true
    ∧ (let f := frameOf 6 4 2 1 0 0
       laneHead (routed [f]) (laneKey none 3) = some f ∧ forHere 6 (routed [f]) f = true)
    ∧ forHere 7 (routed []) (frameOf 7 4 2 1 0 0) = true
    ∧ frameOk { frameOf 1 4 2 1 0 0 with w3 := 1 } = false := by
  dsimp only; decide

theorem test_witness_FramesAreRouted_paths :
    (let f := frameOf 1 4 2 1 0 0
     let s := routed [f]
     frameOk f = true ∧ frameJob s f.jobId = some 0 ∧ s.fab.taken.contains (laneKey none 2) = false ∧ (routeOf 0 1 s).1 = .here
     ∧ (routeOf 0 2 s).1 = .port 5 ∧ f.hops ≠ 0)
    ∧ (let f := { frameOf 1 4 2 1 0 0 with w0 := 2 ^ 60 + 2 ^ 56 + 8 * 2 ^ 44 + 4 * 2 ^ 28 }
       frameOk f = true ∧ frameJob (routed [f]) f.jobId = none
       ∧ jobOfId (count 0x5865 (ingressSub none) 1 (leaveLane none 2 f (routed [f]))) f.jobId = none) := by
  dsimp only; decide

/-- Frames whose end-to-end CRC is wrong and right, of a closed job, of another epoch, and DATA frames on a channel that receives. -/
theorem test_witness_FramesAreRouted_delivery :
    (let f := frameOf 1 4 2 1 0 0
     let g := { f with crc := f.crc + 1 }
     g.crcOf ≠ g.crc ∧ f.crcOf = f.crc ∧ f.type ≠ 6 ∧ f.type ≠ 7 ∧ (frameOf 6 4 2 1 0 0).crcOf = (frameOf 6 4 2 1 0 0).crc)
    ∧ (let s := routed []
       (s.job 0).closedPorts = false ∧ (s.setJob 0 { s.job 0 with closedPorts := true }).job 0 = { s.job 0 with closedPorts := true }
       ∧ (frameOf 1 4 2 1 0 0).epoch ≠ (s.job 0).linkEpoch ∧ (frameOf 1 0 2 1 0 0).epoch = (s.job 0).linkEpoch
       ∧ (chanOf s 0 0).dir = 2 ∧ (chanOf s 0 0).peer = 2 ∧ (chanOf s 0 1).dir ≠ 2)
    ∧ seqCmp 32 0 0 = .expected ∧ seqCmp 32 0 1 = .earlier ∧ seqCmp 32 1 0 = .later := by
  dsimp only; decide

/-- A frame with which device 2 reads or writes the line at an address. -/
def remoteFrame (type addr : Nat) (l : List Byte) (n : Nat) : Frame :=
  mkFrame ready { type := type, jobId := 9, epoch := 0, src := 2, dst := 1, addr := addr, rlen := n, payload := l }

/-- Good remote requests of each kind, at the head of their lane, and one to a hole. -/
theorem test_witness_FramesAreRouted_remote :
    (∀ f ∈ [remoteFrame 2 0x40 [] 64, remoteFrame 4 0x40 (List.replicate 64 1) 0, remoteFrame 9 0x40 (List.replicate 72 1) 0],
      remoteStatus (routed [f]) 0 f = 0 ∧ laneHead (routed [f]) (laneKey none 0) = some f ∧ forHere f.type (routed [f]) f = true ∧ frameOk f = true
      ∧ f.crcOf = f.crc ∧ f.epoch = ((routed [f]).job 0).linkEpoch)
    ∧ remoteStatus (routed []) 0 (remoteFrame 2 0xF000000000 [] 64) = 1 := by decide

/-- Job 0 with a send ring of 64 descriptors at 0x40000 that is open. -/
def sending : State :=
  let s := nums [(0x3023, 1, 0x40006)] running
  s.setJob 0 { s.job 0 with sendStopped := false, sendProd := 1 }

/-- Doorbells within the ring and beyond it; a descriptor that breaks R289 and a good one with its payload; lanes that hold a frame and
none; lanes that wait for room. -/
theorem test_witness_SendRingsAndTimeouts :
    sending.Quiet ∧ isRunning sending 0 = true ∧ sendRingOn sending 0 = true ∧ (sending.job 0).sendStopped = false
    ∧ sub32 (64 % 2 ^ 32) (sending.job 0).sendCons ≤ sendSlots sending 0
    ∧ sendSlots sending 0 < sub32 (65 % 2 ^ 32) (sending.job 0).sendCons ∧ sendNext (sending.job 0) ≠ (sending.job 0).sendProd
    ∧ (jobRead 0 (sendBase sending 0) 64 sending).1 = .ok (List.replicate 64 0)
    ∧ sendBad sending 0 (List.replicate 64 0) = some 7
    ∧ (let l := leBytes 8 (6 * 2 ^ 60 + 2 * 2 ^ 38 + 64) ++ List.replicate 56 0
       sendBad sending 0 l = none ∧ (jobRead 0 (fieldOf l 8 8) (fieldOf l 0 8 % 2 ^ 13) sending).1 = .ok (List.replicate 64 0))
    ∧ isRunning ready 0 = false ∧ ready.Quiet ∧ timeRuns ready = true ∧ timeRuns (nums [(0x6003, 2, 0)] sending) = false
    ∧ (let s := ready.setPort 0 { Port.init with rx := [[frameOf 1 4 2 1 0 0], [], [], []] }
       lget [] (s.port 0).rx 0 ++ lget [] (s.port 0).tx 0 ≠ [] ∧ lget [] (s.port 0).rx 1 ++ lget [] (s.port 0).tx 1 = []) := by
  dsimp only [State.Quiet]; decide

theorem test_witness_SendRingsAndTimeouts_lanes :
    ingressOk none = true ∧ ready.fab.taken.contains (laneKey none 2) = false ∧ ready.fab.taken.contains (laneKey none 3) = false
    ∧ (let f := frameOf 1 0 2 1 0 0
       let s := routed [f]
       let s := { s with fab := { s.fab with taken := [laneKey none 2] } }
       s.fab.taken.contains (laneKey none 2) = true ∧ laneHead s (laneKey none 2) = some f
       ∧ (routeFrame none 2 f s).fab.taken.contains (laneKey none 3) = false) := by
  dsimp only; decide

/-- Job 0 on a ring of two members, with a collective queue of 64 slots at 0x40000, its shadow at 0x50000, and collectives on path 0. -/
def collecting (l : List Coll) : State :=
  let r : PathRec := { PathRec.unused with kind := 1, sendCh := 1, recvCh := 0 }
  let s := nums [(0x3801, 1, 0x40006), (0x3802, 1, 0x50000)] running
  s.setJob 0 { s.job 0 with colls := lset (List.replicate 16 []) 0 l, colProd := 1,
                            topo := some { n := 2, ownRank := 0, paths := [r], members := [1, 2] } }

/-- A collective of a kind at the root, of one element. -/
def collOf (kind : Nat) : Coll := newColl 0 (leBytes 8 (kind * 2 ^ 60) ++ List.replicate 16 0 ++ leBytes 8 (2 ^ 32) ++ List.replicate 32 0)

/-- Doorbells within the queue and beyond it; a descriptor of NOP that is good, and one that breaks R305. -/
theorem test_witness_CollectivesWork :
    (let s := collecting []
     s.Quiet ∧ isRunning s 0 = true ∧ colQueueOn s 0 = true ∧ sub32 64 (s.num 0x3804 1) ≤ colSlots s 0
     ∧ colSlots s 0 < sub32 65 (s.num 0x3804 1) ∧ takesWork s 0 = true ∧ (s.job 0).colProd ≠ s.num 0x3804 1 ∧ s.num 0x3803 1 = 0
     ∧ (s.job 0).colls.all (fun l => decide (l.length < 256)) = true
     ∧ (jobRead 0 (colBase s 0) 64 s).1 = .ok (List.replicate 64 0)
     ∧ lowestBad (collChecks (s.topo 0) (newColl 0 (List.replicate 64 0))) = none
     ∧ lowestBad (collChecks (s.topo 0) (newColl 0 (1 :: List.replicate 63 0))) = some 0)
    ∧ isRunning ready 0 = false ∧ (ready.job 0).colProd = ready.num 0x3804 1 := by
  dsimp only [State.Quiet]; decide

/-- A collective of a kind that waits for a count of 5 at 0xC0000. -/
def collWaits (kind : Nat) : Coll :=
  newColl 0 (leBytes 8 (kind * 2 ^ 60) ++ List.replicate 16 0 ++ leBytes 8 (2 ^ 32) ++ List.replicate 16 0 ++ leBytes 8 0xC0000
    ++ leBytes 8 (5 * 2 ^ 32))

/-- Collectives of each kind that may start and that wait, that have started with and without the frames they need, and that are done, in
a job that runs and, of a Prism, in one that switches. -/
theorem test_witness_CollectivesWork_paths :
    (∀ k ∈ [0, 1, 2, 3], workingColl (collecting [collOf k]) 0 0 k = some (collOf k) ∧ pathWorks (collecting [collOf k]) 0 0 = true
      ∧ (collOf k).started = false ∧ (collOf k).waitAddr = 0 ∧ prismMay (collecting [collOf k]) 0 = true
      ∧ workingColl (collecting [collWaits k]) 0 0 k = some (collWaits k) ∧ (collWaits k).started = false
      ∧ workingColl (collecting [{ collOf k with started := true }]) 0 0 k = some { collOf k with started := true }
      ∧ workingColl (collecting []) 0 0 k = none)
    ∧ (let s := collecting []
       prismMay (s.setJob 0 { s.job 0 with switching := some (1, 5) }) 0 = false)
    ∧ (let c := { collOf 1 with started := true }
       let s := collecting [c]
       s.Quiet ∧ heads s 0 (rolesOf (s.topo 0) ((s.topo 0).path 0) c).1 = none
       ∧ (let s := s.setJob 0 { s.job 0 with inbox := [(0, [List.replicate 66 0])] }
          heads s 0 (rolesOf (s.topo 0) ((s.topo 0).path 0) c).1 = some [List.replicate 66 0]
          ∧ (∀ ch ∈ (rolesOf (s.topo 0) ((s.topo 0).path 0) c).1, ∀ l ∈ (inboxOf s 0 ch).head?, l.length = 66 * (frameBlocks c c.next).2)
          ∧ (frameBlocks c c.next).2 = 1
          ∧ (contribution 0 0 1 c (popInbox 0 [0] s)).1.isOk = true))
    ∧ (∀ k ∈ [0, 3], let c := { collOf k with fin := true }
       let s := collecting [c]
       collsOf s 0 0 = [c] ∧ c.fin = true ∧ pathWorks s 0 0 = true ∧ framesHeld s 0 c = false ∧ s.jobState 0 ≠ 3
       ∧ (let s := nums [(jobIx 0 1, 1, 3)] s
          collsOf s 0 0 = [c] ∧ pathWorks s 0 0 = true ∧ framesHeld s 0 c = false ∧ s.jobState 0 = 3)) := by
  dsimp only [State.Quiet]; decide

theorem test_witness_CollectivesWork_start :
    waitRead 0 0 0 (collecting [collOf 1]) = (.ok true, collecting [collOf 1])
    ∧ memberOf 0 (collOf 1) (collecting [collOf 1]) = (.ok true, collecting [collOf 1])
    ∧ (waitRead 0 0xC0000 5 (collecting [collWaits 1])).1.toOption = some false := ⟨rfl, rfl, rfl⟩

/-- Blocks poisoned, and two of one exponent whose sums fit. -/
theorem test_witness_BlocksCombine :
    (poisonBlock 32 false false).poisoned = true
    ∧ (let a := blockOfInts 5 (List.replicate 32 7) false
       a.poisoned = false ∧ (List.zipWith (· + ·) a.ints a.ints).all qr16Fits = true) := by decide

/-- Job 0 with a running landing queue of 64 slots at 0x40000, its shadow at 0x50000, and operations taken. -/
def landing (l : List LuOp) : State :=
  let s := nums [(0x3807, 1, 0x40006), (0x3808, 1, 0x50000), (0x3812, 1, 1), (0x3805, 1, 0x80000)] running
  s.setJob 0 { s.job 0 with luOps := l }

/-- A landing operation of a kind. -/
def luOf (kind : Nat) : LuOp := newLuOp 0 (leBytes 8 (kind * 2 ^ 60) ++ List.replicate 56 0)

/-- One that waits for a count of 5 at 0xC0000. -/
def luWaits (kind : Nat) : LuOp :=
  newLuOp 0 (leBytes 8 (kind * 2 ^ 60) ++ List.replicate 32 0 ++ leBytes 8 0xC0000 ++ leBytes 8 (5 * 2 ^ 32) ++ List.replicate 8 0)

/-- Doorbells within the queue and beyond it; an operation of each kind that a landing unit has reached, with its wait met and not, and
none; operations done, well and with a failure. -/
theorem test_witness_LandingQueueRuns :
    (let s := landing []
     isRunning s 0 = true ∧ luQueueOn s 0 = true ∧ luRunning s 0 = true ∧ sub32 64 (s.job 0).luCons ≤ luSlots s 0
     ∧ luSlots s 0 < sub32 65 (s.job 0).luCons ∧ s.Quiet ∧ (s.job 0).luOps.find? (fun o => o.done && !o.completed) = none)
    ∧ luRunning ready 0 = false
    ∧ (∀ k ∈ [0, 1, 2, 3], luReady (landing [luOf k]) 0 k = some (luOf k) ∧ (luOf k).waitAddr = 0
      ∧ luReady (landing [luWaits k]) 0 k = some (luWaits k) ∧ luReady (landing []) 0 k = none)
    ∧ (∀ v ∈ [0, 1], let o := { luOf 1 with done := true, status := v }
       [o].find? (fun o => o.done && !o.completed) = some o ∧ o.status = v) := by
  dsimp only [State.Quiet]; decide

theorem test_witness_LandingQueueRuns_wait :
    takeLuAll 0 (landing [luOf 1]) = landing [luOf 1]
    ∧ waitRead 0 0 0 (landing [luOf 1]) = (.ok true, landing [luOf 1])
    ∧ takeLuAll 0 (landing [luWaits 1]) = landing [luWaits 1]
    ∧ (waitRead 0 0xC0000 5 (landing [luWaits 1])).1.toOption = some false := ⟨rfl, rfl, rfl, rfl⟩

/-- A layer descriptor of 64 rows and columns with rank 1 at its owner, and where it lies. -/
def layerBytes : List Byte :=
  leBytes 8 (2 ^ 50 + 2 ^ 38) ++ leBytes 4 64 ++ leBytes 4 64 ++ leBytes 8 0x100000 ++ leBytes 8 0 ++ leBytes 8 0x200000
    ++ leBytes 8 0x300000 ++ leBytes 8 0x400000 ++ leBytes 8 0x500000 ++ leBytes 8 0x600000 ++ leBytes 4 0 ++ leBytes 4 0
    ++ leBytes 4 0x3F000000 ++ leBytes 4 0x3F000000 ++ leBytes 4 0x3F800000 ++ leBytes 4 0x3F800000 ++ List.replicate 32 0

/-- A layer that may be worked on, whose basis and norm may be written and whose clip factor is 1; and one that cannot be used. -/
theorem test_witness_LandingQueueRuns_layer :
    layerOk layerBytes = true ∧ (layerOf layerBytes).owner = ((landing []).job 0).desc.device
    ∧ (luLayer 0 (luOf 1) (writeMem 0x80000 layerBytes (landing []))).1 = .ok (layerOf layerBytes)
    ∧ (luLayer 0 (luOf 1) (landing [])).1.isOk = false ∧ (luWrite 0 [(0x500000, [0])] (landing [])).1 = none ∧ (luWrite 0 [(2 ^ 60, [0])] (landing [])).1 ≠ none
    ∧ (let s := writeMem 0x80000 layerBytes (landing [])
       (normValue 0 (luOf 2) (layerOf layerBytes) s).1.isOk = true ∧ (clipFactor 0 (luOf 3) s).1.isOk = true
       ∧ (readCodes 0 4 (layerOf layerBytes).stateAddr 16 s).1.isOk = true) := by decide

/-- Job 0 in a state. -/
def jobIn (v : Nat) : State := nums [(jobIx 0 1, 1, v)] running

/-- A context that is IDLE, and one that is not; a watchdog that runs. -/
theorem test_witness_JobControl :
    (jobIn 2).jobState 0 ≠ 0 ∧ (jobIn 0).jobState 0 = 0 ∧ timeRuns (nums [(0x6003, 1, 1)] ready) = true
    ∧ (let s := nums [(jobIx 0 3, 3, 5)] running
       let s := s.setJob 0 { s.job 0 with watchdog := true }
       (s.job 0).watchdog = true ∧ s.num (jobIx 0 3) 3 ≠ 0)
    ∧ running.Quiet ∧ (running.job 0).watchdog = false := by dsimp only [State.Quiet]; decide


/-- A descriptor that cannot be used: its first bytes are all 0; and how its reading ends. -/
theorem test_witness_JobControl_start : (match (readDesc 0 (jobIn 0)).1 with | .error _ => true | .ok _ => false) = true := by decide

/-- A message of a code and a length, of epoch 0. -/
def msgOf (code n : Nat) : List Byte := BitVec.ofNat 8 code :: List.replicate (n - 1) 0

/-- A message of each code for a member in the states in which it acts. -/
theorem test_witness_SignedMessages :
    (jobIn 2).jobState 0 ≠ 0 ∧ (jobIn 2).jobState 0 ≠ 6 ∧ (jobIn 2).jobState 0 ≠ 7 ∧ (jobIn 1).jobState 0 = 1
    ∧ (∀ c ∈ [0x24, 0x26, 0x28, 0x25], fieldOf (msgOf c 160) 0 1 = c ∧ (msgOf c 160).length = 160 ∧ msgEpoch (msgOf c 160) = (jobIn 2).jobEpoch 0)
    ∧ fieldOf (msgOf 0x22 384) 0 1 = 0x22 ∧ (msgOf 0x22 384).length = 384 ∧ msgEpoch (msgOf 0x22 384) = (jobIn 2).jobEpoch 0
    ∧ ((jobIn 2).job 0).accepted.find? (fun e => e.1 == fieldOf (msgOf 0x22 384) 6 2) = none := by decide

/-- Job 0 with this package as its coordinator, and members 1 and 2. -/
def coordinating : State :=
  let s := nums [(0x380B, 1, 1)] (collecting [])
  s

/-- Records of each code at the coordinator and elsewhere; a stem record that is not the last of its step. -/
theorem test_witness_CoordinatorTakesRecords :
    isCoord coordinating 0 = true ∧ isCoord ready 0 = false ∧ ready.Quiet ∧ hears coordinating 0 = true ∧ hears ready 0 = false
    ∧ (let s := nums [(0x380B, 1, 7), (jobIx 0 2, 2, 1)] (jobIn 2)
       isCoord s 0 = false ∧ hears s 0 = true)
    ∧ (∀ c ∈ [0x20, 0x21, 0x23, 0x27, 0x29], ctrlClear ((msgOf c 64).set 1 1) = false ∧ msgEpoch ((msgOf c 64).set 1 1) = coordinating.jobEpoch 0)
    ∧ (∀ c ∈ [0x20, 0x21, 0x23, 0x27, 0x29], msgEpoch (msgOf c 64) = coordinating.jobEpoch 0 ∧ fieldOf (msgOf c 64) 0 1 = c)
    ∧ (∀ c ∈ [1, 2], fieldOf (msgOf c 64) 4 2 = coordinating.jobEpoch 0 ∧ fieldOf (msgOf c 64) 0 1 = c)
    ∧ (let c := (coordinating.job 0).coord
       c.listed = none ∧ (membersOf coordinating 0).contains 2 = true ∧ c.stems.any (fun r => r.1 == 5 && r.2.1 == 2) = false
       ∧ ((c.stems ++ [((5 : Nat), (2 : Nat), true)]).filter (fun r => r.1 == 5)).length ≠ (membersOf coordinating 0).length) := by dsimp only [State.Quiet]; decide

/-- Jobs that take work and that do not; a coordinator with records of a step, with members alive, and in a restart that is late. -/
theorem test_witness_ListsAndTimers :
    takesWork (jobIn 2) 0 = true ∧ takesWork ready 0 = false ∧ ready.Quiet ∧ timeRuns (nums [(0x6003, 1, 1)] ready) = true
    ∧ fieldOf (msgOf 3 160) 0 1 = 3 ∧ fieldOf (msgOf 3 160) 4 2 = (jobIn 2).jobEpoch 0
    ∧ (let s := coordinating
       let s := nums [(0x380C, 1, 1)] (setCoord 0 { (s.job 0).coord with stems := [(5, 2, true)] } s)
       isCoord s 0 = true ∧ (s.job 0).coord.listed = none ∧ 1 ≤ ((s.job 0).coord.stems.filter (·.1 == 5)).length
       ∧ s.num 0x380C 1 ≤ ((s.job 0).coord.stems.filter (·.1 == 5)).length ∧ 2 ≠ (s.job 0).desc.device
       ∧ (membersOf s 0).contains 2 = true ∧ (s.job 0).coord.dead.contains 2 = false)
    ∧ (1 ≤ (jobIn 5).jobState 0 ∧ (jobIn 5).jobState 0 ≤ 5 ∧ isCoord (nums [(0x380B, 1, 7)] (jobIn 5)) 0 = false
      ∧ ((tryPlan 0 (tryPart 0 (postAllHearts 0 (stepFour 0 (jobIn 5))))).job 0).coord.switchDue = false)
    ∧ (let s := nums [(jobIx 0 1, 1, 5)] coordinating
       isCoord s 0 = true ∧ s.jobState 0 = 5 ∧ (s.job 0).coord.stopped = false) := by dsimp only [State.Quiet]; decide

/-- Job 0 after a restart, with record 1 of a kind in copy A of its journal at 0xE0000 and none in copy B, and a pool of four pages for
slots 0 to 31. -/
def replaying (kind : Nat) : State :=
  let s := nums [(jobIx 0 6, 3, 1), (0x3C44, 1, 4), (0x3C45, 1, 65536)] running
  let s := writeMem 0xE0000 (recBytes 1 kind 5 []) s
  let d := (s.job 0).desc
  s.setJob 0 { s.job 0 with desc := { d with journalLog2 := 12, journalA := 0xE0000, journalB := 0xE1000 }, plan := [0], replaySeq := 1 }

/-- A restarted job whose next record is a request, is a training command, and is in neither copy; and one that has no more to replay. -/
theorem test_witness_FrontEnd_replay :
    ((sourceRec 0 1 (replaying 1)).1.map fun r => (r.1, fieldOf r.2 15 1)) = some (0, 1)
    ∧ ((sourceRec 0 1 (replaying 2)).1.map fun r => (r.1, fieldOf r.2 15 1)) = some (0, 2) ∧ (sourceRec 0 2 (replaying 1)).1 = none
    ∧ (reserve 0 someNeed (replaying 1)).1.isSome = true ∧ (replaying 1).jobState 0 = 2 ∧ replayDone (replaying 1) 0 = false
    ∧ (replaying 1).num (jobIx 0 8) 3 ≠ 2 ∧ (nums [(jobIx 0 1, 1, 3)] (replaying 1)).jobState 0 = 3
    ∧ (nums [(jobIx 0 8, 3, 2)] (replaying 1)).num (jobIx 0 8) 3 = 2
    ∧ (running.Quiet ∧ replayDone running 0 = true) := by dsimp only [State.Quiet]; decide

/-- A front end with room in the log and the journal, without each, and one that is closed. -/
theorem test_witness_FrontEnd :
    (running.jobState 0 = 2 ∧ running.Quiet ∧ (running.job 0).front.closed = false ∧ (running.job 0).desc.kind = 0
      ∧ ctrlField 0 0 8 running = (0, running) ∧ logRoom running 0 = true ∧ journalFits running 0 (recLen 64) = false)
    ∧ ((running.setJob 0 { running.job 0 with front := { Front.init with closed := true } }).job 0).front.closed = true
    ∧ ready.jobState 0 = 0
    ∧ (let s := (replaying 1).setJob 0 { (replaying 1).job 0 with plan := [] }
       replayDone s 0 = true ∧ journalFits s 0 (recLen 64) = true ∧ (reserve 0 someNeed s).1.isSome = true) := by
  dsimp only [State.Quiet]; decide

/-- A descriptor of a serving job of one entry that covers the first page of memory. -/
def goodDesc : List Byte :=
  leBytes 8 (9 * 2 ^ 52 + 2 ^ 34 + 4 * 2 ^ 18) ++ leBytes 8 (2 ^ 56) ++ leBytes 8 0x91000 ++ leBytes 8 (2 ^ 48) ++ List.replicate 24 0
    ++ leBytes 8 16 ++ List.replicate 36 0 ++ leBytes 2 1 ++ List.replicate 26 0

/-- A descriptor and its table that keep to R370 and R371, read at a start. -/
theorem test_witness_JobControl_desc :
    descBad goodDesc = none
    ∧ (let s := writeMem 0x91000 (leBytes 8 0 ++ leBytes 8 4096 ++ leBytes 8 15 ++ leBytes 8 0) (writeMem 0x90000 goodDesc (jobIn 0))
       (match (readDesc 0 (nums [(jobIx 0 0, 1, 0x90000)] s)).1 with | .error _ => false | .ok r => r.1.jobId == 9) = true) := by
  dsimp only; decide

/-- A serving job whose delivery log at 0x200000 holds the record of request 1 from device 5, whose link is ATTACHED, and whose host ring is named. -/
def delivering : State :=
  let s := linked 0 2 (nums [(0x2C20, 1, 0x210000), (0x2C21, 1, 0), (0x2C22, 1, 0x20000C)] running)
  let s := writeMem 0x210000 (leBytes 8 1) (writeMem 0x200000 (recBytes 1 1 5 []) s)
  let s := { s with hst := { s.hst with hring := [(0, 0x10000C)] } }
  s.setJob 0 { s.job 0 with front := { Front.init with delivering := true, logged := [(1, 0, 64)], logEnd := 64 } }

/-- A record to deliver to the host, and to a gateway. -/
theorem test_witness_FrontEnd_delivery :
    delivering.jobState 0 ≠ 0 ∧ dlogCtrl delivering 0 ≠ 0 ∧ delivering.num 0x2C21 1 < 2 ∧ (delivering.job 0).front.delivering = true
    ∧ (delivering.job 0).front.flushing = none ∧ linkAttached delivering 0 = true ∧ (sameAttach 0 0 delivering).1 = true
    ∧ ((nextRecord 0 (sameAttach 0 0 delivering).2).1.map fun r => (r.1, r.2.length)) = some (1, 64)
    ∧ hostRing delivering 0 = some (0x100000, 4096)
    ∧ (let s := nums [(0x2C21, 1, 2)] delivering
       s.num 0x2C21 1 = 2 ∧ ((nextRecord 0 s).1.map fun r => (r.1, fieldOf r.2 16 8 / 2 ^ 50)) = some (1, 5)) := by decide

/-- A result that an accepted request has yet to bring, in a job with delivery and without; a log that is full. -/
theorem test_witness_FrontEnd_results :
    (let x := (delivering.job 0).front
     let s := delivering.setJob 0 { delivering.job 0 with front := { x with opened := [(2, 0, 5)] } }
     (s.job 0).front.opened.find? (fun e => e.1 == 2) = some (2, 0, 5) ∧ dlogCtrl s 0 ≠ 0 ∧ ackedSeq s 0 < 2
     ∧ (s.job 0).front.logged.any (·.1 == 2) = false ∧ (s.job 0).front.results.any (·.1 == 2) = false ∧ dlogCtrl (nums [(0x2C20, 1, 0)] s) 0 = 0) 
    ∧ (let x := (delivering.job 0).front
       let s := delivering.setJob 0 { delivering.job 0 with front := { x with logged := [(1, 0, 4096)], logEnd := 4096 } }
       (ctrlField 0 0 8 s).1 = 1 ∧ logRoom s 0 = false ∧ logRoom (ctrlField 0 0 8 s).2 0 = false) := by decide

/-- Links in each state, with an identity and without; a package that is not ready. -/
theorem test_witness_HostLinks :
    ready.Quiet ∧ linkExists ready 0 = true ∧ linkState ready 0 = 0
    ∧ (let s := linked 0 1 ready
       linkState s 0 ≠ 0 ∧ packageReady s = true ∧ 5 % 2 ^ 32 ≠ 0 ∧ linkState s 0 = 1 ∧ s.Quiet ∧ barReach s 0 = true)
    ∧ linkState (nums [(0x2C01, 1, 2)] ready) 0 = 2 := by dsimp only [State.Quiet]; decide

/-- A window over device memory, and one over a hole. -/
theorem test_witness_HostAccesses :
    packageReady ready = true
    ∧ (let s := linked 0 2 (nums [(0x2C07, 1, 0)] ready)
       barReach s 0 = true ∧ barHit s 0 0 8 = true ∧ barOk s 0 0 8 = true ∧ (s.num 0x2C07 1 + 0) % 8 = 0 ∧ (s.num 0x2C07 1 + 4) % 8 ≠ 0 ∧ barAtomic .xor = false
       ∧ barHit s 0 4 8 = true ∧ barOk s 0 4 8 = true ∧ barHit s 0 0 16 = true ∧ barOk s 0 0 16 = true
       ∧ linkExists s 0 = true)
    ∧ (let s := nums [(0x2C01, 1, 2)] ready
       barReach s 0 = false ∧ linkExists s 0 = true ∧ linkState s 0 ≠ 0 ∧ barHit s 0 0 8 = true ∧ s.Quiet)
    ∧ (let s := linked 0 2 (nums [(0x2C07, 1, 0xF000000000)] ready)
       barReach s 0 = true ∧ barHit s 0 0 8 = true ∧ barOk s 0 0 8 = false) := by dsimp only [State.Quiet]; decide

/-- Reads outstanding for an operation and for the front end, and none; acknowledgements old, beyond what was delivered, and between. -/
theorem test_witness_HostAccesses_reads :
    (let r : HRead := { id := 3, link := 0, addr := 0x40, length := 64, owner := .op 0 1, before := 0 }
     let q : HRead := { r with id := 4, owner := .front 0 }
     let s := { ready with hst := { Hst.init with reads := [r, q] } }
     s.hst.reads.find? (·.id == 3) = some r ∧ s.hst.reads.find? (·.id == 4) = some q ∧ s.tim.refclk = true
     ∧ ({ s with tim := { s.tim with refclk := false } } : State).tim.refclk = false)
    ∧ ready.hst.reads.find? (·.id == 3) = none ∧ ready.Quiet ∧ 0 ≤ ackedSeq ready 0 ∧ ackedSeq delivering 0 < 1
    ∧ (ctrlField 0 0 8 delivering).1 < 2 ∧ 1 ≤ (ctrlField 0 0 8 delivering).1 := by dsimp only [State.Quiet]; decide

/-! ### More states for the clauses of the statements above -/

/-- Objects in order. -/
theorem test_witness_BootStages_barSize : tsorted ready.obj = true ∧ ready.num 0x2C00 1 = 0 ∧ ready.pwr.on = true ∧ ready.pwr.opened = true := by decide

/-- A trained link; a header that is for the port, one that is not, one that reads and one that does not, with a queue that is not full. -/
theorem test_witness_ServicesRunOnTheirPath_paths :
    (let s := nums [(0x2C01, 2, 1)] ready
     linkState s (mailLink s) ≠ 0 ∧ readStatus s 0x5400 1 = stOk)
    ∧ camipMine session {} 2 = true ∧ camipMine session { vlan := true } 2 = false ∧ headReads {} = true ∧ headReads { ver := 0x20 } = false
    ∧ (headClear { secured := some (0, 0) } 1460 = true ∧ headClear {} 1477 = false) ∧ ({} : CamipHead).waiting < 4 := by
  dsimp only; decide

/-- A write of one object on a host channel of a trained link, and in a session. -/
theorem test_witness_DedicatedWrites_paths :
    ({ src := .host 0, trans := 1 } : Request).raw = none ∧ camipMine session {} 2 = true
    ∧ (let s := nums [(0x2C01, 2, 1)] ready
       linkState s (mailLink s) ≠ 0 ∧ writeStatus s 1 0x1102 1 2 [7] = stOk ∧ (applyObj 0x1102 1 7 [7] (noteHold s)).1 = stOk) := by
  dsimp only; decide

/-- A FINISH for a session of the other port, and messages for this one; sixteen sessions taken. -/
theorem test_witness_SpdmAndSessions_paths :
    (let s := nums [(0x1120, 16, 1), (0x1121, 16, 1)] session
     wrongPort s 0 (.finish 15 [] true) = true ∧ wrongPort s 1 (.finish 15 [] true) = false)
    ∧ camipMine session {} 0x10 = true ∧ frameSlotOk { secured := some (15, 0) } = true
    ∧ freeSession (nums ((List.range 16).map fun k => (0x1120, k + 1, 2)) session) = none := by dsimp only; decide

/-- An IDENT to the broadcast address. -/
theorem test_witness_IdentPlcaAndNotify_head :
    camipMine session { dest := .broadcast } 0x11 = true ∧ camipMine session { dest := .broadcast } 2 = false ∧ headReads { dest := .broadcast } = true := by
  decide

/-- The global enable as it is after reset, and set. -/
theorem test_witness_RingMoves_global : ready.num 0x5000 1 = 0 ∧ ringing.num 0x5000 1 ≠ 0 := by decide

/-- The host window, a hole, and a hart that may write both. -/
theorem test_witness_WindowStores_outside :
    hostOf ready 0x800000000041 = some 0x41 ∧ hostParts ready 0x41 1 = [(0, 0x41, 1)] ∧ linkAttached (linked 0 2 ready) 0 = true ∧ linkAttached ready 0 = false ∧ (ready.hart 71).pmpOk 0x800000000041 1 true = true
    ∧ hostOf ready 0xF000000000 = none ∧ memOk ready (lineOf 0xF000000000) = false ∧ (ready.hart 71).pmpOk 0xF000000000 8 true = true := by decide

/-- A die whose last ISN is used. -/
theorem test_witness_DescriptorsAreTaken_last : max64 < ((running.setDie 0 { Die.init with nextIsn := 2 ^ 64 }).die 0).nextIsn ∧ (running.die 0).nextIsn ≤ max64 := by decide

/-- An operation with a read from elsewhere that it has asked for. -/
theorem test_witness_OperationsRun_away :
    (let o : Op := { refOp 5 0 0 (viewAt 0x800000000000 codeQA40) noView noView with asked := 1 }
     (awayRanges running o).length = 1 ∧ (awayRanges running o).drop o.asked = []) := by dsimp only; decide

/-- A cache with room. -/
theorem test_witness_RequestsReachTheHome_room :
    cacheRoom (homed Coh.init) 2 0x40 = true
    ∧ (let s := nums [(0x3C06, 1, 1)] (doms [5] 2 (homed Coh.init))
       lineOk 0x20000000000 = true ∧ memOk s 0x20000000000 = true ∧ homeOf s 0x20000000000 = some 0 ∧ ownCanopy s 2 0x20000000000 = true) := by
  dsimp only; decide

/-- A snoop that waits for the SnpKills beside it, and one that does not. -/
theorem test_witness_SnoopsAndMessages_sent :
    snoopSent { txnFor .rdUnique (.td 0) with snoops := [(3, .unique)] } (3, .unique) = true
    ∧ snoopSent { txnFor .rdUnique (.td 0) with snoops := [(3, .unique), (4, .kill)] } (3, .unique) = false := by decide

/-- Words outside device memory and in a group that is not READY; store-conditionals by the mode of their line. -/
theorem test_witness_HartsDoAtomics_modes :
    isDevice ready 0xF000000000 = false ∧ isDevice ready 0x40 = true ∧ isDevice (nums [(0x2401, 1, 3)] ready) 0x40 = true
    ∧ memOk (nums [(0x2401, 1, 3)] ready) 0x40 = false ∧ atomicTrap ready 71 0x44 4 true = none ∧ atomicTrap ready 71 0x44 4 false = none
    ∧ (let s := nums [(0x2802, 1, 1)] (homed { lineIn 1 .c with resv := [(71, { line := 0x40, atHome := false })] })
       lineMode s 0x40 < 2 ∧ tfind 71 s.coh.resv = some { line := lineOf 0x44, atHome := false }
       ∧ (cacheLine s (71 / 36) 0x40).map (·.st) = some .c ∧ tfind 70 s.coh.resv ≠ some { line := 0x40, atHome := false })
    ∧ (let s := { ready with coh := { Coh.init with resv := [(71, { line := 0x40, atHome := true })] } }
       2 ≤ lineMode s 0x40 ∧ tfind 71 s.coh.resv = some { line := lineOf 0x44, atHome := true }) := by dsimp only; decide

/-- A group that is not READY, for the cache operations. -/
theorem test_witness_StoresAndCacheOperations_off : memOk (nums [(0x2401, 1, 3)] ready) 0x40 = false ∧ memOk ready 0x44 = true := by decide

/-- Messages and records with a reserved field that is not 0. -/
theorem test_witness_reserved_fields :
    (∀ c ∈ [0x20, 0x21, 0x23, 0x24, 0x25, 0x26, 0x27, 0x28, 0x29], ctrlClear (msgOf c 160) = true ∧ ctrlClear ((msgOf c 160).set 1 1) = false)
    ∧ (∀ c ∈ [1, 2, 3], updateClear (msgOf c 160) = true) ∧ updateClear ((msgOf 1 64).set 3 1) = false ∧ updateClear ((msgOf 2 64).set 1 1) = false
    ∧ updateClear ((msgOf 3 160).set 1 1) = false := by decide

/-- A log with room and without it, and a training job. -/
theorem test_witness_FrontEnd_room :
    logRoom (noteRoom 0 running) 0 = true
    ∧ (let x := (delivering.job 0).front
       let s := delivering.setJob 0 { delivering.job 0 with front := { x with logged := [(1, 0, 4096)], logEnd := 4096 } }
       logRoom s 0 = false ∧ logRoom (noteRoom 0 s) 0 = false)
    ∧ (let d := (running.job 0).desc
       ((running.setJob 0 { running.job 0 with desc := { d with kind := 1 } }).job 0).desc.kind ≠ 0) := by dsimp only; decide

/-- A read of BAR0 of a link that is up, aligned and not, at an assigned offset and at none. -/
theorem test_witness_HostAccesses_bar0 :
    (let s := linked 0 1 ready
     barReach s 0 = true ∧ 0x100018 + 8 ≤ 0x4000000 ∧ barAssigned 0x100018 = true ∧ 0x100018 % 8 = 0 ∧ barAssigned 0x8000 = false)
    ∧ 1 * 0x200000 < 2 ^ (20 + (ready.hlink 0).barCode) ∧ 2 ^ (20 + (ready.hlink 0).barCode) ≤ 0x8000 % 2 ^ 19 * 0x200000
    ∧ (2 ^ 19 + 1) / 2 ^ 19 ≠ 0 := by dsimp only; decide

/-- The cache of server-core die 0 with as many lines as an L3 has, none of which can leave. -/
def fullL3 : State :=
  homed { Coh.init with caches := [(0, (List.range l3Lines).map fun k => (64 * (k + 2), { st := .isW, data := [], poisoned := false }))] }

/-- It has no room for another line. -/
theorem test_witness_RequestsReachTheHome_full : cacheRoom fullL3 0 0x40 = false := by
  have hc : tget [] 0 fullL3.coh.caches = (List.range l3Lines).map fun k => (64 * (k + 2), { st := .isW, data := [], poisoned := false }) := rfl
  have h2 : fullL3.coh.l2 = [] := rfl
  have hm : roomMates fullL3 0 0x40 = (List.range l3Lines).map fun k => (64 * (k + 2), { st := .isW, data := [], poisoned := false }) := by
    simp only [roomMates, hc, h2]
    refine List.filter_eq_self.mpr ?_
    intro e he
    obtain ⟨k, -, rfl⟩ := List.mem_map.mp he
    simp
  have hl : cacheLine fullL3 0 0x40 = none := by
    rw [cacheLine, hc, show l3Lines = 786431 + 1 from rfl, List.range_succ_eq_map]
    simp [tfind]
  have hv : victims fullL3 0 0x40 = [] := by
    simp [victims, hm, List.filter_eq_nil_iff]
  simp [cacheRoom, hm, hl, hv, hc, roomLimit]

/-- An event whose own ring takes it, and one that has none. -/
theorem test_witness_PostsAreOffered_own :
    ownRing ringing { code := 0x5003, source := 0, sev := 1, job := 0x1F, payload := [], except := some 0 } = true
    ∧ ownRing ringing { code := 0x5003, source := 0, sev := 1, job := 0x1F, payload := [], except := none } = false := by decide

/-- A spare's start, and messages of another epoch than the job's. -/
theorem test_witness_JobControl_epochs :
    (let s := jobIn 7
     s.jobState 0 ≠ 0) ∧ (jobIn 2).jobEpoch 0 ≠ 5
    ∧ (∀ c ∈ [0x24, 0x26, 0x28, 0x25], let l := (msgOf c 160).set 2 5
       msgEpoch l = 5 ∧ l.length = 160 ∧ fieldOf l 0 1 = c) := by dsimp only; decide

/-- A port that has the other end's IDENT, one whose retry may train and one that is not enabled; a flat module and one that is not. -/
theorem test_witness_PortsTrain_more :
    (portAt 3 { Port.init with ident := some (frameOf 8 0 0 0 0 0) }).num 0x3001 1 = 3
    ∧ ((portAt 3 { Port.init with ident := some (frameOf 8 0 0 0 0 0) }).port 0).ident ≠ none ∧ ((portAt 3 Port.init).port 0).ident = none
    ∧ portPowered (portAt 6 Port.init) 0 = true ∧ portPowered (nums [(0x3000, 1, 0)] (portAt 6 Port.init)) 0 = false
    ∧ bit (lget 0 [(0 : Byte), 0, 0x80] 2).toNat 7 = true ∧ bit (lget 0 [(0 : Byte), 0, 0] 2).toNat 7 = false := by decide

/-- Chunks of a message that another precedes, and that come first; an answer that fits. -/
theorem test_witness_SpdmAndSessions_chunks :
    ({ session with dict := { session.dict with chunks := [(0, 7, 1)] } } : State).dict.chunks.contains (0, 7, 1) = true
    ∧ (spdmError 0x0A 0 session).1.2.length ≤ 1460 ∧ sessionAt (nums [(0x1120, 1, 1)] session) 0 0 1 = true := by decide

/-- The certificate chain has a first byte. -/
theorem test_witness_SpdmAndSessions_chain : 0 < (certChain session).length := by
  simp only [certChain, List.length_append, show ∀ v, (leBytes 2 v).length = 2 from fun _ => rfl]
  omega

/-! ### The spec's worked examples, and small steps -/

/-- R493, worked example: the header of the board controller's WRITE. -/
theorem test_camip_header :
    camipHeader 0x10 2 0x40 0 0x8A3C0001 5 0x31 9 0
      = [0x10, 2, 0x40, 0, 1, 0, 0x3C, 0x8A, 5, 0, 0, 0, 0, 0, 0, 0, 0x31, 0, 9, 0, 0, 0, 0, 0] := by decide

/-- R42, worked example of QW32: 0x3F80_1234 is binary32 0x3FC0_091A. -/
theorem test_qw32_to_binary32 : (encodeF b32 .rne (decodeF qw32 0x3F801234)).code = 0x3FC0091A := by decide

/-- R60, worked example: -0.3 into QF8, to nearest and with the draws 0x40_0000 and 0xC0_0000. -/
theorem test_qf8_rounding :
    let v := decodeF b32 0xBE99999A
    (encodeF qf8 .rne v).code = 0xB2 ∧ (encodeF qf8 (.sr 0x400000) v).code = 0xB2 ∧ (encodeF qf8 (.sr 0xC00000) v).code = 0xB1 := by
  dsimp only; decide

/-- R68, worked example: 4.5 and -0.000 3 into QR16 at exponent 50 take exponent 51. -/
theorem test_qr16_rescaled :
    let b := makeTransit 50 [decodeF b32 0x40900000, decodeF b32 0xB99D4952]
    b.scale = 0x33 ∧ b.rescaled = true ∧ b.codes.take 3 = [0x4800, 0xFFFF, 0] := by dsimp only; decide

/-- R67, worked example: 2.5, -0.7, 0.05 and -5.25 into a QN4 block of 16. -/
theorem test_qn4_block :
    let b := convBlock codeQN4 none (([0x40200000, 0xBF333333, 0x3D4CCCCD, 0xC0A80000].map (decodeF b32)
      ++ List.replicate 12 (FV.fin false 0 0)).map fun v => (v, Rnd.rne))
    b.scale = 0x3F ∧ (packRow codeQN4 b.codes) = [0xF2, 0xB0, 0, 0, 0, 0, 0, 0] := by dsimp only; decide

/-- The products of two lists of unscaled QF8 codes. -/
def products (l : List (Nat × Nat)) : List (FV × Int) := l.map fun e => (mulF (decodeF qf8 e.1) (decodeF qf8 e.2), 0)

/-- R79, worked example: the chunk sum is 3.937 561 035 156 25, which is 4 128 832 x 2^-20. -/
theorem test_chunk_sum :
    (exactSum ((products ([(0x7F, 0x7F), (8, 8), (0xFF, 0x7F), (0x4E, 0x41)] ++ List.replicate 28 (0, 0))).map (·.1))).plus
      { i := -4128832, e := -20 } = { i := 0, e := -20 } := by decide

/-- R90, worked example: three chunks of QF8 products leave 3.939 453 125. -/
theorem test_dot_product :
    dotProduct 2 2 0 (products (List.replicate 31 (0x7F, 0x7F) ++ [(8, 8)])) = 0x44ECFC0000
    ∧ dotProduct 2 2 0x44ECFC0000 (products (List.replicate 32 (8, 8))) = 0x44ECFC0002
    ∧ dotProduct 2 2 0x44ECFC0002 (products (List.replicate 31 (0xFF, 0x7F) ++ [(0x4E, 0x41)])) = 0x403E100000 := by decide

/-- R199, worked example: physical address 0x0020_0012_3440 at G = 8. -/
theorem test_place :
    let s := { ready with merr := { ready.merr with effG := 8 } }
    place s 0x2000123440 = .dram 1 0x200123440 ∧ channelOf 0x200123440 = 0 ∧ packageOf 1 0x200123440 = 4 := by dsimp only; decide

/-- R274, worked example: the header of a DATA frame of 64 transit blocks. -/
theorem test_frame_header :
    let f := mkFrame (nums [(0x3015, 1, 64)] ready) { type := 1, jobId := 0x2A7, epoch := 0x13, chan := 5, seq := 1024, src := 517, dst := 518 }
    f.w0 + 4224 = 0x112A700130501080 ∧ f.w1 = 0x40008142060 ∧ f.w2 = 0 ∧ f.w3 = 0x4000000000 := by dsimp only; decide

/-- R300, the spec's example of a tree: N = 10, ARITY 3, TREE_ROOT 4. -/
theorem test_tree :
    treeKids 10 3 (treePos 10 4 4) = [1, 2, 3] ∧ (treeKids 10 3 (treePos 10 4 5)).map (fun p => (p + 4) % 10) = [8, 9, 0]
    ∧ (treeKids 10 3 (treePos 10 4 6)).map (fun p => (p + 4) % 10) = [1, 2, 3] ∧ treeKids 10 3 (treePos 10 4 7) = [] := by decide

/-- One hop of the REDUCE of the worked example. -/
def hop (own : List Nat) (l : List Block) : Block := (hopBlock 50 (some (own.map (decodeF b32))) l).1

/-- R312, worked example: the four hops of a ring reduction. -/
theorem test_reduce_hops :
    let a := hop [0x40400000, 0xBFC00000, 0x39400000] []
    let b := hop [0x40200000, 0xBE800000, 0x38800000] [a]
    let c := hop [0xBF400000, 0x40466666, 0x39A00000] [b]
    let d := hop [0x41200000, 0, 0x38800000] [c]
    a.ints.take 3 = [24576, -12288, 2] ∧ a.scale = 50 ∧ b.ints.take 3 = [22528, -7168, 1] ∧ b.scale = 51
    ∧ c.ints.take 3 = [19456, 5530, 2] ∧ d.ints.take 3 = [30208, 2765, 1] ∧ d.scale = 52 ∧ d.rescaled = true
    ∧ sliceOf (transitBlock d) 0 6 = [0, 0x76, 0xCD, 0x0A, 1, 0] ∧ sliceOf (transitBlock d) 64 2 = [0x34, 0x80] := by
  dsimp only; decide

/-- The state after one command, and the state unchanged where it stops. -/
def after (i : Instr) (s : State) : State :=
  match exec i s with
  | .next t => t
  | .fault _ => s
  | .refused _ => s

/-- Ring 3 of the worked example of R470: 64 slots at 0x40_0000, an IMSIC target, PROD and CONS 63, INACTIVE, next SEQ 501. -/
def ring3 : State :=
  nums [(0x5002, 4, 0x400006), (0x5003, 4, 0x50000), (0x500A, 4, 501), (0x5001, 4, 1), (0x5000, 1, 1), (0x5004, 4, 0xFFFFFFFFFFFF),
    (0x5005, 4, 2 ^ 63), (0x5006, 4, 63), (0x5009, 4, 63), (0x3001, 18, 4)] ready

/-- A unit of P17 that has been sent again as often as it may be. -/
def worn : State :=
  ring3.setPort 17 { Port.init with unacked := [{ seq := 0, vl := 2, frame := frameOf 1 4 2 1 0 0, resends := 255 }] }

/-- R470, worked example, step 1: P17 goes DOWN on its retry limit; the record goes to slot 63, PROD wraps, and the ring is ACTIVE. -/
theorem test_ring_record :
    let t := after (.replayTimeout 17) worn
    peekMem t 0x4007E0 15 = [0xF5, 1, 0, 0, 0, 0, 0, 0, 0xE0, 0x1B, 0x41, 0x02, 0x30, 0x11, 0x00] ∧ t.num 0x5009 4 = 0 ∧ t.num 0x5008 4 = 2
    ∧ t.num 0x500A 4 = 502 := by dsimp only; decide

/-- R467: DONE of an ACTIVE ring that is empty makes it INACTIVE. -/
theorem test_ring_done :
    (after (.evtRingDone 3) (nums [(0x5006, 4, 0), (0x5009, 4, 0), (0x5008, 4, 2)] ring3)).num 0x5008 4 = 0 := by decide

/-- A request over core channel 0. -/
def asked : Request := { src := .core 0, trans := 7 }

/-- R481 and its statuses: a WRITE of EVT_GLOBAL_ENABLE is read back; an object that does not exist is 0x01, and a wrong TYPE 0x05. -/
theorem test_dictionary :
    let t := after (.write asked 0x5000 1 1 [1]) ready
    t.dict.lastStatus = 0 ∧ t.num 0x5000 1 = 1 ∧ (after (.read asked 0x5000 1) t).dict.lastBody.getLast? = some 1
    ∧ (after (.read asked 0x0FFF 1) ready).dict.lastStatus = 1 ∧ (after (.write asked 0x5000 1 2 [1]) ready).dict.lastStatus = 5 := by
  dsimp only; decide

/-- R304: a doorbell of a collective queue sets its producer index. -/
theorem test_col_doorbell : ((after (.colDoorbell 0 5) (collecting [])).job 0).colProd = 5 := by decide

/-- R455: ATTACH of a DETACHED link with 0x51A2; the same write with 0 is counted. -/
theorem test_attach :
    let s := linked 0 1 ready
    (after (.attach 0 0x51A2) s).num 0x2C05 1 = 0x51A2 ∧ (after (.attach 0 0) s).num 0x58A3 1 = 1 := by dsimp only; decide

/-- R446, worked example: ATTACH_GEN counts up at a reset of an ATTACHED link. -/
theorem test_reset_detaches :
    let s := nums [(0x2C01, 1, 2), (0x2C04, 1, 7)] ready
    (after (.pcieReset 0 .hot) s).num 0x2C04 1 = 8 ∧ (after (.pcieReset 0 .hot) s).num 0x2C01 1 = 1 := by dsimp only; decide

/-- R244: an AMO add of 5 to a word that holds 9 gives the hart 9 and leaves 14. -/
theorem test_amo :
    let t := after (.amo 0 0x1000 4 .add 5) (writeMem 0x1000 [9] ready)
    peekMem t 0x1000 4 = [14, 0, 0, 0] ∧ t.coh.result = [(0, 9)] := by dsimp only; decide

/-- R240: a streaming store changes its line and no other byte. -/
theorem test_streaming_store :
    let t := after (.streamingStore 0 0x2000 (List.replicate 64 7)) (writeMem 0x2040 [3] ready)
    peekMem t 0x2000 2 = [7, 7] ∧ peekMem t 0x203F 2 = [7, 3] := by dsimp only; decide

/-- R307: a NOP that is done completes, and DONE of its path goes to 1. -/
theorem test_collective_complete :
    ((after (.collectiveComplete 0 0) (collecting [{ collOf 0 with fin := true }])).job 0).colDone.head? = some 1 := by decide

/-- R293: a lane failure takes an UP port DOWN. -/
theorem test_lane_failure : portState (after (.laneFailure 0) (portAt 4 Port.init)) 0 = 6 := by decide

/-- R512: EN going low takes the package off. -/
theorem test_en_deassert : (after .enDeassert ready).pwr.on = false := by decide

/-- Section 09, link layer: serial-number arithmetic; a number equal to the next expected one, one later and one earlier. -/
theorem test_seq_compare :
    seqCmp 32 0 0 = .expected ∧ seqCmp 32 0 0xFFFFFFFF = .later ∧ seqCmp 32 0xFFFFFFFF 0 = .earlier := by decide

/-- R392: the epoch after 0xFFFF is 1. -/
theorem test_next_epoch : nextEpoch 0xFFFF = 1 ∧ nextEpoch 1 = 2 := by decide

/-- R69: a QW32 code converted to QW16 is truncated; R64: a NaN whose upper half would be an infinity is the canonical NaN. -/
theorem test_qw32_to_qw16 :
    (convElem codeQW32 codeQW16 .rne 0x3F80FFFF none).code = 0x3F80 ∧ (convElem codeQW32 codeQW16 .rne 0x7F000001 none).code = nanOf qw16 := by
  decide

/-- R175: ENTRY_ADDR of a record with no entry lies in a hole. -/
theorem test_hole_entry : place ready holeAddr = .hole ∧ memOk ready holeAddr = false := by decide

/-- R242, and the RISC-V privileged architecture: a misaligned AMO takes exception 6 to the base of mtvec, with the pc and the address saved. -/
theorem test_amo_trap :
    let s := ready.setHart 0 { (Hart.init.setCsr 0x305 0x8001) with pc := 0x44 }
    let h := (after (.amo 0 0x1001 4 .add 5) s).hart 0
    h.pc = 0x8000 ∧ h.csrAt 0x342 = 6 ∧ h.csrAt 0x341 = 0x44 ∧ h.csrAt 0x343 = 0x1001 := by decide

/-- A step takes the first of two commands and leaves the second. -/
theorem test_step_order :
    ∃ t, step { ready with pending := [.laneFailure 0, .evtRingDone 3] } = .next t ∧ t.pending = [.evtRingDone 3] := ⟨_, rfl, by decide⟩

end Sys2Proof.Tests
end

section
/-!
PROOFS. The sum of a chunk with a non-finite product (R78): it is a function of the non-finite products alone.
-/

namespace Sys2Proof.Machine

/-- The non-finite products of a chunk, in their order. -/
def nonfiniteOnes (p : List FV) : List FV := p.filter fun v => !v.isFinite

@[simp] theorem nan_mem_nonfiniteOnes (p : List FV) : FV.nan ∈ nonfiniteOnes p ↔ FV.nan ∈ p := by
  simp [nonfiniteOnes, FV.isFinite]

@[simp] theorem inf_mem_nonfiniteOnes (neg : Bool) (p : List FV) : FV.inf neg ∈ nonfiniteOnes p ↔ FV.inf neg ∈ p := by
  simp [nonfiniteOnes, FV.isFinite]

/-- A chunk has a non-finite product exactly when its list of them has. -/
theorem any_nonfiniteOnes (p : List FV) :
    (nonfiniteOnes p).any (fun v => !v.isFinite) = p.any fun v => !v.isFinite := by
  simp [nonfiniteOnes]

/-- R78: NaN for a NaN or for infinities of both signs, otherwise the infinity that occurs. -/
theorem nonfiniteSum_eq_ite (p : List FV) :
    nonfiniteSum p =
      if FV.nan ∈ p ∨ (FV.inf false ∈ p ∧ FV.inf true ∈ p) then .nan
      else if FV.inf false ∈ p then .inf false else .inf true := by
  simp [nonfiniteSum]

/-- R78: finite products do not affect a non-finite sum. -/
theorem nonfiniteSum_nonfiniteOnes (p : List FV) : nonfiniteSum (nonfiniteOnes p) = nonfiniteSum p := by
  simp only [nonfiniteSum_eq_ite, nan_mem_nonfiniteOnes, inf_mem_nonfiniteOnes]

/-- R78: with a non-finite product neither the accumulator (narrow) nor the window (wide) is used. -/
theorem promoteChunk_of_nonfinite (narrow : Bool) (t : Nat) (l : List (FV × Int))
    (h : (l.map (·.1)).any (fun v => !v.isFinite) = true) :
    promoteChunk narrow t l = promote t (nonfiniteSum (l.map (·.1))) none :=
  if_pos h

/-- Two chunks with the same non-finite products, at least one, leave the same total in either class. -/
theorem promoteChunk_congr_nonfiniteOnes (narrow narrow' : Bool) (t : Nat) (l l' : List (FV × Int))
    (h : (l.map (·.1)).any (fun v => !v.isFinite) = true)
    (heq : nonfiniteOnes (l'.map (·.1)) = nonfiniteOnes (l.map (·.1))) :
    promoteChunk narrow' t l' = promoteChunk narrow t l := by
  have h' : (l'.map (·.1)).any (fun v => !v.isFinite) = true := by
    rw [← any_nonfiniteOnes, heq, any_nonfiniteOnes, h]
  rw [promoteChunk_of_nonfinite narrow' t l' h', promoteChunk_of_nonfinite narrow t l h,
    ← nonfiniteSum_nonfiniteOnes, heq, nonfiniteSum_nonfiniteOnes]

/-- Settles O8: a chunk with a non-finite product takes the branch of `nonfiniteSum`, which reads the non-finite products only. -/
theorem nonFiniteChunks : Obligations.NonFiniteChunks := by
  intro narrow t l p h
  constructor
  · rw [promoteChunk_of_nonfinite narrow t l h, nonfiniteSum_eq_ite]
  · intro l' heq narrow'
    exact promoteChunk_congr_nonfiniteOnes narrow narrow' t l l' h heq

end Sys2Proof.Machine
end

section
/-!
PROOFS. Write hints and their targets (R238, R239): what a write of a whole line to memory leaves as it was, the operations of the home
after which the same core operations wait, and the two ways in which a hint places its line.
-/

namespace Sys2Proof.Machine

/-! ### Tables, canonical or not -/

/-- A value other than the default is read back whatever the table. -/
theorem tget_tset_of_ne_default {α : Type} [DecidableEq α] (d v : α) (k : Nat) (t : Tab α) (hv : v ≠ d) :
    tget d k (tset d k v t) = v := by
  induction t with
  | nil => simp [tset, tget, hv]
  | cons e r ih =>
    obtain ⟨k', v'⟩ := e
    rcases lt_trichotomy k k' with h | h | h
    · simp [tset, tget, hv, h]
    · simp [tset, tget, hv, h]
    · simp [tset, tget, ih, h.not_gt, h.ne']

/-- A key just listed is found. -/
theorem tfind_tput_same {α : Type} (k : Nat) (v : α) (t : Tab α) : tfind k (tput k v t) = some v := by
  induction t with
  | nil => simp [tput, tfind]
  | cons e r ih =>
    obtain ⟨k', v'⟩ := e
    rcases lt_trichotomy k k' with h | h | h
    · simp [tput, tfind, h]
    · simp [tput, tfind, h]
    · simp [tput, tfind, ih, h.not_gt, h.ne']

theorem tput_ne_nil {α : Type} (k : Nat) (v : α) (t : Tab α) : tput k v t ≠ [] := by
  intro h
  simpa [h, tfind] using tfind_tput_same k v t

/-- What every step of a fold keeps, the fold keeps. -/
theorem foldl_keeps {β γ : Type} (p : State → γ) (f : State → β → State) (hf : ∀ s x, p (f s x) = p s) (l : List β) (s : State) :
    p (l.foldl f s) = p s := by
  induction l generalizing s with
  | nil => rfl
  | cons x r ih => rw [List.foldl_cons, ih, hf]

/-! ### Writes to memory -/

@[simp] theorem dramCe_coh (n o : Nat) (s : State) : (dramCe n o s).coh = s.coh := by
  unfold dramCe
  dsimp only
  split <;> simp

/-- What a read finds leaves caches, directory and messages as they were. -/
@[simp] theorem readUnit_coh (b : Bool) (u : Nat) (s : State) : (readUnit b u s).coh = s.coh := by
  unfold readUnit
  split
  · rfl
  · dsimp only
    split
    · rfl
    · split <;> simp [dramUe, canopyUe]

@[simp] theorem writeUnit_coh (line mask whole u : Nat) (s : State) : (writeUnit line mask whole u s).coh = s.coh := by
  unfold writeUnit
  split
  · rfl
  · split <;> simp

/-- A write to memory leaves caches, directory and messages as they were. -/
@[simp] theorem memMergeLine_coh (line mask whole : Nat) (data : List Byte) (s : State) :
    (memMergeLine line mask whole data s).coh = s.coh := by
  have units : ((poisonUnits s line).foldl (fun s u => writeUnit line mask whole u s) s).coh = s.coh :=
    foldl_keeps State.coh _ (fun s u => writeUnit_coh line mask whole u s) _ s
  unfold memMergeLine
  dsimp only
  split
  · split <;> simp [units]
  · simp [units]

@[simp] theorem memWriteLine_coh (line mask : Nat) (data : List Byte) (s : State) : (memWriteLine line mask data s).coh = s.coh :=
  memMergeLine_coh line mask mask data s

@[simp] theorem memWriteBack_coh (line : Nat) (data : List Byte) (p : Bool) (s : State) : (memWriteBack line data p s).coh = s.coh := by
  unfold memWriteBack
  dsimp only
  split
  · rw [foldl_keeps State.coh _ (fun _ _ => setPoison_coh _ _ _), memWriteLine_coh]
  · exact memWriteLine_coh _ _ _ _

/-- A write of a whole line covers every unit of the line whole (R209, R211). -/
theorem unitMask_fullMask (s : State) (line u : Nat) (hu : u ∈ poisonUnits s line) :
    unitMask s line fullMask u = unitFull s line := by
  unfold poisonUnits at hu
  unfold unitMask unitFull
  split at hu
  · obtain ⟨i, hi, rfl⟩ := List.mem_map.mp hu
    have word : ∀ i < 8, (fullMask >>> (8 * i)) % 256 = 255 := by decide
    rw [Nat.add_sub_cancel_left]
    exact word i (List.mem_range.mp hi)
  · rfl

theorem unitFull_ne_zero (s : State) (line : Nat) : unitFull s line ≠ 0 := by
  unfold unitFull
  split <;> decide

/-- A whole write of a unit reads nothing: it clears the unit's errors (R114, R211). -/
theorem writeUnit_fullMask (line u : Nat) (s : State) (h : unitMask s line fullMask u = unitFull s line) :
    writeUnit line fullMask fullMask u s = clearLatent (setPoison s u false) u := by
  unfold writeUnit
  rw [if_neg (fun c => unitFull_ne_zero s line (h.symm.trans c.1)), if_pos h]

theorem writeUnits_fullMask_obj (line : Nat) (l : List Nat) (s : State)
    (h : ∀ u ∈ l, unitMask s line fullMask u = unitFull s line) :
    (l.foldl (fun s u => writeUnit line fullMask fullMask u s) s).obj = s.obj := by
  induction l generalizing s with
  | nil => rfl
  | cons u r ih =>
    have hu := h u List.mem_cons_self
    have hr : ∀ v ∈ r, unitMask (clearLatent (setPoison s u false) u) line fullMask v
        = unitFull (clearLatent (setPoison s u false) u) line := fun v hv => h v (List.mem_cons_of_mem u hv)
    rw [List.foldl_cons, writeUnit_fullMask line u s hu, ih _ hr, clearLatent_obj, setPoison_obj]

/-- A write of a whole line counts nothing: it finds no error, and it is no partial write (R211). -/
theorem memWriteLine_fullMask_obj (line : Nat) (data : List Byte) (s : State) : (memWriteLine line fullMask data s).obj = s.obj := by
  have units := writeUnits_fullMask_obj line (poisonUnits s line) s (unitMask_fullMask s line)
  unfold memWriteLine memMergeLine
  dsimp only
  split
  · rw [if_pos (by decide), putBytes_obj, units]
  · rw [putBytes_obj, units]

theorem memWriteLine_fullMask_num (line i j : Nat) (data : List Byte) (s : State) :
    (memWriteLine line fullMask data s).num i j = s.num i j := by
  unfold State.num State.val
  rw [memWriteLine_fullMask_obj]

/-! ### Counting -/

/-- A counter below its largest value goes on by what is added, whatever the other objects hold (R471). -/
theorem num_count_same (i j n : Nat) (s : State) (hd : objDefault (okey i j) = .num 0) (hn : 0 < n) (h : s.num i j + n ≤ max64) :
    (count i j n s).num i j = s.num i j + n := by
  have hv : (s.setNum i j (s.num i j + n)).val i j = .num (s.num i j + n) :=
    tget_tset_of_ne_default _ _ _ _ (by rw [hd]; simp; omega)
  rw [count_quiet i j n s h]
  generalize s.num i j + n = m at hv ⊢
  unfold State.num
  rw [hv]

/-- Every home is that of one of the eight tensor dies (R202). -/
theorem homeOf_lt (s : State) (a n : Nat) (h : homeOf s a = some n) : n < 8 := by
  unfold homeOf place at h
  dsimp only at h
  split_ifs at h
  all_goals simp only [Option.some.injEq] at h
  · omega
  · unfold globalPlace at h
    dsimp only at h
    omega
  · omega

theorem objDefault_hintDropped (n : Nat) (h : n < 8) : objDefault (okey 0x5854 (n + 1)) = .num 0 := by
  have all : ∀ n < 8, objDefault (okey 0x5854 (n + 1)) = .num 0 := by decide
  exact all n h

/-! ### Operations of the home that leave the waiting core operations as they are -/

@[simp] theorem setCacheLine_waits (c line : Nat) (x : Option CLine) (s : State) :
    (setCacheLine c line x s).coh.waits = s.coh.waits := rfl

@[simp] theorem setDir_waits (line : Nat) (e : DirEntry) (s : State) : (setDir line e s).coh.waits = s.coh.waits := rfl

@[simp] theorem sendMsg_waits (m : Msg) (s : State) : (sendMsg m s).coh.waits = s.coh.waits := rfl

@[simp] theorem loseResv_waits (c line : Nat) (s : State) : (loseResv c line s).coh.waits = s.coh.waits := rfl

@[simp] theorem loseCopy_waits (c line : Nat) (x : Option CLine) (s : State) : (loseCopy c line x s).coh.waits = s.coh.waits := rfl

@[simp] theorem dropCopy_waits (c line : Nat) (s : State) : (dropCopy c line s).coh.waits = s.coh.waits := rfl

@[simp] theorem notifyWatchers_waits (line : Nat) (s : State) : (notifyWatchers line s).coh.waits = s.coh.waits := rfl

@[simp] theorem sramRead_coh (n block key unit : Nat) (s : State) : (sramRead n block key unit s).2.coh = s.coh := by
  unfold sramRead
  dsimp only
  split <;> simp

@[simp] theorem streamError_waits (n l : Nat) (s : State) : (streamError n l s).coh.waits = s.coh.waits := by
  have read := sramRead_coh n 4 l 0x7F s
  unfold streamError
  split
  · rfl
  · split
    next e => rw [← read, e]
    next e =>
      rw [e] at read
      rw [← read]
      split
      · split
        · rfl
        · split <;> simp
      · rfl

@[simp] theorem agentError_waits (c l : Nat) (s : State) : (agentError c l s).coh.waits = s.coh.waits := by
  unfold agentError
  split
  · exact streamError_waits _ _ _
  · rfl

@[simp] theorem takeEvs_waits (line : Nat) (s : State) : (takeEvs line s).coh.waits = s.coh.waits := by
  unfold takeEvs
  refine foldl_keeps (fun s => s.coh.waits) _ (fun s m => ?_) _ s
  split
  · split
    · split <;> simp
    · rfl
  · rfl

@[simp] theorem killCopy_waits (c line : Nat) (s : State) : (killCopy c line s).coh.waits = s.coh.waits := by
  unfold killCopy
  split
  · split <;> simp
  · rfl

@[simp] theorem killCopies_waits (line : Nat) (keep : Bool) (s : State) : (killCopies line keep s).coh.waits = s.coh.waits := by
  have errors := foldl_keeps (fun s => s.coh.waits) (fun s c => agentError c line s) (fun s c => agentError_waits c line s)
  have kills := foldl_keeps (fun s => s.coh.waits) (fun s c => killCopy c line s) (fun s c => killCopy_waits c line s)
  unfold killCopies
  dsimp only
  rw [setDir_waits, kills]
  split
  · rw [memWriteBack_coh, errors, takeEvs_waits]
  · rw [errors, takeEvs_waits]

@[simp] theorem backInvalidate_waits (line : Nat) (s : State) : (backInvalidate line s).coh.waits = s.coh.waits := by
  unfold backInvalidate
  dsimp only
  split <;> simp

@[simp] theorem makeRoom_waits (line : Nat) (s : State) : (makeRoom line s).coh.waits = s.coh.waits := by
  unfold makeRoom
  split
  · split
    · rfl
    · split
      · rfl
      · dsimp only
        split <;> simp
  · rfl

@[simp] theorem evict_waits (c line : Nat) (s : State) : (evict c line s).coh.waits = s.coh.waits := by
  unfold evict
  dsimp only
  split
  · split
    · simp
    · split
      · simp
      · split <;> simp
  · simp

@[simp] theorem makeWay_waits (c line : Nat) (s : State) : (makeWay c line s).coh.waits = s.coh.waits := by
  unfold makeWay
  split
  · rfl
  · split
    · rfl
    · dsimp only
      split <;> simp

@[simp] theorem openTarget_waits (c line : Nat) (s : State) : (openTarget c line s).coh.waits = s.coh.waits :=
  takeEvs_waits line s

/-! ### What a cache and a directory entry hold after a write -/

theorem cacheLine_setCacheLine_same (c line : Nat) (x : CLine) (s : State) :
    cacheLine (setCacheLine c line (some x) s) c line = some x := by
  unfold cacheLine setCacheLine
  dsimp only
  rw [tget_tset_of_ne_default _ _ _ _ (tput_ne_nil _ _ _), tfind_tput_same]

theorem dirOf_setDir_same (line : Nat) (e : DirEntry) (s : State) (h : e.holders ≠ 0) : dirOf (setDir line e s) line = e := by
  unfold dirOf setDir
  dsimp only
  rw [if_neg (fun c => h c.1)]
  exact tget_tset_of_ne_default _ _ _ _ (fun c => h (congrArg DirEntry.holders c))

@[simp] theorem cacheLine_count (i j n c line : Nat) (s : State) : cacheLine (count i j n s) c line = cacheLine s c line := by
  unfold cacheLine
  rw [count_coh]

@[simp] theorem dirOf_count (i j n line : Nat) (s : State) : dirOf (count i j n s) line = dirOf s line := by
  unfold dirOf
  rw [count_coh]

@[simp] theorem cacheLine_setDir (line l c : Nat) (e : DirEntry) (s : State) : cacheLine (setDir line e s) c l = cacheLine s c l := rfl

@[simp] theorem cacheLine_dropWaits (c line d l : Nat) (s : State) : cacheLine (dropWaits c line s) d l = cacheLine s d l := rfl

@[simp] theorem dirOf_dropWaits (c line l : Nat) (s : State) : dirOf (dropWaits c line s) l = dirOf s l := rfl

/-- With no core operation that waits for the line, its arrival in a cache runs none. -/
theorem runWaits_of_none (c line : Nat) (s : State) (h : waitsOf s c line = []) : runWaits c line s = dropWaits c line s := by
  unfold runWaits
  rw [h, List.foldl_nil]

/-! ### The two ends of a hint -/

/-- A target is running exactly when its uncore is ON and the agent is not lost (R239). -/
theorem targetUp_iff (s : State) (t : Nat) :
    targetUp s t = true
      ↔ s.on (if t < 8 then domUncore t else domHdUncore (t - 8)) = true ∧ s.coh.lost.contains (targetCache t) = false := by
  unfold targetUp
  split <;> simp

theorem targetCache_lt (t : Nat) (h : t < 10) : targetCache t < 10 := by
  unfold targetCache
  split <;> omega

theorem holder_ne_zero (c : Nat) (h : c < 10) : 1#10 <<< c ≠ 0 := by
  have all : ∀ c < 10, 1#10 <<< c ≠ 0 := by decide
  exact all c h

/-- A target other than the die in whose Canopy the line lies may hold the line (R107). -/
theorem ownCanopy_targetCache (s : State) (line t : Nat) (ht : t < 10) (h : ∀ d r, place s line = .canopy d r → t ≠ d) :
    ownCanopy s (targetCache t) line = false := by
  unfold ownCanopy
  split
  next d r e =>
    have hd := h d r e
    unfold targetCache
    split <;> simp only [beq_eq_false_iff_ne] <;> omega
  next => rfl

section
variable (s : State) (line t n : Nat) (data : List Byte)

/-- A hint whose target does not run: the home writes the line to memory and counts it (R239). -/
theorem placeLine_of_down (hn : homeOf s line = some n) (hOn : s.homeState n = 1) (ht : t < 10)
    (hOwn : ownCanopy s (targetCache t) line = false) :
    placeLine line data (some t) false s = count 0x5854 (n + 1) 1 (memWriteLine line fullMask data s) := by
  unfold placeLine
  rw [hn]
  dsimp only
  rw [if_neg (by simp [hOwn, hOn]; omega), if_pos (by rfl)]

/-- The state in which a running target has made room for a line that a hint places, and holds it (R238). -/
def takenBy : State :=
  setCacheLine (targetCache t) line (some { st := .d, data := data, poisoned := false })
    (openTarget (targetCache t) line (makeWay (targetCache t) line (makeRoom line s)))

@[simp] theorem takenBy_waits : (takenBy s line t data).coh.waits = s.coh.waits := by
  unfold takenBy
  simp

/-- A hint whose target runs: the target holds the line, the directory lists it alone, and the hint is counted (R238). -/
theorem placeLine_of_up (hn : homeOf s line = some n) (hOn : s.homeState n = 1) (ht : t < 10)
    (hOwn : ownCanopy s (targetCache t) line = false) (hw : waitsOf s (targetCache t) line = []) :
    placeLine line data (some t) true s =
      dropWaits (targetCache t) line (count 0x5853 (n + 1) 1
        (setDir line { dirOf (takenBy s line t data) line with sole := true, holders := 1#10 <<< targetCache t }
          (takenBy s line t data))) := by
  unfold placeLine
  rw [hn]
  dsimp only
  rw [if_neg (by simp [hOwn, hOn]; omega), if_neg (by simp)]
  apply runWaits_of_none
  unfold waitsOf at hw ⊢
  rw [count_coh, setDir_waits]
  exact (congrArg (List.filter _) (takenBy_waits s line t data)).trans hw

end

/-- Settles O9: the model's test of the target is the rule's, and each of its answers selects one of the two ends of a hint. -/
theorem hintsMeetTheirTarget : Obligations.HintsMeetTheirTarget := by
  intro s line t n data hn hOn ht hPlace _ hw running up u
  have hOwn := ownCanopy_targetCache s line t ht hPlace
  have hIff : up = true ↔ running := targetUp_iff s t
  constructor
  · intro hDown
    have hf : up = false := by simpa using mt hIff.mp hDown
    have hu : u = count 0x5854 (n + 1) 1 (memWriteLine line fullMask data s) := by
      simpa only [u, hf] using placeLine_of_down s line t n data hn hOn ht hOwn
    refine ⟨hf, hu, by rw [hu, count_coh, memWriteLine_coh], fun hmax => ?_⟩
    have hnum := memWriteLine_fullMask_num line 0x5854 (n + 1) data s
    rw [hu, num_count_same _ _ _ _ (objDefault_hintDropped n (homeOf_lt s line n hn)) Nat.one_pos (by omega), hnum]
  · intro hRun
    have hUp : up = true := hIff.mpr hRun
    have hHolder := holder_ne_zero (targetCache t) (targetCache_lt t ht)
    have hu : u = _ := (congrArg (placeLine line data (some t) · s) hUp).trans (placeLine_of_up s line t n data hn hOn ht hOwn hw)
    have hDir : dirOf u line = { dirOf (takenBy s line t data) line with sole := true, holders := 1#10 <<< targetCache t } := by
      rw [hu, dirOf_dropWaits, dirOf_count, dirOf_setDir_same _ _ _ hHolder]
    refine ⟨hUp, ?_, by rw [hDir], by rw [hDir]⟩
    rw [hu, cacheLine_dropWaits, cacheLine_count, cacheLine_setDir, takenBy, cacheLine_setCacheLine_same]

end Sys2Proof.Machine
end

section
/-!
PROOFS. Lines whose home is OFF (R249): their effective mode is MEMCTRL, and an AMO in that mode is one access.
-/

namespace Sys2Proof.Machine

/-- The effective mode of a line whose home is OFF is MEMCTRL (R249). -/
theorem lineMode_of_home_off (s : State) (line n : Nat) (hn : homeOf s line = some n) (hOff : s.homeState n = 0) :
    lineMode s line = 3 := by
  unfold lineMode
  rw [hn]
  exact if_pos hOff

/-- An AMO in the mode MEMCTRL that takes no exception and finds no poison is one access at the memory controller (R245). -/
theorem doAmo_of_memctrl (s u : State) (h addr w x old : Nat) (op : AtomicOp) (hMode : lineMode s (lineOf addr) = 3)
    (hTrap : atomicTrap s h addr w true = none) (hAt : atomicAt op addr w x s = ((old, false), u)) :
    doAmo h addr w op x s = giveHart h old u := by
  unfold doAmo
  rw [hTrap]
  dsimp only
  rw [if_pos hMode, hAt]
  rfl

/-- Settles O10: the home's state alone selects MEMCTRL, and in that mode the AMO is the access of `atomicAt`. -/
theorem offHomesUseControllers : Obligations.OffHomesUseControllers := by
  intro s addr n hn hOff
  have hMode := lineMode_of_home_off s (lineOf addr) n hn hOff
  refine ⟨hMode, fun h w op x old u hh hw hTrap hAt => ?_⟩
  have wf : Instr.wf (.amo h addr w op x) = true := by simp [Instr.wf, hh, hw]
  exact forUnit_settled wf (doAmo_of_memctrl s u h addr w x old op hMode hTrap hAt)

end Sys2Proof.Machine
end

section
/-!
PROOFS. Subindex 0x00 (R475): an object is named exactly when a row of the tables covers its index and subindex, the highest subindex in
use at an index is the greatest end of the rows that cover the index, and an entry that no row covers is NO_OBJECT to every service.
-/

namespace Sys2Proof.Machine

/-! ### The rows that cover an object -/

/-- The index under which the tables list an object: its counter's for an overflow flag (R471), job 0's for a job's object (R15). -/
def tableIndex (i : Nat) : Nat := if 0x5C00 ≤ i ∧ i < 0x6000 then i - 0x400 else baseIndex i

/-- The indices of a row include b. -/
def ObjRow.coversIndex (r : ObjRow) (b : Nat) : Bool := r.ilo ≤ b && b ≤ r.ihi

theorem baseIndex_of_ge (i : Nat) (h : 0x5000 ≤ i) : baseIndex i = i := if_neg (by omega)

/-- Every row starts at subindex 1 or above and ends within a byte: checked group of rows by group of rows. -/
theorem objRows_sub_bounds : ∀ r ∈ objRows, 1 ≤ r.slo ∧ r.slo ≤ r.shi ∧ r.shi < 256 := by
  unfold objRows
  simp only [List.forall_mem_append]
  and_intros <;> decide

theorem listedRow_ne_none_iff (i j : Nat) :
    listedRow i j ≠ none ↔ ∃ r ∈ objRows, r.coversIndex (baseIndex i) = true ∧ r.slo ≤ j ∧ j ≤ r.shi := by
  simp [listedRow, ObjRow.coversIndex, and_assoc]

/-- Outside subindex 0 an object is named exactly when a row covers it. -/
theorem rowOf_ne_none_iff (i j : Nat) (hj : j ≠ 0) :
    rowOf i j ≠ none ↔ ∃ r ∈ objRows, r.coversIndex (tableIndex i) = true ∧ r.slo ≤ j ∧ j ≤ r.shi := by
  by_cases hOvf : 0x5C00 ≤ i ∧ i < 0x6000
  · have flag : rowOf i j ≠ none ↔ listedRow (i - 0x400) j ≠ none := by
      cases h : listedRow (i - 0x400) j <;> simp [rowOf, hj, hOvf, h]
    rw [flag, listedRow_ne_none_iff, baseIndex_of_ge _ (by omega), tableIndex, if_pos hOvf]
  · rw [rowOf, if_neg hj, if_neg hOvf, listedRow_ne_none_iff, tableIndex, if_neg hOvf]

/-! ### The highest subindex -/

/-- The ends of the subindex ranges of the rows that cover an index. -/
def subEnds (i : Nat) : List Nat := (objRows.filter (·.coversIndex (tableIndex i))).map (·.shi)

theorem mem_subEnds_iff (i h : Nat) : h ∈ subEnds i ↔ ∃ r ∈ objRows, r.coversIndex (tableIndex i) = true ∧ r.shi = h := by
  simp [subEnds, and_assoc]

/-- To keep the largest end met so far is to take the maximum of the ends of the rows that count. -/
theorem foldl_shi_eq_foldl_max (p : ObjRow → Bool) (l : List ObjRow) (m : Nat) :
    l.foldl (fun m r => if p r && m < r.shi then r.shi else m) m = ((l.filter p).map (·.shi)).foldl max m := by
  rw [List.foldl_map, List.foldl_filter]
  congr 1
  funext m r
  cases p r with
  | false => rfl
  | true =>
    rcases lt_or_ge m r.shi with h | h
    · simp [h, h.le]
    · simp [h]

theorem highestSub_eq_foldl_max (i : Nat) : highestSub i = (subEnds i).foldl max 0 :=
  foldl_shi_eq_foldl_max (·.coversIndex (tableIndex i)) objRows 0

/-- Where a row covers the index, the highest subindex is the greatest end of such a row. -/
theorem highestSub_greatest (i : Nat) (hne : subEnds i ≠ []) :
    highestSub i ∈ subEnds i ∧ ∀ h ∈ subEnds i, h ≤ highestSub i := by
  obtain ⟨h, hmax⟩ := Option.ne_none_iff_exists'.mp (mt List.max?_eq_none_iff.mp hne)
  have heq : highestSub i = h := by simp [highestSub_eq_foldl_max, List.foldl_max, hmax]
  rw [heq]
  exact List.max?_eq_some_iff.mp hmax

/-- At an index that holds an object, the highest subindex names an object, and none above it does. -/
theorem rowOf_highestSub (i k : Nat) (hk : k ≠ 0) (hRow : rowOf i k ≠ none) :
    highestSub i ≠ 0 ∧ rowOf i (highestSub i) ≠ none ∧ ∀ j, rowOf i j ≠ none → j ≤ highestSub i := by
  obtain ⟨r, hr, hIx, -, -⟩ := (rowOf_ne_none_iff i k hk).mp hRow
  have hEnd : r.shi ∈ subEnds i := (mem_subEnds_iff i _).mpr ⟨r, hr, hIx, rfl⟩
  obtain ⟨hMem, hTop⟩ := highestSub_greatest i (List.ne_nil_of_mem hEnd)
  obtain ⟨t, ht, htIx, htEnd⟩ := (mem_subEnds_iff i _).mp hMem
  obtain ⟨hlo, hhi, -⟩ := objRows_sub_bounds t ht
  have hPos : highestSub i ≠ 0 := by omega
  refine ⟨hPos, (rowOf_ne_none_iff i _ hPos).mpr ⟨t, ht, htIx, by omega, by omega⟩, fun j hj => ?_⟩
  rcases Nat.eq_zero_or_pos j with rfl | hjPos
  · exact Nat.zero_le _
  · obtain ⟨q, hq, hqIx, -, hjq⟩ := (rowOf_ne_none_iff i j hjPos.ne').mp hj
    exact hjq.trans (hTop _ ((mem_subEnds_iff i _).mpr ⟨q, hq, hqIx, rfl⟩))

/-- Subindex 0 of an index that holds an object is U8 and RO (R475). -/
theorem rowOf_zero (i : Nat) (h : highestSub i ≠ 0) :
    ∃ r, rowOf i 0 = some r ∧ r.type = 2 ∧ r.size = 1 ∧ r.access = 0 :=
  ⟨_, (if_pos rfl).trans (if_neg h), rfl, rfl, rfl⟩

theorem readVal_zero (s : State) (i : Nat) : readVal s i 0 = .num (highestSub i) := if_pos rfl

/-! ### What reads an object, and an entry that names none -/

theorem readBytes_of_row {s : State} {i j : Nat} {r : ObjRow} (h : rowOf i j = some r) :
    readBytes s i j = (r.type, valBytes r.size (readVal s i j)) := by
  simp only [readBytes, h]

section
variable {i j : Nat} (h : rowOf i j = none)
include h

theorem readStatus_of_none (s : State) : readStatus s i j = stNoObject := by simp only [readStatus, h]

theorem writeStatus_of_none (s : State) (path type : Nat) (l : List Byte) : writeStatus s path i j type l = stNoObject := by
  simp only [writeStatus, h]

theorem writeObj_of_none (s : State) (path type : Nat) (l : List Byte) : writeObj path i j type l s = (stNoObject, s) := by
  rw [writeObj, writeStatus_of_none h]
  exact if_neg (by decide)

theorem svcDescribe_of_none (s : State) : svcDescribe i j s = (stNoObject, []) := by simp only [svcDescribe, h]

theorem svcDomRead_of_none (s : State) (off len : Nat) : svcDomRead i j off len s = (stNoObject, []) := by
  simp only [svcDomRead, h]

theorem svcDomWrite_of_none (s : State) (path off : Nat) (l : List Byte) : svcDomWrite path i j off l s = (stNoObject, s) := by
  simp only [svcDomWrite, h]

end

/-- Settles O11: the highest subindex is a maximum over the rows that cover the index, and the row of that maximum names it. -/
theorem subindexZero : Obligations.SubindexZero := by
  refine ⟨objRows_sub_bounds, fun s i k hk hRow => ?_, fun s i j path type l hNone => ?_⟩
  · obtain ⟨hPos, hNamed, hTop⟩ := rowOf_highestSub i k hk hRow
    obtain ⟨r, hr, hType, hSize, hAccess⟩ := rowOf_zero i hPos
    refine ⟨highestSub i, r, hNamed, hTop, hr, hType, hSize, hAccess, ?_⟩
    rw [readBytes_of_row hr, readVal_zero, hType, hSize]
    rfl
  · exact ⟨readStatus_of_none hNone s, writeObj_of_none hNone s path type l, svcDescribe_of_none hNone s,
      svcDomRead_of_none hNone s 0 0, svcDomWrite_of_none hNone s path 0 l⟩

end Sys2Proof.Machine
end

section
/-!
PROOFS. The block as a whole: a command answers a settled state or faults, so every step from a state with no event waiting ends in one.
-/

namespace Sys2Proof.Machine

/-- A command whose operands exist answers a settled state. -/
theorem exec_eq_settle (c : Instr) (s : State) (h : c.wf = true) : ∃ t, exec c s = .next (settle t) := by
  obtain ⟨t, ht⟩ := exec_shape c s
  exact ⟨t, by rw [ht, h, forUnit_true]⟩

theorem exec_eq_fault (c : Instr) (s : State) (h : c.wf = false) : exec c s = .fault .noSuchUnit := by
  obtain ⟨t, ht⟩ := exec_shape c s
  rw [ht, h, forUnit_false]

/-- A command that answers a next state has settled it. -/
theorem exec_next_settled {c : Instr} {s t : State} (h : exec c s = .next t) : ∃ u, t = settle u := by
  obtain ⟨u, hu⟩ := exec_shape c s
  exact ⟨u, (forUnit_next (hu.symm.trans h)).2⟩

/-- The counter's tick posts nothing. -/
@[simp] theorem tick_evq (s : State) : (tick s).evq = s.evq := by
  unfold tick; split <;> rfl

theorem step_cons (s : State) (c : Instr) (r : List Instr) (h : s.pending = c :: r) :
    step s = exec c { s with pending := r } := by
  unfold step; rw [h]

/-- Settles O4: a step on the empty queue is a tick, which posts nothing, and any other ends in `settle`. -/
theorem everyStepEndsQuiet : Obligations.EveryStepEndsQuiet := by
  intro s t hq ht
  cases hp : s.pending with
  | nil =>
    rw [step_idle s hp] at ht
    obtain rfl := Host.Outcome.next.inj ht
    exact (tick_evq s).trans hq
  | cons c r =>
    rw [step_cons s c r hp] at ht
    obtain ⟨u, rfl⟩ := exec_next_settled ht
    exact settle_evq u

/-- Settles O3: `forUnit` alone decides whether a command answers, and it settles what it answers. -/
theorem everyCommandAnswers : Obligations.EveryCommandAnswers := by
  refine fun c s => ⟨fun h => ?_, exec_eq_fault c s⟩
  obtain ⟨t, ht⟩ := exec_eq_settle c s h
  exact ⟨_, ht, settle_evq t⟩

/-- Settles O1, by the definition of a step. -/
theorem stepRunsFrontCommand : Obligations.StepRunsFrontCommand := step_cons

/-! ### The machine after reset -/

section
set_option maxRecDepth 4000

theorem reset_domain : ∀ d, d < 80 → State.reset.domain d = 0 := by decide
theorem reset_jobState : ∀ j, j < 16 → State.reset.jobState j = 0 := by decide
theorem reset_homeState_memState : ∀ n, n < 8 → State.reset.homeState n = 0 ∧ State.reset.memState n = 0 := by decide
theorem reset_portState : ∀ p, p < 24 → portState State.reset p = 0 := by decide
theorem reset_linkState : ∀ k, k < 2 → linkState State.reset k = 0 := by decide
theorem reset_hartState : ∀ h, h < 72 → State.reset.hartState h ≠ 0 := by decide
theorem reset_ring : ∀ k, k < 64 →
    State.reset.num 0x5001 (k + 1) = 0 ∧ ringProd State.reset k = 0 ∧ ringCons State.reset k = 0 := by decide

end

/-- Settles O2: the fields read off the reset state, and each state object its default. -/
theorem resetState : Obligations.ResetState :=
  ⟨rfl, rfl, rfl, rfl, rfl, rfl, reset_mem_wf, rfl, rfl, reset_domain, reset_jobState, reset_homeState_memState,
    reset_portState, reset_linkState, reset_hartState, reset_ring⟩

end Sys2Proof.Machine
end

section
/-!
PROOFS. Bytes written to device memory are read back, and a masked write of a line changes the bytes of its mask alone (R113, R211, R215).
-/

namespace Sys2Proof.Machine

/-- What a byte reads after a store: the stored byte inside the range, its old value outside. -/
theorem tget_putMem (m : List Host.Cell) (a x : Nat) (l : List Byte) (h : twf (0 : Byte) m = true) :
    tget (0 : Byte) x (putMem m a l) = if a ≤ x ∧ x < a + l.length then l.getD (x - a) 0 else tget 0 x m := by
  by_cases hx : a ≤ x ∧ x < a + l.length
  · obtain ⟨k, rfl⟩ := Nat.exists_eq_add_of_le hx.1
    have hk : k < l.length := by omega
    rw [if_pos hx, tget_putMem_inside m a k l h hk, Nat.add_sub_cancel_left, List.getD_eq_getElem _ _ hk]
  · rw [if_neg hx, tget_putMem_other m a x l h (by omega)]

theorem getByte_putBytes (s : State) (a x : Nat) (l : List Byte) (h : Memory.wf s.mem = true) :
    getByte (putBytes s a l) x = if a ≤ x ∧ x < a + l.length then l.getD (x - a) 0 else getByte s x :=
  tget_putMem s.mem a x l h

@[simp] theorem mergeMask_length (mask : Nat) (l d : List Byte) : (mergeMask mask l d).length = l.length := by
  induction l generalizing mask d with
  | nil => rfl
  | cons a r ih => cases d <;> simp [mergeMask, ih]

/-- Byte k of a merge is the second list's where bit k of the mask is set. -/
theorem mergeMask_getD (mask k : Nat) (l d : List Byte) (hk : k < l.length) (hd : l.length = d.length) :
    (mergeMask mask l d).getD k 0 = if mask.testBit k = true then d.getD k 0 else l.getD k 0 := by
  induction l generalizing mask d k with
  | nil => simp at hk
  | cons a r ih =>
    cases d with
    | nil => simp at hd
    | cons b t =>
      cases k with
      | zero => simp only [mergeMask, List.getD_cons_zero, Nat.testBit_zero, decide_eq_true_eq]
      | succ k =>
        simp only [mergeMask, List.getD_cons_succ, Nat.testBit_add_one]
        exact ih _ _ _ (by simpa using hk) (by simpa using hd)

theorem getBytes_getD (s : State) (a n k : Nat) (hk : k < n) : (getBytes s a n).getD k 0 = getByte s (a + k) := by
  rw [getBytes_eq, List.getD_eq_getElem _ _ (by simpa using hk)]
  simp

/-- Settles O6: a masked write is the store of the merged line, whose unmasked bytes are the old ones. -/
theorem writesReadBack : Obligations.WritesReadBack := by
  intro s line mask data hwf hlen
  refine ⟨fun x => ?_, fun l x => getByte_putBytes s line x l hwf⟩
  have hold : (getBytes s line 64).length = data.length := by simp [hlen]
  unfold getByte
  rw [memWriteLine_mem, tget_putMem _ _ _ _ hwf, mergeMask_length, getBytes_length]
  by_cases hx : line ≤ x ∧ x < line + 64
  · obtain ⟨k, rfl⟩ := Nat.exists_eq_add_of_le hx.1
    have hk : k < 64 := by omega
    rw [if_pos hx, Nat.add_sub_cancel_left, mergeMask_getD _ _ _ _ (by simpa using hk) hold, getBytes_getD _ _ _ _ hk]
    simp [hk, getByte]
  · rw [if_neg hx, if_neg fun h => hx ⟨h.1, h.2.1⟩]

end Sys2Proof.Machine
end

section
/-!
PROOFS. The value of a QN4 element (R33), and the heartwood of a QW32 value, its upper half, which decodes to that value truncated to QW16
precision (R40, R69).
-/

namespace Sys2Proof.Machine

/-- The integer of a QN4 code: 0 to 7, then -8 to -1. -/
theorem ofInt_signedOf_four : ∀ q, q < 16 →
    ofInt (signedOf 4 q) = .fin (decide (8 ≤ q)) (if q < 8 then q else 16 - q) 0 := by decide

theorem scalePoisoned_of_lt {x : Nat} (h : x < 128) : scalePoisoned x = false := Nat.testBit_lt_two_pow h

/-- A QN4 element is its integer times 2^(x - 63). -/
theorem elemValue_codeQN4 (q x : Nat) (hq : q < 16) (hx : x < 128) :
    elemValue codeQN4 q (some x) = .fin (decide (8 ≤ q)) (if q < 8 then q else 16 - q) ((x : Int) - 63) := by
  unfold elemValue codeQN4
  simp only [scalePoisoned_of_lt hx, ofInt_signedOf_four q hq, Nat.mod_eq_of_lt hx, scaleBy, Bool.false_eq_true, if_false, zero_add]

theorem pairingOk_codeQN4 (bs : Nat) : pairingOk codeQN4 bs = true ↔ bs = 1 ∨ bs = 2 := by
  simp [pairingOk, codeQN4]

/-! ### The upper half of a QW32 code -/

section
variable (w : Nat)

theorem bits_upper_half (hw : w < 2 ^ 32) : bits w 31 16 = w / 2 ^ 16 := by
  rw [bits, Nat.shiftRight_eq_div_pow]
  exact Nat.mod_eq_of_lt (by omega)

theorem upper_sign : bit (w / 2 ^ 16) 15 = bit w 31 := by
  rw [bit, bit, ← Nat.shiftRight_eq_div_pow, Nat.testBit_shiftRight]

theorem upper_exponent : w / 2 ^ 16 / 2 ^ 8 = w / 2 ^ 24 := by rw [Nat.div_div_eq_div_mul, ← Nat.pow_add]

theorem upper_fraction : w / 2 ^ 16 % 2 ^ 8 = w % 2 ^ 24 / 2 ^ 16 := by omega

/-- The value of a QW32 code, by its exponent field. -/
theorem decodeF_qw32 : decodeF qw32 w =
    if w / 2 ^ 24 % 2 ^ 7 = 127 then (if w % 2 ^ 24 = 0 then .inf (bit w 31) else .nan)
    else if w / 2 ^ 24 % 2 ^ 7 = 0 then .fin (bit w 31) (w % 2 ^ 24) (-86)
    else .fin (bit w 31) (w % 2 ^ 24 + 2 ^ 24) (((w / 2 ^ 24 % 2 ^ 7 : Nat) : Int) - 63 - 24) := rfl

/-- The value of the heartwood, by the same fields. -/
theorem decodeF_qw16_upper : decodeF qw16 (w / 2 ^ 16) =
    if w / 2 ^ 24 % 2 ^ 7 = 127 then (if w % 2 ^ 24 / 2 ^ 16 = 0 then .inf (bit w 31) else .nan)
    else if w / 2 ^ 24 % 2 ^ 7 = 0 then .fin (bit w 31) (w % 2 ^ 24 / 2 ^ 16) (-70)
    else .fin (bit w 31) (w % 2 ^ 24 / 2 ^ 16 + 2 ^ 8) (((w / 2 ^ 24 % 2 ^ 7 : Nat) : Int) - 63 - 8) := by
  rw [← upper_fraction, ← upper_sign, ← upper_exponent]
  rfl

/-- A finite value loses the 16 low bits of its magnitude, which is truncation toward zero (R40). -/
theorem decodeF_heartwood_fin {neg : Bool} {m : Nat} {e : Int} (h : decodeF qw32 w = .fin neg m e) :
    decodeF qw16 (w / 2 ^ 16) = .fin neg (m / 2 ^ 16) (e + 16) := by
  rw [decodeF_qw32] at h
  rw [decodeF_qw16_upper]
  split at h
  · split at h <;> simp at h
  · rename_i hTop
    rw [if_neg hTop]
    split at h
    · rename_i hZero
      obtain ⟨rfl, rfl, rfl⟩ := FV.fin.inj h
      rw [if_pos hZero]
      rfl
    · rename_i hNonzero
      obtain ⟨rfl, rfl, rfl⟩ := FV.fin.inj h
      rw [if_neg hNonzero]
      congr 1 <;> omega

theorem decodeF_heartwood_inf {neg : Bool} (h : decodeF qw32 w = .inf neg) : decodeF qw16 (w / 2 ^ 16) = .inf neg := by
  rw [decodeF_qw32] at h
  rw [decodeF_qw16_upper]
  split at h
  · rename_i hTop
    split at h
    · rename_i hZero
      rw [if_pos hTop, hZero]
      simpa using h
    · simp at h
  · split at h <;> simp at h

/-- The conversion of QW32 to QW16 takes the upper half, and the canonical NaN for a NaN. -/
theorem convElem_qw32_qw16 (r : Rnd) (s : Option Nat) :
    (convElem codeQW32 codeQW16 r w s).code = if decodeF qw32 w = .nan then nanOf qw16 else w / 2 ^ 16 := by
  unfold convElem
  cases decodeF qw32 w <;> simp [fmtOf, codeQW16, codeQW32]

end

/-- Settles O7: the code's fields of the heartwood are those of the QW32 value, with the low 16 fraction bits gone. -/
theorem elementsAndHeartwood : Obligations.ElementsAndHeartwood := by
  refine ⟨elemValue_codeQN4, pairingOk_codeQN4, fun w hw => ?_⟩
  rw [bits_upper_half w hw]
  refine ⟨rfl, fun _ _ _ => decodeF_heartwood_fin w, fun _ => decodeF_heartwood_inf w, ?_, convElem_qw32_qw16 w⟩
  rintro rfl
  decide

end Sys2Proof.Machine
end

section
/-!
PROOFS. What the fall of EN, a power fault and the input crossing 20 V leave of a package, and what holds power-up (R537, R546, R579).
-/

namespace Sys2Proof.Machine

/-! ### Ways off -/

theorem enFalls_of_on {s : State} (hOn : s.pwr.on = true) (hEn : s.pwr.en = true) :
    enFalls s = { State.reset with
      pending := s.pending, fuses := s.fuses, free := s.free, out := s.out,
      pwr := { Pwr.init with vinMv := s.pwr.vinMv, latched := s.pwr.latched, latchedSource := s.pwr.latchedSource,
                             en := false, restDone := false, resting := true, faulted := false } } := by
  simp only [enFalls, offState, hOn, hEn, if_true]

theorem enFalls_of_off {s : State} (hOff : s.pwr.on = false) (hEn : s.pwr.en = true) :
    enFalls s = { s with pwr := { s.pwr with en := false, restDone := false, resting := true } } := by
  simp only [enFalls, hOff, hEn, if_true, Bool.false_eq_true, if_false]

theorem powerFault_of_on {s : State} {cause : Nat} (src : Nat) (hOn : s.pwr.on = true) (hlo : 1 ≤ cause) (hhi : cause ≤ 5) :
    powerFault cause src s = { State.reset with
      pending := s.pending, fuses := s.fuses, free := s.free, out := s.out,
      pwr := { Pwr.init with en := s.pwr.en, vinMv := s.pwr.vinMv, restDone := false, resting := false, faulted := true,
                             latched := cause, latchedSource := if cause = 5 then src % 4096 else 0 } } := by
  rw [powerFault, if_pos ⟨hOn, hlo, hhi⟩]
  rfl

theorem crosses20_fall_of_on {s : State} (hOn : s.pwr.on = true) :
    crosses20 false s = { State.reset with
      pending := s.pending, fuses := s.fuses, free := s.free, out := s.out,
      pwr := { Pwr.init with en := s.pwr.en, restDone := false } } := by
  simp only [crosses20, hOn, if_true, Bool.false_eq_true, if_false]
  rfl

theorem crosses20_rise_of_off {s : State} (hOff : s.pwr.on = false) :
    crosses20 true s = { s with pwr := { s.pwr with vinMv := 20000, restDone := false, resting := true } } := by
  simp only [crosses20, hOff, if_true, Bool.false_eq_true, if_false]

/-! ### What holds power-up -/

/-- EN is noted, and without a good input or the end of the rest interval nothing else happens. -/
theorem raiseEn_held {s : State} {b : Board} (hOff : s.pwr.on = false) (h : s.pwr.restDone = false ∨ b.vinMv < 36000) :
    raiseEn b s = { s with pwr := { s.pwr with en := true, vinMv := b.vinMv } } := by
  have held : ¬ (s.pwr.restDone = true ∧ 36000 ≤ b.vinMv) := by
    rintro ⟨hr, hv⟩
    rcases h with h | h
    · simp [h] at hr
    · omega
  simp only [raiseEn, hOff, Bool.false_eq_true, if_false, if_neg held]

/-- With EN high, a good input and the rest interval over the boot runs. -/
theorem raiseEn_boots {s : State} {b : Board} (hOff : s.pwr.on = false) (hRest : s.pwr.restDone = true) (hVin : 36000 ≤ b.vinMv) :
    raiseEn b s = boot b { s with pwr := { s.pwr with en := true, vinMv := b.vinMv } } := by
  have good : s.pwr.restDone = true ∧ 36000 ≤ b.vinMv := ⟨hRest, hVin⟩
  simp only [raiseEn, hOff, Bool.false_eq_true, if_false, if_pos good]

theorem restEnds_low {s : State} (b : Board) (hResting : s.pwr.resting = true) (hEn : s.pwr.en = false) :
    restEnds b s = { s with pwr := { s.pwr with resting := false, restDone := true } } := by
  simp only [restEnds, hResting, hEn, if_true, Bool.false_eq_true, if_false]

/-- Settles O12: each command's effect is its named state, in which no event waits. -/
theorem packagePower : Obligations.PackagePower := by
  refine ⟨fun s hq => ⟨fun src hOn => ⟨fun hEn => ?_, fun cause hlo hhi => ?_, ?_⟩, fun hOff => ⟨fun hEn => ?_, ?_⟩⟩,
    fun s b hq hOff => ⟨fun h => ?_, fun hResting hEn => ?_⟩⟩
  · exact forUnit_done rfl (enFalls_of_on hOn hEn) rfl
  · exact forUnit_done rfl (powerFault_of_on src hOn hlo hhi) rfl
  · exact forUnit_done rfl (crosses20_fall_of_on hOn) rfl
  · exact forUnit_done rfl (enFalls_of_off hOff hEn) hq
  · exact forUnit_done rfl (crosses20_rise_of_off hOff) hq
  · exact forUnit_done rfl (raiseEn_held hOff h) hq
  · exact forUnit_done rfl (restEnds_low b hResting hEn) hq

end Sys2Proof.Machine
end

section
/-!
PROOFS. The time counter, its references and the timer interrupts (R415, R416, R576).
-/

namespace Sys2Proof.Machine

theorem tick_of_runs {s : State} (h : timeRuns s = true) : tick s = { s with tim := { s.tim with now := s.tim.now + 1 } } :=
  if_pos h

theorem tick_of_stopped {s : State} (h : timeRuns s = false) : tick s = s := by
  unfold tick; rw [h]; rfl

/-- The number of a reference: 1 for TIMEREF, 2 for REFCLK alone, 0 for none, so that it is 0 exactly without one. -/
theorem sourceOf_ne_zero (t r : Bool) : (sourceOf t r != 0) = (t || r) := by cases t <;> cases r <;> rfl

theorem sourceOf_eq (t r : Bool) : sourceOf t r = if t then 1 else if r then 2 else 0 := rfl

/-- A change of source is counted, unless the counter stops, and reported. -/
theorem setSource_of_ne {k v : Nat} {s : State} (hk : s.timeSource = k) (h : k ≠ v) :
    setSource v s = post 0x6002 (src 0 3) 0x1F [(1, k), (1, v), (8, s.tim.now)]
      ((if v = 0 then s else count 0x5892 1 1 s).setNum 0x6003 2 v) := by
  subst hk; exact if_neg h

/-- TIMEREF is lost while it is the source: the counter goes on with REFCLK, or stops. -/
theorem execTimerefLoss_of_source {s : State} (hSt : s.tim.started = true) (hSrc : s.timeSource = 1) (hRef : s.tim.timeref = true) :
    execTimerefLoss s = .next (settle
      (let u := { s with tim := { s.tim with timeref := false } }
       post 0x6002 (src 0 3) 0x1F [(1, 1), (1, if s.tim.refclk then 2 else 0), (8, s.tim.now)]
         ((if s.tim.refclk then count 0x5892 1 1 u else u).setNum 0x6003 2 (if s.tim.refclk then 2 else 0)))) := by
  refine forUnit_settled rfl ?_
  rw [if_pos (by rw [hSt, hRef]; rfl)]
  refine (if_pos hSrc).trans ?_
  cases s.tim.refclk
  · exact setSource_of_ne hSrc (by decide)
  · exact setSource_of_ne hSrc (by decide)

theorem execReferenceLoss_of_source {s : State} (hSt : s.tim.started = true) (hSrc : s.timeSource ≠ 0) :
    execReferenceLoss s = .next (settle
      (post 0x6002 (src 0 3) 0x1F [(1, s.timeSource), (1, 0), (8, s.tim.now)]
        ({ s with tim := { s.tim with timeref := false, refclk := false } }.setNum 0x6003 2 0))) := by
  refine forUnit_settled rfl ?_
  rw [if_pos hSt]
  exact setSource_of_ne rfl hSrc

/-- A reference returns after both were lost: REFCLK takes the counter up, TIMEREF is only noted (log entry 14). -/
theorem execTimeReferenceReturn_of_none {s : State} (t : Bool) (hSt : s.tim.started = true) (hSrc : s.timeSource = 0) :
    execTimeReferenceReturn t s = .next (settle
      (let u := { s with tim := { s.tim with timeref := t || s.tim.timeref, refclk := !t || s.tim.refclk } }
       if t = true then u
       else post 0x6002 (src 0 3) 0x1F [(1, 0), (1, 2), (8, s.tim.now)] ((count 0x5892 1 1 u).setNum 0x6003 2 2))) := by
  refine forUnit_settled rfl ?_
  rw [if_pos hSt]
  cases t with
  | true => exact if_neg (by simp)
  | false =>
    exact (if_pos ⟨hSrc, rfl⟩).trans (setSource_of_ne hSrc (by decide))

theorem execTimeReferenceStart_of_stopped {s : State} (t r : Bool) (hq : s.Quiet) (hOn : s.pwr.on = true) (hSt : s.tim.started = false) :
    execTimeReferenceStart t r s = .next
      ({ s with tim := { now := 0, started := t || r, timeref := t, refclk := r } }.setNum 0x6003 2 (if t then 1 else if r then 2 else 0)) := by
  refine forUnit_done rfl ?_ hq
  rw [hOn, hSt, sourceOf_ne_zero, sourceOf_eq]
  rfl

/-- While the counter runs, the comparison of the named level is made. -/
theorem execTimerInterrupt_of_runs {s u : State} {h : Nat} {level : TimerLevel} (hh : h < 72) (hRuns : timeRuns s = true)
    (hu : doTimer h level s = u) (hq : u.evq = []) : execTimerInterrupt h level s = .next u := by
  refine forUnit_done (decide_eq_true hh) ?_ hq
  rw [if_pos hRuns, hu]

/-- Settles O14: each command's effect is the equation of its case, and a step on the empty queue is a tick. -/
theorem timeBase : Obligations.TimeBase := by
  refine ⟨fun s hp => ⟨fun hr => ?_, fun hr => ?_⟩, fun s hq => ⟨fun t r hOn hSt => ?_, fun hSt => ⟨?_, ?_, fun t hSrc => ?_⟩⟩,
    fun s h hq hh hRuns => ⟨?_, ?_, ?_⟩⟩
  · rw [step_idle s hp, tick_of_runs hr]
  · rw [step_idle s hp, tick_of_stopped hr]
  · exact execTimeReferenceStart_of_stopped t r hq hOn hSt
  · exact execTimerefLoss_of_source hSt
  · exact execReferenceLoss_of_source hSt
  · exact execTimeReferenceReturn_of_none t hSt hSrc
  all_goals exact execTimerInterrupt_of_runs hh hRuns rfl (by split <;> exact hq)

end Sys2Proof.Machine
end

section
/-!
PROOFS. A hart starts and stops, and what its registers hold when it enters (R419).
-/

namespace Sys2Proof.Machine

/-- A bit that has been written reads as written. -/
theorem bit_setBit_same (w i : Nat) (b : Bool) : bit (setBit w i b) i = b := by
  unfold setBit
  by_cases h : bit w i = b
  · rw [if_pos (beq_iff_eq.mpr h), h]
  · rw [if_neg (mt beq_iff_eq.mp h)]
    unfold bit at h ⊢
    have hpos : 0 < 2 ^ i := Nat.two_pow_pos i
    cases b with
    | true =>
      simp only [Nat.testBit_eq_decide_div_mod_eq, decide_eq_true_eq, if_true] at h ⊢
      rw [Nat.add_div_right _ hpos]
      omega
    | false =>
      simp only [Nat.testBit_eq_decide_div_mod_eq, Bool.false_eq_true, if_false,
        decide_eq_false_iff_not] at h ⊢
      have hle : 2 ^ i ≤ w := Nat.le_of_not_lt fun hlt => by simp [Nat.div_eq_of_lt hlt] at h
      have := Nat.div_eq_sub_div hpos hle
      omega

/-! ### Registers of a hart -/

theorem Hart.xreg_setX_same (x : Hart) (n v : Nat) (hn : n ≠ 0) (h : tsorted x.x = true) : (x.setX n v).xreg n = v := by
  simp only [Hart.setX, Hart.xreg, if_neg hn]
  exact tget_tset_same 0 v n x.x h

theorem Hart.xreg_setX_other (x : Hart) (n v r : Nat) (hr : r ≠ n) (h : tsorted x.x = true) : (x.setX n v).xreg r = x.xreg r := by
  unfold Hart.setX Hart.xreg
  split
  · rfl
  · split
    · rfl
    · exact tget_tset_other 0 0 v n r x.x h hr

theorem Hart.sorted_setX (x : Hart) (n v : Nat) (h : tsorted x.x = true) : tsorted (x.setX n v).x = true := by
  unfold Hart.setX
  split
  · exact h
  · exact tsorted_tset 0 v n x.x h

theorem Hart.csrAt_setCsr_same (x : Hart) (n v : Nat) (h : tsorted x.csr = true) : (x.setCsr n v).csrAt n = v :=
  tget_tset_same 0 v n x.csr h

theorem Hart.csrAt_setCsr_other (x : Hart) (n v r : Nat) (hr : r ≠ n) (h : tsorted x.csr = true) :
    (x.setCsr n v).csrAt r = x.csrAt r := tget_tset_other 0 0 v n r x.csr h hr

/-- The integer registers at entry: a0 and a1 are given, every other is as it was. -/
theorem Hart.enter_xreg (x : Hart) (pc a0 a1 r : Nat) (h : tsorted x.x = true) :
    (x.enter pc a0 a1).xreg r = if r = 10 then a0 else if r = 11 then a1 else x.xreg r := by
  have e : (x.enter pc a0 a1).xreg r = ((x.setX 10 a0).setX 11 a1).xreg r := rfl
  have h1 := x.sorted_setX 10 a0 h
  rw [e]
  by_cases h11 : r = 11
  · subst h11
    exact Hart.xreg_setX_same _ 11 a1 (by decide) h1
  · rw [Hart.xreg_setX_other _ 11 a1 r h11 h1]
    by_cases h10 : r = 10
    · subst h10
      exact Hart.xreg_setX_same x 10 a0 (by decide) h
    · rw [Hart.xreg_setX_other x 10 a0 r h10 h, if_neg h10, if_neg h11]

/-- The control registers at entry: satp is 0, MIE of mstatus is clear, every other is as it was. -/
theorem Hart.enter_csrAt (x : Hart) (pc a0 a1 n : Nat) (h : tsorted x.csr = true) :
    (x.enter pc a0 a1).csrAt n =
      if n = 0x300 then setBit (x.csrAt 0x300) 3 false else if n = 0x180 then 0 else x.csrAt n := by
  have hx : ((x.setX 10 a0).setX 11 a1).csr = x.csr := rfl
  let y := ((x.setX 10 a0).setX 11 a1).setCsr 0x180 0
  have hy : tsorted y.csr = true := tsorted_tset _ _ _ _ h
  have hcsr : ∀ r, y.csrAt r = if r = 0x180 then 0 else x.csrAt r := by
    intro r
    by_cases hr : r = 0x180
    · subst hr
      exact Hart.csrAt_setCsr_same _ 0x180 0 h
    · rw [if_neg hr]
      exact Hart.csrAt_setCsr_other _ 0x180 0 r hr h
  have e : (x.enter pc a0 a1).csrAt n = (y.setCsr 0x300 (setBit (y.csrAt 0x300) 3 false)).csrAt n := rfl
  rw [e]
  by_cases hn : n = 0x300
  · subst hn
    rw [Hart.csrAt_setCsr_same _ _ _ hy, hcsr]
    rfl
  · rw [Hart.csrAt_setCsr_other _ _ _ n hn hy, hcsr, if_neg hn]

/-! ### Starting and stopping -/

theorem execHartStartPc_of_stopped {s : State} {h : Nat} (pc : Nat) (hq : s.Quiet) (hh : h < 72) (hSt : s.hartState h = 1)
    (hOn : hartOn s h = true) : execHartStartPc h pc s = .next (startHart h pc (s.hart h).arg s) :=
  forUnit_done (decide_eq_true hh) (if_pos ⟨hSt, hOn⟩) hq

theorem execHartStartPc_of_other {s : State} {h : Nat} (pc : Nat) (hq : s.Quiet) (hh : h < 72)
    (hNot : s.hartState h ≠ 1 ∨ hartOn s h = false) : execHartStartPc h pc s = .next s := by
  refine forUnit_done (decide_eq_true hh) (if_neg ?_) hq
  rintro ⟨hSt, hOn⟩
  rcases hNot with h | h
  · exact h hSt
  · simp [hOn] at h

/-- Settles O15: the start is `startHart` on a stopped hart alone, and the registers at entry are read off field by field. -/
theorem hartStartAndStop : Obligations.HartStartAndStop := by
  refine ⟨fun s h pc hq hh => ⟨execHartStartPc_of_stopped pc hq hh, execHartStartPc_of_other pc hq hh, fun hSt => ?_⟩,
    fun x pc a0 a1 hx hcsr => ⟨rfl, rfl, rfl, ?_, ?_, ?_, ?_, fun r h10 h11 => ?_, fun n h180 h300 => ?_, rfl, rfl, rfl, rfl,
      fun s h => ⟨rfl, rfl⟩⟩⟩
  · exact forUnit_done (decide_eq_true hh) (if_pos hSt) hq
  · rw [Hart.enter_xreg x pc a0 a1 10 hx]; rfl
  · rw [Hart.enter_xreg x pc a0 a1 11 hx]; rfl
  · rw [Hart.enter_csrAt x pc a0 a1 0x180 hcsr]; rfl
  · rw [Hart.enter_csrAt x pc a0 a1 0x300 hcsr]; exact bit_setBit_same _ 3 false
  · rw [Hart.enter_xreg x pc a0 a1 r hx, if_neg h10, if_neg h11]
  · rw [Hart.enter_csrAt x pc a0 a1 n hcsr, if_neg h300, if_neg h180]

end Sys2Proof.Machine
end

section
/-!
PROOFS. Objects read after a write whatever the table holds, and power domains that ramp, come up, fail and go off (R541 to R545).
-/

namespace Sys2Proof.Machine

/-! ### Objects, whatever the table holds -/

/-- A key keeps its value when a lower key is written, or any other key is given a value that is not its default. -/
theorem tget_tset_other_of {α : Type} [DecidableEq α] (d d' v : α) (k j : Nat) (t : Tab α) (hj : j ≠ k) (h : v ≠ d ∨ k < j) :
    tget d' j (tset d k v t) = tget d' j t := by
  induction t with
  | nil => by_cases hv : v = d <;> simp [tset, tget, hv, hj]
  | cons e r ih =>
    obtain ⟨k', v'⟩ := e
    rcases lt_trichotomy k k' with hk | rfl | hk
    · by_cases hv : v = d
      · simp [tset, hk, hv]
      · rcases hj.lt_or_gt with hlt | hgt
        · simp [tset, tget, hk, hv, hj, hlt, (hlt.trans hk).ne, hlt.trans hk]
        · simp [tset, tget, hk, hv, hj, hgt.not_gt]
    · by_cases hv : v = d
      · have hkj : k < j := h.resolve_left (not_not.mpr hv)
        simp [tset, tget, hv, hj, hkj.not_gt]
      · simp [tset, tget, hv, hj]
    · simp only [tset, hk.not_gt, hk.ne', if_false, tget, ih]

theorem num_setNum_same_of (s : State) (i j n : Nat) (h : Val.num n ≠ objDefault (okey i j)) : (s.setNum i j n).num i j = n := by
  have e : (s.setNum i j n).val i j = .num n := tget_tset_of_ne_default _ _ _ _ h
  simp only [State.num, e]

theorem num_setNum_other_of (s : State) (i j i' j' n : Nat) (hk : okey i' j' ≠ okey i j)
    (h : Val.num n ≠ objDefault (okey i j) ∨ okey i j < okey i' j') : (s.setNum i j n).num i' j' = s.num i' j' := by
  have e : (s.setNum i j n).val i' j' = s.val i' j' := tget_tset_other_of _ _ _ _ _ _ hk h
  simp only [State.num, e]

theorem okey_lt {i j i' j' : Nat} (hj : j < 256) (hi : i < i') : okey i j < okey i' j' := by
  unfold okey; omega

theorem objDefault_domain : ∀ d, d < 80 → objDefault (okey 0x2010 (d + 1)) = .num 0 := by decide

theorem num_ne_objDefault_domain {d v : Nat} (hd : d < 80) (hv : v ≠ 0) : Val.num v ≠ objDefault (okey 0x2010 (d + 1)) := by
  rw [objDefault_domain d hd]
  exact fun h => hv (Val.num.inj h)

theorem domain_setDomain_same (s : State) (d v : Nat) (hd : d < 80) (hv : v ≠ 0) : (s.setDomain d v).domain d = v :=
  num_setNum_same_of s _ _ v (num_ne_objDefault_domain hd hv)

/-- The state of a domain moves no object of a higher index. -/
theorem num_setDomain_above (s : State) (d v i j : Nat) (hd : d < 80) (hi : 0x2010 < i) : (s.setDomain d v).num i j = s.num i j :=
  num_setNum_other_of s _ _ i j v (okey_lt (by omega) hi).ne' (.inr (okey_lt (by omega) hi))

/-! ### Ramps -/

@[simp] theorem rampDomain_evq (d : Nat) (s : State) : (rampDomain d s).evq = s.evq := by
  unfold rampDomain; split <;> rfl

/-- The domains of a list start to ramp, each in its step (R543). -/
theorem rampStepOf_of_opened {s : State} {l : List Nat} (hOpen : s.pwr.opened = true) (hl : ∀ e ∈ l, e < 80) :
    rampStepOf l s = l.foldl (fun u e => if stepReached u e then rampDomain e u else u) s := by
  have hf : l.filter (· < 80) = l := List.filter_eq_self.mpr fun e he => decide_eq_true (hl e he)
  rw [rampStepOf, if_pos hOpen, hf]

theorem rampSteps_evq (l : List Nat) (s : State) :
    (l.foldl (fun u e => if stepReached u e then rampDomain e u else u) s).evq = s.evq := by
  refine foldl_keeps State.evq _ (fun u e => ?_) l s
  split <;> simp

theorem rampDomain_of_due {s : State} {d : Nat} (h0 : s.domain d = 0) (hWant : domWanted s d = true) (hNeeds : needsMet s d = true)
    (hRoom : rampRoom s = true) : rampDomain d s = s.setDomain d 1 := if_pos ⟨h0, hWant, hNeeds, hRoom⟩

/-! ### Quadrants -/

/-- No domain needs a quadrant (R542). -/
theorem quad_not_needed : ∀ n < 8, ∀ q < 4, ∀ e < 80, domQuad n q ∉ domNeeds e := by decide

theorem filter_range_eq_singleton {d m : Nat} (hd : d < m) : (List.range m).filter (· == d) = [d] := by
  rw [List.filter_beq, List.count_eq_one_of_mem List.nodup_range (List.mem_range.mpr hd), List.replicate_one]

theorem domQuad_div {n q : Nat} (hq : q < 4) : domQuad n q / 6 = n := by unfold domQuad; omega

theorem domQuad_mod {n q : Nat} (hq : q < 4) : domQuad n q % 6 = q := by unfold domQuad; omega

theorem drained_quad {n q : Nat} (hq : q < 4) (s : State) : drained s (domQuad n q) = true := by
  rw [drained, domQuad_mod hq]
  exact if_neg (by omega)

section
variable {n q : Nat} (hn : n < 8) (hq : q < 4)
include hn hq

theorem domQuad_lt : domQuad n q < 80 := by unfold domQuad; omega

theorem domQuad_lt_48 : domQuad n q < 48 := by unfold domQuad; omega

/-- A quadrant loses its tiles with the errors in them. -/
theorem loseContents_quad (s : State) : loseContents (domQuad n q) s = clearQuad n q s := by
  rw [loseContents, if_pos (domQuad_lt_48 hn hq), domQuad_mod hq, domQuad_div hq]
  exact if_pos hq

theorem failUnits_quad (s : State) : failUnits (domQuad n q) s = s := by
  rw [failUnits, if_pos (domQuad_lt_48 hn hq), domQuad_mod hq]
  exact if_neg (by omega)

theorem drainDomain_quad (s : State) : drainDomain (domQuad n q) s = s := by
  rw [drainDomain, if_pos (domQuad_lt_48 hn hq), domQuad_mod hq]
  exact if_neg (by omega)

theorem domainClamp_quad (s : State) : domainClamp (domQuad n q) s = s.setDomain (domQuad n q) 3 :=
  if_neg (by have := domQuad_lt_48 hn hq; omega)

/-- A quadrant fails alone. -/
theorem failSet_quad {s : State} (h4 : s.domain (domQuad n q) ≠ 4) : failSet s [domQuad n q] = [domQuad n q] := by
  refine (List.filter_congr fun e he => ?_).trans (filter_range_eq_singleton (domQuad_lt hn hq))
  have hNeeds : (domNeeds e).any ([domQuad n q].contains ·) = false := by
    refine List.any_eq_false.mpr fun x hx hc => quad_not_needed n hn q hq e (List.mem_range.mp he) ?_
    obtain rfl : x = domQuad n q := by simpa using hc
    exact hx
  rw [hNeeds, Bool.and_false, Bool.or_false]
  by_cases heq : e = domQuad n q
  · simp [heq, h4]
  · simp [heq]

/-- An idle quadrant that is not asked for is due to go off. -/
theorem offDue_quad {s : State} (hOn : s.domain (domQuad n q) = 2) (hWant : domWanted s (domQuad n q) = false)
    (hOps : (s.die n).ops = []) : offDue s (domQuad n q) = true := by
  have hNone : (allDomains.all fun e => !liveDomain s e || !(domNeeds e).contains (domQuad n q)) = true := by
    refine List.all_eq_true.mpr fun e he => ?_
    simp [quad_not_needed n hn q hq e (List.mem_range.mp he)]
  rw [offDue, hNone, hWant, if_pos (domQuad_lt_48 hn hq), domQuad_div hq, hOps]
  simp [State.on, hOn]

/-- The state of a quadrant says nothing of whether it is asked for. -/
theorem domWanted_setDomain_quad (s : State) (v : Nat) :
    domWanted (s.setDomain (domQuad n q) v) (domQuad n q) = domWanted s (domQuad n q) := by
  simp only [domWanted, if_pos (domQuad_lt_48 hn hq), domQuad_mod hq, if_pos hq, quadEnabled]
  rw [num_setDomain_above s _ v 0x3C00 2 (domQuad_lt hn hq) (by decide), num_setDomain_above s _ v 0x3C01 _ (domQuad_lt hn hq) (by decide)]

theorem domainOff_quad {s : State} (hWant : domWanted s (domQuad n q) = false) :
    domainOff (domQuad n q) s = clearQuad n q (s.setDomain (domQuad n q) 0) := by
  have hNot : domWanted (clearQuad n q (s.setDomain (domQuad n q) 0)) (domQuad n q) = false :=
    (domWanted_setDomain_quad hn hq s 0).trans hWant
  rw [domainOff, loseContents_quad hn hq]
  exact if_neg fun h => by simp [hNot] at h

end

/-- With no job about, a fault reaches none. -/
theorem faultJobs_of_idle {s : State} (p : State → Nat → Bool) (code detail : Nat) (h : ∀ j, j < 16 → s.jobState j = 0) :
    faultJobs p code detail s = s := by
  have hNone : runningJobs s (p s) = [] := by
    refine List.filter_eq_nil_iff.mpr fun j hj => ?_
    simp [isRunning, h j (List.mem_range.mp hj)]
  rw [faultJobs, hNone]
  rfl

theorem settleShare_of_set {s : State} (h : s.merr.gSet = true) : settleShare s = s := by
  unfold settleShare
  rw [h]
  rfl

theorem checkPlatform_of_ne {s : State} (h : s.memState 0 ≠ 3) : checkPlatform s = s := if_neg h

/-- A quadrant fails with no job about: it is reported, and its tiles are gone (R545). -/
theorem failDomains_quad {s : State} {n q : Nat} (hn : n < 8) (hq : q < 4) (h4 : s.domain (domQuad n q) ≠ 4)
    (hSet : s.merr.gSet = true) (hMem : s.memState 0 ≠ 3) (hJobs : ∀ j, j < 16 → s.jobState j = 0) :
    failDomains [domQuad n q] s = clearQuad n q (postDomainFail (domQuad n q) (s.setDomain (domQuad n q) 4)) := by
  have above := num_setDomain_above s (domQuad n q) 4
  have idle : ∀ j, j < 16 → (postDomainFail (domQuad n q) (s.setDomain (domQuad n q) 4)).jobState j = 0 := fun j hj =>
    (above (jobIx j 1) 1 (domQuad_lt hn hq) (by unfold jobIx; omega)).trans (hJobs j hj)
  have mem : (clearQuad n q (postDomainFail (domQuad n q) (s.setDomain (domQuad n q) 4))).memState 0 ≠ 3 := fun h =>
    hMem ((above 0x2401 1 (domQuad_lt hn hq) (by decide)).symm.trans h)
  rw [failDomains, failSet_quad hn hq h4]
  simp only [List.foldl_cons, List.foldl_nil]
  rw [failUnits_quad hn hq, faultJobs_of_idle _ _ _ idle, loseContents_quad hn hq, checkPlatform_of_ne mem]
  exact settleShare_of_set hSet

/-! ### Failure and switching off -/

theorem regulatorFail_of_live {s : State} {d e : Nat} {rail : Bool} (he : e ∈ regulated d rail) (h0 : s.domain e ≠ 0)
    (h4 : s.domain e ≠ 4) : regulatorFail d rail s = failDomains (regulated d rail) s :=
  if_pos (List.any_eq_true.mpr ⟨e, he, by simp [liveDomain, h0, h4]⟩)

theorem switchOff_of_draining {s : State} {d : Nat} (h : s.domain d = 3) : switchOff d s = domainOff d s := if_pos h

theorem switchOff_of_due {s : State} {d : Nat} (h : offDue s d = true) :
    switchOff d s = if drained (drainDomain d s) d then domainClamp d (drainDomain d s) else drainDomain d s := by
  have h3 : s.domain d ≠ 3 := by
    intro h3
    simp [offDue, State.on, h3] at h
  rw [switchOff, if_neg h3, if_pos h]

theorem objDefault_memState : ∀ n, n < 8 → objDefault (okey 0x2401 (n + 1)) = .num 0 := by decide

theorem domainClamp_domain (s : State) {d : Nat} (hd : d < 80) : (domainClamp d s).domain d = 3 := by
  have same := domain_setDomain_same s d 3 hd (by decide)
  unfold domainClamp
  split
  · have hOff : Val.num 4 ≠ objDefault (okey 0x2401 (d - 70 + 1)) := by rw [objDefault_memState (d - 70) (by omega)]; decide
    exact (num_setNum_other_of _ _ _ 0x2010 (d + 1) 4 (okey_ne (by omega) (by omega) (.inl (by decide))) (.inl hOff)).trans same
  · exact same

/-- Settles O16: the effect of each command in its case, and for a quadrant the failure and the switching off that touch it alone. -/
theorem domainsRampAndFail : Obligations.DomainsRampAndFail := by
  intro s d hQuiet hd
  have wf : decide (d < 80) = true := decide_eq_true hd
  refine ⟨fun hOpen => ⟨fun l hl => ?_, fun hStep h0 hWant hNeeds hRoom => ?_⟩, fun h1 => ⟨?_, fun hRuns => ?_⟩,
    fun rail e he h0 h4 => ?_, fun h3 => ?_, fun hDue => ⟨fun hDone => ⟨?_, ?_⟩, fun hNot => ?_⟩, ?_⟩
  · exact forUnit_done rfl (rampStepOf_of_opened hOpen hl) ((rampSteps_evq l s).trans hQuiet)
  · have hl : ∀ e ∈ [d], e < 80 := by simpa using hd
    refine forUnit_done rfl ((rampStepOf_of_opened hOpen hl).trans ?_) hQuiet
    rw [List.foldl_cons, List.foldl_nil, if_pos hStep, rampDomain_of_due h0 hWant hNeeds hRoom]
  · exact forUnit_settled wf (if_pos h1)
  · exact forUnit_settled wf (if_pos ⟨h1, hRuns⟩)
  · exact forUnit_settled wf (regulatorFail_of_live he h0 h4)
  · exact forUnit_settled wf (switchOff_of_draining h3)
  · exact forUnit_settled wf ((switchOff_of_due hDue).trans (if_pos hDone))
  · exact domainClamp_domain _ hd
  · exact forUnit_settled wf ((switchOff_of_due hDue).trans (if_neg (by simp [hNot])))
  · rintro n q hn hq rfl
    refine ⟨fun h2 hWant hOps => ?_, fun h3 hWant => ?_, fun hSet hMem hJobs => ⟨fun h1 hRuns => ?_, fun h2 => ?_⟩⟩
    · refine forUnit_done wf ?_ hQuiet
      rw [switchOff_of_due (offDue_quad hn hq h2 hWant hOps), if_pos (drained_quad hq _), drainDomain_quad hn hq,
        domainClamp_quad hn hq]
    · exact forUnit_done wf ((switchOff_of_draining h3).trans (domainOff_quad hn hq hWant)) hQuiet
    · exact forUnit_settled wf ((if_pos ⟨h1, hRuns⟩).trans (failDomains_quad hn hq (by omega) hSet hMem hJobs))
    · exact forUnit_settled wf ((regulatorFail_of_live (rail := false) List.mem_cons_self (by omega) (by omega)).trans
        (failDomains_quad hn hq (by omega) hSet hMem hJobs))

end Sys2Proof.Machine
end

section
/-!
PROOFS. What a domain brings when it comes up (R105, R246, R252, R422, R543).
-/

namespace Sys2Proof.Machine

theorem startBoot_of_none {s : State} (h : s.pwr.handoff = none) : startBoot s = s := by
  unfold startBoot; rw [h]

theorem rampDone_of_ramping {s : State} {d : Nat} (h : s.domain d = 1) :
    rampDone d s = startBoot (domainUp d (s.setDomain d 2)) := if_pos h

/-! ### What each kind of domain brings -/

theorem domainUp_quad {n q : Nat} (hn : n < 8) (hq : q < 4) (s : State) : domainUp (domQuad n q) s = clearQuad n q s := by
  rw [domainUp, if_pos (domQuad_lt_48 hn hq), domQuad_mod hq, domQuad_div hq]
  exact if_pos hq

theorem domainUp_cluster {n q : Nat} (hn : n < 2) (hq : q < 4) (s : State) :
    domainUp (domCluster n q) s = setHarts n q 1 (resetCores n q s) := by
  have hd : ¬ domCluster n q < 48 ∧ domCluster n q < 58 ∧ (domCluster n q - 48) / 5 = n ∧ (domCluster n q - 48) % 5 = q := by
    unfold domCluster; omega
  obtain ⟨h48, h58, hDiv, hMod⟩ := hd
  simp only [domainUp, if_neg h48, if_pos h58, hDiv, hMod, if_neg (show ¬ q = 4 by omega)]

theorem domainUp_hdUncore {n : Nat} (hn : n < 2) (s : State) : domainUp (domHdUncore n) s = agentBack n s := by
  have hd : ¬ domHdUncore n < 48 ∧ domHdUncore n < 58 ∧ (domHdUncore n - 48) / 5 = n ∧ (domHdUncore n - 48) % 5 = 4 := by
    unfold domHdUncore; omega
  obtain ⟨h48, h58, hDiv, hMod⟩ := hd
  simp only [domainUp, if_neg h48, if_pos h58, hDiv, hMod, if_true]

theorem domainUp_group {n : Nat} (hn : n < 8) (s : State) : domainUp (domGroup n) s = s.setNum 0x2401 (n + 1) 0 := by
  have hd : ¬ domGroup n < 48 ∧ ¬ domGroup n < 58 ∧ ¬ domGroup n < 66 ∧ (70 ≤ domGroup n ∧ domGroup n < 78)
      ∧ domGroup n - 70 = n := by
    unfold domGroup; omega
  obtain ⟨h48, h58, h66, hIn, hSub⟩ := hd
  simp only [domainUp, if_neg h48, if_neg h58, if_neg h66, if_pos hIn, hSub]

/-! ### Harts of a cluster -/

/-- The reset of the cores of a cluster changes harts and the predictors. -/
theorem resetHarts_frame (l : List Nat) (s : State) :
    ∃ harts, l.foldl (fun s h => s.setHart h (s.hart h).coreReset) s = { s with harts := harts } := by
  induction l generalizing s with
  | nil => exact ⟨s.harts, rfl⟩
  | cons h r ih =>
    obtain ⟨harts, e⟩ := ih (s.setHart h (s.hart h).coreReset)
    exact ⟨harts, e⟩

theorem resetCores_frame (d c : Nat) (s : State) : ∃ harts coh, resetCores d c s = { s with harts := harts, coh := coh } := by
  obtain ⟨harts, e⟩ := resetHarts_frame (clusterHarts d c) s
  exact ⟨_, _, by rw [resetCores, e]⟩

@[simp] theorem resetCores_evq (d c : Nat) (s : State) : (resetCores d c s).evq = s.evq := by
  obtain ⟨_, _, e⟩ := resetCores_frame d c s; rw [e]

@[simp] theorem resetCores_pwr (d c : Nat) (s : State) : (resetCores d c s).pwr = s.pwr := by
  obtain ⟨_, _, e⟩ := resetCores_frame d c s; rw [e]

@[simp] theorem setHarts_evq (d c v : Nat) (s : State) : (setHarts d c v s).evq = s.evq := by
  unfold setHarts
  exact foldl_keeps State.evq _ (by intros; rfl) _ s

@[simp] theorem setHarts_pwr (d c v : Nat) (s : State) : (setHarts d c v s).pwr = s.pwr := by
  unfold setHarts
  exact foldl_keeps State.pwr _ (by intros; rfl) _ s

/-- A key that the test removes reads its default. -/
theorem tget_tkeep_of_false {α : Type} (d : α) (p : Nat → Bool) (k : Nat) (t : Tab α) (h : p k = false) : tget d k (tkeep p t) = d := by
  induction t with
  | nil => rfl
  | cons e r ih =>
    unfold tkeep at ih ⊢
    by_cases he : p e.1 = true
    · have hne : k ≠ e.1 := by rintro rfl; simp [h] at he
      simp only [List.filter_cons, he, if_true, tget, if_neg hne, ih, ite_self]
    · simp only [List.filter_cons, he, Bool.false_eq_true, if_false, ih]

/-- The predictor counters of the harts of a cluster read 0 after the reset of its cores (R246). -/
theorem resetCores_pred (d c h a : Nat) (s : State) (hh : h ∈ clusterHarts d c) :
    tget 0 (predKey h a) (resetCores d c s).coh.pred = 0 := by
  have hix : predIx a < 2 ^ 8 := Nat.xor_lt_two_pow (Nat.mod_lt _ (by decide)) (Nat.mod_lt _ (by decide))
  have hkey : predKey h a / 256 = h := by unfold predKey; omega
  unfold resetCores
  dsimp only
  refine tget_tkeep_of_false 0 _ _ _ ?_
  simpa [hkey] using hh

/-- A ramping domain comes up with what it brings, and no boot waits for it. -/
theorem execDomainRampDone_quiet {s u : State} {d : Nat} (hd : d < 80) (h1 : s.domain d = 1) (hu : domainUp d (s.setDomain d 2) = u)
    (hPwr : u.pwr = s.pwr) (hNone : s.pwr.handoff = none) (hEvq : u.evq = s.evq) (hq : s.Quiet) :
    exec (.domainRampDone d) s = .next u := by
  refine forUnit_done (decide_eq_true hd) ?_ (hEvq.trans hq)
  rw [rampDone_of_ramping h1, hu, startBoot_of_none (by rw [hPwr, hNone])]

/-- Settles O17: what each kind of domain brings, with no boot waiting. -/
theorem domainUpBrings : Obligations.DomainUpBrings := by
  refine fun s n q hQuiet => ⟨fun hn hq h1 hNone => ?_, fun hn hq h1 hNone => ⟨?_, fun u h a => resetCores_pred n q h a u⟩,
    fun hn h1 hNone => ?_, fun hn h1 hNone => ?_⟩
  · exact ⟨_, execDomainRampDone_quiet (domQuad_lt hn hq) h1 (domainUp_quad hn hq _) rfl hNone rfl hQuiet, rfl⟩
  · exact execDomainRampDone_quiet (u := setHarts n q 1 (resetCores n q (s.setDomain (domCluster n q) 2))) (by unfold domCluster; omega) h1 (domainUp_cluster hn hq _)
      (by simp) hNone (by simp) hQuiet
  · exact execDomainRampDone_quiet (by unfold domHdUncore; omega) h1 (domainUp_hdUncore hn _) rfl hNone rfl hQuiet
  · exact execDomainRampDone_quiet (by unfold domGroup; omega) h1 (domainUp_group hn _) rfl hNone rfl hQuiet

end Sys2Proof.Machine
end

section
/-!
PROOFS. Self-tests at power-up and by command, and the handshake rates (R123, R124, R543).
-/

namespace Sys2Proof.Machine

theorem powerupTest_pass {s : State} {u : Unit3} (h : selftestDue s u = true) : powerupTest u true s = diePassed u s := by
  rw [powerupTest, if_pos h, if_pos rfl]

theorem powerupTest_fail {s : State} {u : Unit3} (h : selftestDue s u = true) : powerupTest u false s = dieFailed u s := by
  rw [powerupTest, if_pos h]; rfl

theorem selftestEnds_of_testing {s : State} {n : Nat} (failing : List Nat) (h : (s.die n).testing = true) :
    selftestEnds n failing s =
      (s.setDie n { s.die n with testing := false, tiles := [], sramErr := tkeep (fun k => 2 ^ 48 ≤ k) (s.die n).sramErr }).setNum
        0x3C09 (n + 1) (selftestWord failing) := if_pos h

@[simp] theorem measureDie_evq (n rate : Nat) (s : State) : (measureDie n rate s).evq = s.evq := rfl

/-- While the dictionary is open and the counter runs, every die is measured in turn. -/
theorem measureRates_of_open {s : State} (rates : List Nat) (hOpen : s.pwr.opened = true) (hRuns : timeRuns s = true) :
    measureRates rates s = (List.range 8).foldl (fun u n => measureDie n (lget 0 rates n) u) s := if_pos ⟨hOpen, hRuns⟩

/-- Settles O18: a die's self-test is `diePassed` or `dieFailed`, a self-test that runs ends, and the dies are measured in turn. -/
theorem selfTestsAndRates : Obligations.SelfTestsAndRates := by
  refine ⟨fun s u hq hu hDue => ⟨?_, ?_, ?_, ?_, ?_⟩, fun s n failing hq hn hTest => ?_, fun s rates hq hOpen hRuns => ⟨?_, ?_⟩⟩
  · exact forUnit_settled hu (powerupTest_pass hDue)
  · exact forUnit_settled hu (powerupTest_fail hDue)
  · rintro n rfl; rfl
  · rintro d rfl; rfl
  · rintro k rfl; rfl
  · exact forUnit_done (decide_eq_true hn) (selftestEnds_of_testing failing hTest) hq
  · exact forUnit_done rfl (measureRates_of_open rates hOpen hRuns)
      ((foldl_keeps State.evq _ (fun _ _ => measureDie_evq _ _ _) _ s).trans hq)
  · intro u n rate; rfl

end Sys2Proof.Machine
end

section
/-!
PROOFS. Stages of the boot: the settings hold, memory training and initialisation, the core image, the boot hart and configuration requests
(R207, R212, R427 to R429, R500, R506 to R510, R519).
-/

namespace Sys2Proof.Machine

/-! ### The settings hold and the memory -/

theorem holdExpires_of_holding {s : State} (hOpen : s.pwr.opened = true) (hRuns : timeRuns s = true) (hHold : s.num 0x1101 3 = 1) :
    holdExpires s = post 0x1005 (src 0 0) 0x1F [(4, s.dict.holdWrites)] (endHold 3 s) := by
  have hNot : holdEnded s = false := by rw [holdEnded, hHold]; rfl
  exact if_pos ⟨hOpen, hRuns, by rw [hNot]; rfl⟩

section
variable {s : State} {n : Nat} (hHold : s.num 0x1101 3 ≠ 1) (hOn : s.on (domGroup n) = true)
  (hTest : s.pwr.selftestOk.contains (.td n) = true) (hHeld : s.memState n = 0)
include hHold hOn hTest hHeld

/-- Training is due once the hold has ended and the die of the group has passed its self-test (R506). -/
theorem training_due : holdEnded s ∧ s.on (domGroup n) ∧ s.pwr.selftestOk.contains (.td n) ∧ s.memState n = 0 :=
  ⟨by simp [holdEnded, hHold], hOn, hTest, hHeld⟩

theorem trained_none : trained n none s = (setMemState n 1 s).setNum 0x2400 1 (setBit (s.num 0x2400 1) n true) :=
  if_pos (training_due hHold hOn hTest hHeld)

/-- A channel that does not train fails the group (R207). -/
theorem trained_some (c : Nat × Nat) : trained n (some c) s = settleShare (checkPlatform (postGroupFail n (some c)
    ((setMemState n 3 s).setNum 0x2400 1 (setBit (s.num 0x2400 1) n false)))) :=
  if_pos (training_due hHold hOn hTest hHeld)

end

theorem initialised_of_trained {s : State} {n : Nat} (hTrained : s.memState n = 1) (hInit : s.dict.memInit = true) :
    initialised n s =
      (let u := settleShare (startPass n ((forgetGroup n s).setNum 0x2401 (n + 1) 2))
       if n = 0 ∧ u.num 0x5400 1 = 2 then u.setNum 0x5400 1 3 else u) := if_pos ⟨hTrained, hInit⟩

theorem channelOk_of_lt {n c : Nat} (hc : c < 4) : channelOk n (some (4 * n + c, c)) = true := by
  simp only [channelOk, Bool.and_eq_true, decide_eq_true_eq]
  omega

/-! ### The core image and the boot hart -/

theorem loadCore_of_ready {s : State} (f : Flash) (hOpen : s.pwr.opened = true) (hStage : s.num 0x5400 1 = 3)
    (hMem : s.memState 0 = 2) (hNone : s.pwr.handoff = none) :
    loadCore f s =
      (let top := (120 - s.merr.effG) * gib
       let a := loadBank f top 0 s
       let b := loadBank f top 1 (rejectBank 2 0 (coreCause a f 0) a)
       if coreCause a f 0 = 0 then handOff f 0 a
       else if coreCause b f 1 = 0 then handOff f 1 b
       else failBoot 0xF0 0 (rejectBank 2 1 (coreCause b f 1) b)) := if_pos ⟨hOpen, hStage, hMem, hNone⟩

theorem seenFlash_of_on {s : State} (f : Flash) (h : s.on domNet = true) : seenFlash s f = f := if_pos h

theorem startBoot_of_due {s : State} {pc : Nat} (hPc : s.pwr.handoff = some pc) (hStage : s.num 0x5400 1 = 3)
    (hTest : s.pwr.selftestOk.contains (.hd 0) = true) (hOn : s.on (domCluster 0 0) = true) :
    startBoot s = startHart 0 pc 0 ({ s with pwr := { s.pwr with handoff := none } }.setNum 0x5400 1 4) := by
  simp only [startBoot, hPc, if_pos (And.intro hStage (And.intro hTest hOn))]

theorem startBoot_of_not_due {s : State} (h : s.pwr.selftestOk.contains (.hd 0) = false ∨ s.on (domCluster 0 0) = false) :
    startBoot s = s := by
  unfold startBoot
  split
  · rfl
  · refine if_neg ?_
    rintro ⟨-, hTest, hOn⟩
    rcases h with h | h
    · exact Bool.eq_false_iff.mp h hTest
    · exact Bool.eq_false_iff.mp h hOn

/-! ### Configuration requests -/

section
variable {s : State} {a : ConfigAccess} (hOn : s.pwr.on = true) (hPins : s.pwr.bstat1 = false)
  (hDom : s.on domPcie = true) (hLink : a.link = 0 ∨ (a.link = 1 ∧ s.num 0x2C00 1 ≠ 0))
include hOn hPins hDom hLink

/-- Nothing holds the link from training (R511, R580). -/
theorem configLink_trains : ¬ (!s.pwr.on ∨ (a.link = 1 ∧ s.num 0x2C00 1 = 0) ∨ s.pwr.bstat1 ∨ !s.on domPcie) := by
  simp only [hOn, hPins, hDom, Bool.not_true, Bool.false_eq_true, false_or, or_false, not_and]
  intro h1
  exact (hLink.resolve_left (by omega)).2

/-- Before the dictionary opens the answer is Request Retry Status (R509). -/
theorem configAnswer_closed (hOpen : s.pwr.opened = false) : configAnswer a s = answerHost a.link 3 [] s := by
  rw [configAnswer]
  exact (if_neg (configLink_trains hOn hPins hDom hLink)).trans (if_pos (by rw [hOpen]; rfl))

theorem configAnswer_read (hOpen : s.pwr.opened = true) (hUp : linkState s a.link ≠ 0) (hRead : a.value = none) :
    configAnswer a s = answerHost a.link 0 (leBytes 4 (configValue s a.link a.reg)) s := by
  rw [configAnswer]
  refine (if_neg (configLink_trains hOn hPins hDom hLink)).trans ((if_neg (by simp [hOpen])).trans ((if_neg hUp).trans ?_))
  rw [hRead]

theorem configAnswer_write {v : Nat} (hOpen : s.pwr.opened = true) (hUp : linkState s a.link ≠ 0) (hWrite : a.value = some v) :
    configAnswer a s = answerHost a.link 0 [] (configWrite a.link a.reg v s) := by
  rw [configAnswer]
  refine (if_neg (configLink_trains hOn hPins hDom hLink)).trans ((if_neg (by simp [hOpen])).trans ((if_neg hUp).trans ?_))
  rw [hWrite]

end

/-- The size that the host selects for BAR2 is what HST_BAR2_SIZE reports (R429). -/
theorem num_configWrite_barSize {s : State} {k code : Nat} (hlo : 16 ≤ code) (hhi : code ≤ 20) (h : tsorted s.obj = true) :
    (configWrite k .barSize (code * 2 ^ 8) s).num 0x2C08 (k + 1) = 2 ^ (20 + code) := by
  have hBits : bits (code * 2 ^ 8) 13 8 = code := by
    rw [bits, Nat.shiftRight_eq_div_pow]
    omega
  simp only [configWrite, selectSize, hBits, if_pos (And.intro hlo hhi)]
  exact num_setNum_same _ _ _ _ h

/-- Settles O19: each stage is its function's equation in the case that the statement names. -/
theorem bootStages : Obligations.BootStages := by
  refine ⟨fun s hq hOpen hRuns hHold => ?_, fun s n hq hn => ⟨fun hHold hOn hTest hHeld => ⟨?_, fun c hc => ?_⟩,
    fun hTrained hInit => ?_⟩, fun s hq hOpen hStage hMem hNone hNet => ?_,
    fun s pc hPc hStage => ⟨startBoot_of_due hPc hStage, startBoot_of_not_due⟩,
    fun s a hq hOn hPins hDom hLink => ?_⟩
  · exact forUnit_settled rfl (holdExpires_of_holding hOpen hRuns hHold)
  · exact forUnit_done (by simp [Instr.wf, channelOk, hn]) (trained_none hHold hOn hTest hHeld) hq
  · exact forUnit_settled (by simp [Instr.wf, channelOk_of_lt hc, hn]) (trained_some hHold hOn hTest hHeld _)
  · exact forUnit_settled (decide_eq_true hn) (initialised_of_trained hTrained hInit)
  · refine forUnit_settled rfl ?_
    rw [seenFlash_of_on _ hNet]
    exact loadCore_of_ready _ hOpen hStage hMem hNone
  · have wf : decide (a.link < 2) = true := decide_eq_true (by omega)
    refine ⟨fun hOpen => ?_, fun hOpen hUp => ⟨fun hRead => ?_, fun v hWrite => ?_⟩, ?_, ?_, rfl, rfl, rfl, rfl,
      fun code hlo hhi hSorted => num_configWrite_barSize hlo hhi hSorted⟩
    · exact forUnit_done wf (configAnswer_closed hOn hPins hDom hLink hOpen) hq
    · exact forUnit_done wf (configAnswer_read hOn hPins hDom hLink hOpen hUp hRead) hq
    · exact forUnit_settled wf (configAnswer_write hOn hPins hDom hLink hOpen hUp hWrite)
    · simp only [configValue]; omega
    · simp only [configValue]; omega

end Sys2Proof.Machine
end

section
/-!
PROOFS. Memory housekeeping and memory errors: refresh, MR4, scrub visits, what a read finds at a unit, and the failure of a group (R114,
R115, R205, R213 to R218, R553).
-/

namespace Sys2Proof.Machine

/-! ### What a read finds at a unit -/

theorem readUnit_of_clean {s : State} {u : Nat} (scrub : Bool) (h : tfind u s.merr.latent = none) : readUnit scrub u s = s := by
  unfold readUnit; rw [h]

section
variable {s : State} {u n o : Nat} (hPoison : u ∉ s.merr.poison)
include hPoison

/-- A unit that is not poisoned yet is not counted as poisoned once its error has been found. -/
theorem clearLatent_not_poisoned : ¬ (clearLatent s u).merr.poison.contains u = true := by
  simpa [clearLatent] using hPoison

theorem readUnit_dram_ue (scrub : Bool) (hAt : place s u = .dram n o) (hErr : tfind u s.merr.latent = some .ue) :
    readUnit scrub u s = dramUe u n o scrub (clearLatent s u) := by
  have hPlace : place (clearLatent s u) u = .dram n o := hAt
  simp only [readUnit, hErr, if_neg (clearLatent_not_poisoned hPoison), hPlace]

theorem readUnit_dram_ce (scrub : Bool) (hAt : place s u = .dram n o) (hErr : tfind u s.merr.latent = some .ce) :
    readUnit scrub u s = dramCe n o (clearLatent s u) := by
  have hPlace : place (clearLatent s u) u = .dram n o := hAt
  simp only [readUnit, hErr, if_neg (clearLatent_not_poisoned hPoison), hPlace]

theorem readUnit_canopy_ce (scrub : Bool) (hAt : place s u = .canopy n o) (hErr : tfind u s.merr.latent = some .ce) :
    readUnit scrub u s = count 0x5900 (n + 1) 1 (clearLatent s u) := by
  have hPlace : place (clearLatent s u) u = .canopy n o := hAt
  simp only [readUnit, hErr, if_neg (clearLatent_not_poisoned hPoison), hPlace]

theorem readUnit_canopy_ue (scrub : Bool) (hAt : place s u = .canopy n o) (hErr : tfind u s.merr.latent = some .ue) :
    readUnit scrub u s = canopyUe u n o (clearLatent s u) := by
  have hPlace : place (clearLatent s u) u = .canopy n o := hAt
  simp only [readUnit, hErr, if_neg (clearLatent_not_poisoned hPoison), hPlace]

end

/-- Short of a storm a correctable error is counted, at its package and its channel (R213). -/
theorem dramCe_calm {s : State} {n o : Nat}
    (h : s.num 0x2406 1 = 0 ∨ tget 0 (16 * n + channelOf o) s.merr.chanCe + 1 ≤ s.num 0x2406 1) :
    dramCe n o s = count 0x5840 (packageOf n o + 1) 1
      (let k := tget 0 (16 * n + channelOf o) s.merr.chanCe + 1
       { s with merr := { s.merr with chanCe := tset 0 (16 * n + channelOf o) k s.merr.chanCe } }) :=
  if_neg fun ⟨hOn, hOver, _⟩ => by omega

/-- A READY group fails with the jobs that require it (R218). -/
theorem groupFails_of_ready {s : State} {n : Nat} (channel : Option (Nat × Nat)) (h : s.memState n = 2) :
    groupFails n channel s = checkPlatform (faultJobs (fun s j => needsGroup s j n) 0x0E 0xFFFFFF
      (postGroupFail n channel (setMemState n 3 s))) := if_pos h

/-- Settles O21: what stands at a unit selects the branch of a read of it, and a READY group's failure is `groupFails`. -/
theorem memoryErrors : Obligations.MemoryErrors := by
  refine ⟨fun s u n o scrub => ⟨readUnit_of_clean scrub, fun hPoison => ⟨readUnit_dram_ue hPoison scrub,
    readUnit_canopy_ce hPoison scrub, readUnit_canopy_ue hPoison scrub, fun hAt hErr hCalm => ?_⟩⟩,
    fun s n hq hn hReady => ⟨?_, fun c hc => ?_⟩⟩
  · rw [readUnit_dram_ce hPoison scrub hAt hErr]
    exact dramCe_calm (s := clearLatent s u) hCalm
  · exact forUnit_settled (by simp [Instr.wf, channelOk, hn]) (groupFails_of_ready none hReady)
  · exact forUnit_settled (by simp [Instr.wf, channelOk_of_lt hc, hn]) (groupFails_of_ready _ hReady)

/-! ### MR4 and scrubbing -/

theorem readMr4_cool {s : State} {n : Nat} {hot : List Bool} (rates : List Nat) (hOn : s.on (domGroup n) = true)
    (hCool : ∀ b ∈ hot.take 4, b = false) :
    readMr4 n rates hot s =
      (let u := s.setNum 0x2407 (n + 1) (rates.foldl max 0 % 256)
       { u with pwr := { u.pwr with memHot := lset u.pwr.memHot n false } }) := by
  have hNone : (hot.take 4).findIdx? id = none :=
    List.findIdx?_eq_none_iff.mpr fun b hb => by rw [hCool b hb]; rfl
  rw [readMr4, if_pos hOn]
  simp only [hNone]

theorem readMr4_hot {s : State} {n m : Nat} {hot : List Bool} (rates : List Nat) (hOn : s.on (domGroup n) = true)
    (hHot : (hot.take 4).findIdx? id = some m) (hWas : lget false s.pwr.memHot n = false) :
    readMr4 n rates hot s =
      (let u := s.setNum 0x2407 (n + 1) (rates.foldl max 0 % 256)
       post 0x2006 (src 0 1) 0x1F [(1, n), (1, 4 * n + m)] { u with pwr := { u.pwr with memHot := lset u.pwr.memHot n true } }) := by
  have hNot : ¬ lget false (s.setNum 0x2407 (n + 1) (rates.foldl max 0 % 256)).pwr.memHot n = true := by
    rw [State.setNum_pwr, hWas]; decide
  rw [readMr4, if_pos hOn]
  simp only [hHot, if_neg hNot]

/-- A scrub visit to a line of a READY group reads it, and after the last line the next pass begins. -/
theorem scrubLine_of_ready {s : State} {a n o : Nat} (hAt : place s (lineOf a) = .dram n o) (hReady : s.memState n = 2) :
    scrubLine a none s =
      (let t := readUnit true (lineOf a) s
       if o = lastOffset ∧ timeRuns t then startPass n (count 0x5842 (n + 1) 1 t) else t) := by
  simp only [scrubLine, hAt, if_pos hReady]

/-- Short of the last line, an error that a visit finds is put there and read. -/
theorem scrubLine_finds {s : State} {a n o : Nat} (k : ErrKind) (hAt : place s (lineOf a) = .dram n o) (hReady : s.memState n = 2)
    (ho : o ≠ lastOffset) : scrubLine a (some k) s = readUnit true (lineOf a) (putLatent (lineOf a) k s) := by
  simp only [scrubLine, hAt, if_pos hReady]
  exact if_neg fun h => ho h.1

theorem worse_eq {old : Option ErrKind} {k : ErrKind} (h : k = .ue ∨ old ≠ some .ue) : worse old k = k := by
  unfold worse
  split
  · rename_i hOld
    exact (h.resolve_right (not_not.mpr hOld)).symm
  · rfl

theorem putLatent_eq {s : State} {u : Nat} {k : ErrKind} (h : k = .ue ∨ tfind u s.merr.latent ≠ some .ue) :
    putLatent u k s = { s with merr := { s.merr with latent := tput u k s.merr.latent } } := by
  rw [putLatent, worse_eq h]

section
variable {s : State} {a n o : Nat} (hAt : place s (a / 8 * 8) = .canopy n o) (hOk : placeOk s (.canopy n o) = true)
include hAt hOk

theorem scrubWord_none : scrubWord a none s = readUnit true (a / 8 * 8) s := by
  simp only [scrubWord, hAt, if_pos hOk]

theorem scrubWord_some (k : ErrKind) : scrubWord a (some k) s = readUnit true (a / 8 * 8) (putLatent (a / 8 * 8) k s) := by
  simp only [scrubWord, hAt, if_pos hOk]

end

/-- Settles O20: a visit reads its unit with the error found there, and a clean unit is left as it is. -/
theorem memoryHousekeeping : Obligations.MemoryHousekeeping := by
  refine ⟨fun s n rates hot hq hn => ⟨?_, fun hOn => ⟨fun hCool => ?_, fun m hHot hWas => ?_⟩⟩,
    fun s a n o hq => ⟨fun hAt hReady => ⟨fun ho hClean => ?_, fun ho hClean => ⟨fun hRuns => ?_, fun hRuns => ?_⟩,
      fun k ho hk => ?_⟩, fun l hAt hReady ho => ?_, fun hAt hOk => ⟨fun hClean => ?_, fun k hk => ?_⟩⟩⟩
  · exact forUnit_done (decide_eq_true hn) rfl hq
  · exact forUnit_done (decide_eq_true hn) (readMr4_cool rates hOn hCool) hq
  · exact forUnit_settled (decide_eq_true hn) (readMr4_hot rates hOn hHot hWas)
  · refine forUnit_done rfl ((scrubLine_of_ready hAt hReady).trans ?_) hq
    rw [readUnit_of_clean true hClean]
    exact if_neg fun h => ho h.1
  · refine forUnit_settled rfl ((scrubLine_of_ready hAt hReady).trans ?_)
    rw [readUnit_of_clean true hClean]
    exact if_pos ⟨ho, hRuns⟩
  · refine forUnit_done rfl ((scrubLine_of_ready hAt hReady).trans ?_) hq
    rw [readUnit_of_clean true hClean]
    exact if_neg fun h => by simp [hRuns] at h
  · refine forUnit_settled rfl ((scrubLine_finds k hAt hReady ho).trans ?_)
    rw [putLatent_eq hk]
  · rfl
  · exact forUnit_done rfl ((scrubWord_none hAt hOk).trans (readUnit_of_clean true hClean)) hq
  · refine forUnit_settled rfl ((scrubWord_some hAt hOk k).trans ?_)
    rw [putLatent_eq hk]

end Sys2Proof.Machine
end

section
/-!
PROOFS. The power sample, its over-temperature trip and the capping loop (R535, R548, R552).
-/

namespace Sys2Proof.Machine

/-- The temperatures of a sample with the number of each sensor's die. -/
def sensedTemps (x : PowerSample) : List (Int × Nat) := (x.temps.take 13).zipIdx

section
variable {s : State} {x : PowerSample} (hOpen : s.pwr.opened = true)
include hOpen

/-- A sensor above 115 °C trips the power fault (R535). -/
theorem sampled_trips {e : Int × Nat} (hHot : (sensedTemps x).find? (fun e => decide (115000 < e.1)) = some e) :
    sampled x s = powerFault 5 (tempSource e.2) s := by
  unfold sensedTemps at hHot
  simp only [sampled, hOpen, hHot, Bool.not_true, Bool.false_eq_true, if_false]

/-- A sample below the trip sets the readings, and runs the capping loop once there are ten, and the thermal loop. -/
theorem sampled_runs (hCool : (sensedTemps x).find? (fun e => decide (115000 < e.1)) = none) :
    sampled x s =
      (let l := (x.milliwatts :: s.pwr.samples).take 10
       let sum : Nat := l.foldl (fun a b => a + b) 0
       let w := f32Ratio sum (1000 * l.length)
       let u := { s with pwr := { s.pwr with samples := l } }
       let u := ((u.setNum 0x2000 1 (x.volts % 2 ^ 32)).setNum 0x2000 2 (x.amps % 2 ^ 32)).setNum 0x2000 3 w
       let u := u.setNum 0x2000 4 (max (u.num 0x2000 4) w)
       (sensedTemps x).foldl senseDie (if l.length = 10 then capLoop sum u else u)) := by
  unfold sensedTemps at hCool ⊢
  simp only [sampled, hOpen, hCool, Bool.not_true, Bool.false_eq_true, if_false]

end

/-! ### The capping loop -/

section
variable {s : State} {sum : Nat}

/-- Above the limit with room to fall, every capped value falls by 5 mV (R548). -/
theorem capLoop_above (hOver : powerLimit s * 10000 < sum) (hFloor : atFloor s = false) :
    capLoop sum s =
      (let t := count 0x58D0 1 1 (moveCaps (fun v => max 550 (v - 5)) { s with pwr := { s.pwr with lowRun := 0 } })
       if capActive s then t
       else post 0x2001 (src 0 1) 0x1F [(2, powerLimit s), (2, min 0xFFFF (sum / 10000))] t) := by
  have hNot : ¬ atFloor { s with pwr := { s.pwr with lowRun := 0 } } = true := Bool.eq_false_iff.mp hFloor
  have hSame : capActive { s with pwr := { s.pwr with lowRun := 0 } } = capActive s := rfl
  rw [capLoop]
  simp only [if_pos hOver, if_neg hNot, hSame]
  cases capActive s <;> rfl

/-- At the floor nothing falls, and the report has been made (R548). -/
theorem capLoop_floor (hOver : powerLimit s * 10000 < sum) (hFloor : atFloor s = true) (hPosted : s.pwr.floorPosted = true) :
    capLoop sum s = { s with pwr := { s.pwr with lowRun := 0 } } := by
  have hAt : atFloor { s with pwr := { s.pwr with lowRun := 0 } } = true := hFloor
  rw [capLoop]
  simp only [if_pos hOver, if_pos hAt, if_pos hPosted]

theorem not_over_of_low {lim : Nat} (h : sum * 100 < 97 * (lim * 10000)) : ¬ lim * 10000 < sum := by omega

/-- The tenth sample in a run below 97 % of the limit raises every capped value (R548, log entry 49). -/
theorem capLoop_below (hLow : sum * 100 < 97 * (powerLimit s * 10000)) (hRun : s.pwr.lowRun = 9) :
    capLoop sum s = moveCaps (fun v => min 800 (v + 5)) { s with pwr := { s.pwr with lowRun := 0, floorPosted := false } } := by
  rw [capLoop]
  simp only [if_neg (not_over_of_low hLow), if_pos hLow, if_pos hRun]

theorem capLoop_between (hOver : ¬ powerLimit s * 10000 < sum) (hLow : ¬ sum * 100 < 97 * (powerLimit s * 10000)) :
    capLoop sum s = { s with pwr := { s.pwr with lowRun := 0 } } := by
  rw [capLoop]
  simp only [if_neg hOver, if_neg hLow]

end

/-- Settles O22: a sample trips or runs the loops, and the sum of ten selects the branch of the capping loop. -/
theorem powerLoops : Obligations.PowerLoops := by
  refine ⟨fun s x hq hOpen => ⟨fun e hHot => ?_, fun hCool => ?_⟩, fun s sum => ⟨fun hOver hFloor hActive => ?_,
    fun hOver hFloor hActive => ?_, capLoop_floor, capLoop_below, capLoop_between⟩⟩
  · exact forUnit_settled rfl (sampled_trips hOpen hHot)
  · exact forUnit_settled rfl (sampled_runs hOpen hCool)
  · exact (capLoop_above hOver hFloor).trans (if_pos hActive)
  · exact (capLoop_above hOver hFloor).trans (if_neg (Bool.eq_false_iff.mp hActive))

end Sys2Proof.Machine
end

section
/-!
PROOFS. Requests on their paths (R481, R486 to R495): a channel that is not BUSY, and a Camip frame by what of it passes.
-/

namespace Sys2Proof.Machine

/-! ### Channels -/

/-- A channel that is not BUSY runs the request and holds its answer. -/
theorem serveChan_of_ready {s : State} {core : Bool} {chan : Nat} (link trans : Nat) (run : State → Answer) (hOpen : s.pwr.opened = true)
    (hReady : (s.chan (if core then chan + 4 else chan)).state ≠ 1) :
    serveChan core chan link trans run s = answerChan core chan link trans (run s) := by
  rw [serveChan, if_neg (by simp [hOpen]), if_neg hReady]

theorem closeAsked_of_none {s : State} (h : s.dict.closing = []) : closeAsked s = s := by
  unfold closeAsked
  dsimp only
  rw [h, List.foldl_nil, ← h]

theorem chanIrq_of_off {core : Bool} {link irq : Nat} (s : State) (h : bit irq 63 = false) : chanIrq core link irq s = s := by
  rw [chanIrq, h]; rfl

theorem noteAnswer_ok (path : Nat) (body : List Byte) (s : State) :
    noteAnswer path stOk body s = { s with dict := { s.dict with lastStatus := stOk, lastBody := body } } := by
  unfold noteAnswer
  exact if_pos rfl

/-- A good answer on a channel without an interrupt, with no session to close: the channel and the record of the answer. -/
theorem answerChan_ok {s : State} {chan : Nat} (link trans : Nat) (body : List Byte) (hIrq : bit (s.chan chan).irq 63 = false)
    (hNone : s.dict.closing = []) :
    answerChan false chan link trans ((stOk, body), s) =
      (let x := s.chan chan
       let y : Chan := { state := 2, status := 0, trans := trans % 65536, len := body.length, irq := x.irq, body := putMem x.body 0 body }
       { s with dict := { s.dict with lastStatus := 0, lastBody := body, chans := lset s.dict.chans chan y } }) := by
  unfold answerChan
  dsimp only
  rw [noteAnswer_ok]
  have hIrq' : bit (State.chan { s with dict := { s.dict with lastStatus := stOk, lastBody := body } } chan).irq 63 = false := hIrq
  exact (congrArg closeAsked (chanIrq_of_off _ hIrq')).trans (closeAsked_of_none hNone)

/-! ### Camip frames -/

section
variable {s : State} {p : Nat} {f : CamipFrame} {svc : Nat} (body : List Byte) (run : State → Answer)

/-- What a request runs: its service, or MALFORMED where its header breaks R486. -/
def clearRun (f : CamipFrame) (n : Nat) (run : State → Answer) (s : State) : Answer :=
  if headClear f n = true then run s else ((stMalformed, []), s)

theorem clearRun_eq (n : Nat) : (if headClear f n then run else badRequest []) s = clearRun f n run s := by
  unfold clearRun badRequest
  split <;> rfl

/-- A frame that is not for the port is dropped (R486). -/
theorem serveCamip_of_not_mine (hMine : camipMine s f.head svc = false) : serveCamip p f svc body run s = s := by
  simp [serveCamip, hMine]

variable (hUp : camipUp s p = true) (hMine : camipMine s f.head svc = true)
include hUp hMine

/-- A frame of another version, or a response, is counted and dropped (R486). -/
theorem serveCamip_of_unread (hReads : headReads f.head = false) : serveCamip p f svc body run s = count 0x58C0 (p + 1) 1 s := by
  simp [serveCamip, hUp, hMine, hReads]

/-- An unsecured request is answered to its source, NOT_AUTHORISED unless its service is free of sessions (R487). -/
theorem serveCamip_plain (hReads : headReads f.head = true) (hPlain : f.secured = none) :
    serveCamip p f svc body run s =
      (let t := count 0x58C0 (p + 1) 1 s
       answerPlain p f.peer svc (f.trans % 65536)
        (if headClear f body.length = false then ((stMalformed, []), t)
         else if freeService svc = true then run t else ((stNotAuthorised, []), t))) := by
  simp only [serveCamip, hUp, hMine, hReads, hPlain]
  cases headClear f body.length <;> cases freeService svc <;> rfl

/-- A secured request of an open session of the port with room before it, whose SEQ passes and whose TRANS_ID is new, runs once if its tag
passes (R489, R491). -/
theorem serveCamip_secured {slot seq : Nat} (hReads : headReads f.head = true) (hSec : f.secured = some (slot, seq))
    (hOpen : sessOpen (count 0x58C0 (p + 1) 1 s) slot = true) (hPort : (count 0x58C0 (p + 1) 1 s).num 0x1121 (slot + 1) = p)
    (hRoom : f.head.waiting < 4) (hSeq : seq ≤ max64)
    (hNew : ((count 0x58C0 (p + 1) 1 s).sess slot).rxSeq.any (seq ≤ ·) = false)
    (hOnce : (((count 0x58C0 (p + 1) 1 s).setSess slot { (count 0x58C0 (p + 1) 1 s).sess slot with failPosted := false }).sess
      slot).cache.find? (fun e => e.1 == f.trans % 65536) = none) :
    serveCamip p f svc body run s =
      (let t := count 0x58C0 (p + 1) 1 s
       let x := t.sess slot
       let y := (t.setSess slot { x with failPosted := false }).sess slot
       let u := (t.setSess slot { x with failPosted := false }).setSess slot { y with rxSeq := some seq }
       if Config.tagOk slot x.key seq (headIn t f svc slot seq body.length ++ body) f.tag = true then
         answerSession slot svc (f.trans % 65536) (clearRun f body.length run u)
       else authFail p slot t) := by
  have hPort' : ((count 0x58C0 (p + 1) 1 s).num 0x1121 (slot + 1) != p) = false := by rw [hPort]; simp
  unfold serveCamip
  simp only [hUp, hMine, hReads, hSec, hOpen, hPort', if_neg (Nat.not_le.mpr hRoom), if_neg (Nat.not_lt.mpr hSeq), hNew, sessionRequest,
    hOnce, clearRun_eq, Bool.not_true, Bool.or_self, Bool.false_eq_true, if_false]
  split <;> simp_all

end

/-! ### A request by its path -/

/-- What was sent: the command's own service and body, or what stands in their place. -/
def sentOf (rq : Request) (svc : Nat) (body : List Byte) : Nat × List Byte := rq.raw.getD (svc, body)

/-- What answers it on a path. -/
def answerOf (rq : Request) (svc : Nat) (body : List Byte) (run : Nat → State → Answer) (path : Nat) : State → Answer :=
  if rq.raw = none then run path else runRaw rq path (sentOf rq svc body).1 (sentOf rq svc body).2

theorem serve_eq_servePath (rq : Request) (svc : Nat) (body : List Byte) (run : Nat → State → Answer) (s : State) :
    serve rq svc body run s = servePath rq (sentOf rq svc body).1 (sentOf rq svc body).2 (answerOf rq svc body run) s := by
  unfold serve answerOf sentOf
  cases rq.raw with
  | none => rfl
  | some x => rfl

theorem servePath_host {s : State} {rq : Request} {k svc : Nat} (body : List Byte) (run : Nat → State → Answer) (hSrc : rq.src = .host k)
    (hOpen : s.pwr.opened = true) (hLink : linkState s (mailLink s) ≠ 0) (hReady : (s.chan k).state ≠ 1) :
    servePath rq svc body run s = answerChan false k (mailLink s) rq.trans (run 1 s) := by
  simp only [servePath, hSrc, if_neg hLink]
  exact serveChan_of_ready _ _ _ hOpen hReady

theorem servePath_core {s : State} {rq : Request} {k svc : Nat} (body : List Byte) (run : Nat → State → Answer) (hSrc : rq.src = .core k)
    (hOpen : s.pwr.opened = true) (hReady : (s.chan (k + 4)).state ≠ 1) :
    servePath rq svc body run s = answerChan true k 0 rq.trans (run 2 s) := by
  simp only [servePath, hSrc]
  exact serveChan_of_ready _ _ _ hOpen hReady

theorem servePath_camip {s : State} {rq : Request} {p svc : Nat} {peer tag : List Byte} {sec : Option (Nat × Nat)} (body : List Byte)
    (run : Nat → State → Answer) (hSrc : rq.src = .camip p peer sec tag) :
    servePath rq svc body run s =
      serveCamip p { peer := peer, secured := sec, tag := tag, trans := rq.trans, head := rq.head } svc body (run 0) s := by
  simp only [servePath, hSrc]

theorem svcRead_ok {s : State} {i j : Nat} (h : readStatus s i j = stOk) :
    svcRead i j s = (stOk, leBytes 2 (readBytes s i j).1 ++ leBytes 2 (readBytes s i j).2.length ++ (readBytes s i j).2) := by
  rw [svcRead, if_pos h]

/-- Settles O23: a request is served on its path, and what of a frame passes selects its answer. -/
theorem servicesRunOnTheirPath : Obligations.ServicesRunOnTheirPath := by
  refine ⟨fun s rq c svc body run hOk hOpen hc => ?_, fun s k tr i j hq hk hOpen hReady hIrq hLink hNone hRead => ?_⟩
  · have served : exec c s = .next (settle (serve rq svc body run s)) := by
      rcases hc with ⟨i, j, rfl, rfl, rfl, rfl⟩ | ⟨i, j, t, l, rfl, rfl, rfl, rfl⟩ | ⟨x, rfl, rfl, rfl, rfl⟩ | ⟨x, rfl, rfl, rfl, rfl⟩
        | ⟨i, j, rfl, rfl, rfl, rfl⟩ | ⟨i, j, o, n, rfl, rfl, rfl, rfl⟩ | ⟨i, j, o, l, rfl, rfl, rfl, rfl⟩
      all_goals exact forUnit_settled hOk rfl
    rw [served, serve_eq_servePath]
    refine ⟨fun k hSrc hLink hReady => ?_, fun k hSrc hReady => ?_, fun p peer sec tag hSrc hUp => ⟨fun hMine => ?_, fun hMine =>
      ⟨fun hReads => ?_, fun hReads => ⟨fun hPlain => ?_, fun slot seq hSec => ?_⟩⟩⟩⟩
    · rw [servePath_host _ _ hSrc hOpen hLink hReady]; rfl
    · rw [servePath_core _ _ hSrc hOpen hReady]; rfl
    · rw [servePath_camip _ _ hSrc, serveCamip_of_not_mine _ _ hMine]
    · rw [servePath_camip _ _ hSrc, serveCamip_of_unread _ _ hUp hMine hReads]
    · rw [servePath_camip _ _ hSrc, serveCamip_plain _ _ hUp hMine hReads hPlain]; rfl
    · intro x hSess hPort hRoom hSeq hNew y hOnce
      rw [servePath_camip _ _ hSrc, serveCamip_secured _ _ hUp hMine hReads hSec hSess hPort hRoom hSeq hNew hOnce]; rfl
  · have served : exec (.read { src := .host k, trans := tr } i j) s =
        .next (settle (answerChan false k (mailLink s) tr (svcRead i j s, s))) := by
      refine forUnit_settled (decide_eq_true hk) ?_
      rw [serve_eq_servePath, servePath_host _ _ rfl hOpen hLink hReady]
      rfl
    rw [served, svcRead_ok hRead, answerChan_ok _ _ _ hIrq hNone, settle_quiet _ (by exact hq)]

end Sys2Proof.Machine
end

section
/-!
PROOFS. What refuses a write, in order, mailbox commands, and the commands that write one object (R477 to R484, R494, R495, R498).
-/

namespace Sys2Proof.Machine

/-! ### The checks of a write -/

/-- A write that a check refuses answers its status and writes nothing. -/
theorem writeObj_of_status {s : State} {path i j type k : Nat} {l : List Byte} (h : writeStatus s path i j type l = k) (hk : k ≠ stOk) :
    writeObj path i j type l s = (k, s) := by
  rw [writeObj, if_neg (by rwa [h]), h]

/-- A write that the checks allow and the object takes is applied. -/
theorem writeObj_applied {s : State} {path i j type : Nat} {l : List Byte} (h : writeStatus s path i j type l = stOk)
    (hOk : (applyObj i j (leNat l) l (noteHold s)).1 = stOk) :
    writeObj path i j type l s = applyObj i j (leNat l) l (noteHold s) := by
  unfold writeObj
  rw [if_pos h]
  exact if_pos hOk

section
variable {s : State} {path i j type : Nat} {l : List Byte} {r : ObjRow} (hRow : rowOf i j = some r)
include hRow

theorem writeStatus_not_ready (h : objReady s i j r.access = false) : writeStatus s path i j type l = stNotReady := by
  simp [writeStatus, hRow, h]

variable (hReady : objReady s i j r.access = true)
include hReady

theorem writeStatus_path_denied (h : pathAllowed s path = false ∨ pathConfined path i j = true) :
    writeStatus s path i j type l = stPathDenied := by
  rcases h with h | h <;> simp [writeStatus, hRow, hReady, h]

variable (hPath : pathAllowed s path = true) (hFree : pathConfined path i j = false)
include hPath hFree

theorem writeStatus_not_writable (h : r.access = 0) : writeStatus s path i j type l = stNotWritable := by
  simp only [writeStatus, hRow, hReady, hPath, hFree, if_pos h, Bool.not_true, Bool.or_self, Bool.false_eq_true, if_false]

variable (hWritable : r.access ≠ 0)
include hWritable

theorem writeStatus_type (h : type ≠ r.type ∨ l.length ≠ r.size) : writeStatus s path i j type l = stType := by
  rcases h with h | h <;> simp [writeStatus, hRow, hReady, hPath, hFree, hWritable, h]

/-- Past the type and the length, the subsystem and the value decide. -/
theorem writeStatus_typed (hDom : r.type ≠ 11) (hType : type = r.type) (hLen : l.length = r.size) :
    writeStatus s path i j type l =
      if !objIdle s i j (leNat l) then stBusy
      else if !(typeTaken r.type (leNat l) l && rangeTaken s i j (leNat l)) then stValue else stOk := by
  subst hType
  have hNot : ¬ (r.type = 11 ∨ r.type ≠ r.type ∨ l.length ≠ r.size) := by
    rintro (h | h | h)
    · exact hDom h
    · exact h rfl
    · exact h hLen
  simp only [writeStatus, hRow, hReady, hPath, hFree, if_neg hWritable, if_neg hNot, Bool.not_true, Bool.or_self, Bool.false_eq_true,
    if_false]

end

/-- A DOM_WRITE that is not OK writes nothing. -/
theorem svcDomWrite_refused (path i j off : Nat) (l : List Byte) (s : State) (h : (svcDomWrite path i j off l s).1 ≠ stOk) :
    (svcDomWrite path i j off l s).2 = s := by
  cases hRow : rowOf i j with
  | none => rw [svcDomWrite_of_none hRow]
  | some r =>
    simp only [svcDomWrite, hRow] at h ⊢
    split_ifs at h ⊢ <;> first | rfl | exact absurd rfl h

/-- Settles O24: each check's status in its turn, and a refused write's state. -/
theorem writeChecks : Obligations.WriteChecks := by
  refine ⟨fun s path i j type l => ⟨fun hNone => writeObj_of_none hNone s path type l, fun r hRow => ⟨fun h => ?_, fun hReady =>
    ⟨fun h => ?_, fun hPath hFree => ⟨fun h => ?_, fun hWritable => ⟨fun hDom hType hLen => ?_, fun h => ?_, fun h => ?_⟩⟩⟩⟩⟩,
    fun s path i j type off l => ⟨writeObj_refused path i j type l s, svcDomWrite_refused path i j off l s⟩⟩
  · exact writeObj_of_status (writeStatus_not_ready hRow h) (by decide)
  · exact writeObj_of_status (writeStatus_path_denied hRow hReady h) (by decide)
  · exact writeObj_of_status (writeStatus_not_writable hRow hReady hPath hFree h) (by decide)
  · have status := writeStatus_typed (s := s) (path := path) hRow hReady hPath hFree hWritable hDom hType hLen
    refine ⟨fun hIdle => ?_, fun hIdle => ⟨fun hValue => ?_, fun hValue hOk => ?_⟩⟩
    · exact writeObj_of_status (status.trans (if_pos (by rw [hIdle]; rfl))) (by decide)
    · exact writeObj_of_status (status.trans (by rw [hIdle, hValue]; rfl)) (by decide)
    · exact writeObj_applied (status.trans (by rw [hIdle, hValue]; rfl)) hOk
  · exact writeObj_of_status (writeStatus_type hRow hReady hPath hFree hWritable (.inl h)) (by decide)
  · exact writeObj_of_status (writeStatus_type hRow hReady hPath hFree hWritable (.inr h)) (by decide)

/-! ### Mailbox commands -/

section
variable {s : State} {core : Bool} {link : Nat} (chan word : Nat) (hOpen : s.pwr.opened = true)
  (hLink : core = false → linkState s link ≠ 0)
include hOpen hLink

/-- The mailbox is served: the dictionary is open, and a host's link has trained. -/
theorem mailbox_served : ¬ (!s.pwr.opened ∨ (!core && linkState s link == 0)) := by
  rw [hOpen]
  rintro (h | h)
  · exact absurd h (by decide)
  · rw [Bool.and_eq_true, beq_iff_eq] at h
    cases core
    · exact hLink rfl h.2
    · exact absurd h.1 (by decide)

theorem mailbox_idle (hGo : bit word 0 = false) : mailbox core chan link word s = count 0x58C6 (b2n core + 1) 1 s := by
  rw [mailbox, if_neg (mailbox_served hOpen hLink), if_pos (by rw [hGo]; rfl)]

theorem mailbox_busy (hGo : bit word 0 = true) (hBusy : (s.chan (if core then chan + 4 else chan)).state = 1) :
    mailbox core chan link word s = count 0x58C6 (b2n core + 1) 1 s := by
  rw [mailbox, if_neg (mailbox_served hOpen hLink), if_neg (by rw [hGo]; decide)]
  dsimp only
  rw [serveChan, if_neg (by simp [hOpen]), if_pos hBusy]

theorem mailbox_runs (hGo : bit word 0 = true) (hReady : (s.chan (if core then chan + 4 else chan)).state ≠ 1)
    (hLen : bits word 31 16 ≤ 16320) (hHi : bits word 55 48 = 0) (hLo : bits word 15 1 = 0) :
    mailbox core chan link word s =
      (let c := if core then chan + 4 else chan
       let l := (List.range (bits word 31 16)).map fun k => tget 0 k (s.chan c).body
       answerChan core chan link (bits word 47 32) (runService (if core then 2 else 1) (bits word 63 56) l s)) := by
  have hForm : ¬ (16320 < bits word 31 16 ∨ bits word 55 48 ≠ 0 ∨ bits word 15 1 ≠ 0) := by omega
  rw [mailbox, if_neg (mailbox_served hOpen hLink), if_neg (by rw [hGo]; decide)]
  dsimp only
  rw [serveChan_of_ready _ _ _ hOpen hReady, if_neg hForm]

end

/-- Settles O25: GO and the channel's state select between the count and the service. -/
theorem mailboxCommands : Obligations.MailboxCommands := by
  intro s core chan link word hc hl hOpen hLink c n l
  have wf : (decide (chan < 4) && decide (link < 2)) = true := by simp [hc, hl]
  refine ⟨fun hGo => ?_, fun hGo hBusy => ?_, fun hGo hReady hLen hHi hLo => ?_⟩
  · exact forUnit_settled wf (mailbox_idle chan word hOpen hLink hGo)
  · exact forUnit_settled wf (mailbox_busy chan word hOpen hLink hGo hBusy)
  · exact forUnit_settled wf (mailbox_runs chan word hOpen hLink hGo hReady hLen hHi hLo)

/-! ### The commands that write one object -/

/-- The answer of a WRITE that is applied. -/
theorem writeAnswer_applied {s : State} {path i j type : Nat} {l : List Byte} (h : writeStatus s path i j type l = stOk)
    (hOk : (applyObj i j (leNat l) l (noteHold s)).1 = stOk) :
    bare (writeObj path i j type l s) = ((stOk, []), (applyObj i j (leNat l) l (noteHold s)).2) := by
  rw [bare, writeObj_applied h hOk, hOk]

/-- A write of an object that there is, as a WRITE with the object's type. -/
theorem serveObj_of_row {rq : Request} {i j : Nat} {r : ObjRow} (l : List Byte) (s : State) (hRow : rowOf i j = some r)
    (hRaw : rq.raw = none) :
    serveObj rq i j l s = servePath rq 2 (writeReq i j r.type l) (fun path u => bare (writeObj path i j r.type l u)) s := by
  simp only [serveObj, hRow, serveWrite, serve, hRaw]

/-- Settles O26: each command is the WRITE of its object, which is applied on the path where its checks pass. -/
theorem dedicatedWrites : Obligations.DedicatedWrites := by
  intro s rq l c i j r hwf hRow hc done after hOpen hRaw
  have served : exec c s = .next (settle (serveObj rq i j l s)) := by
    rcases hc with ⟨rfl, rfl, rfl⟩ | ⟨n, rfl, rfl, rfl⟩ | ⟨n, rfl, rfl, rfl⟩ | ⟨n, rfl, rfl, rfl⟩ | ⟨rfl, rfl, rfl⟩ | ⟨rfl, rfl, rfl⟩
      | ⟨rfl, rfl, rfl⟩ | ⟨rfl, rfl, rfl⟩ | ⟨rfl, rfl, rfl⟩ | ⟨rfl, rfl, rfl⟩ | ⟨rfl, rfl, rfl⟩ | ⟨rfl, rfl, rfl⟩ | ⟨n, rfl, rfl, rfl⟩
      | ⟨n, rfl, rfl, rfl⟩ | ⟨n, rfl, rfl, rfl⟩ | ⟨rfl, rfl, rfl⟩ | ⟨rfl, rfl, rfl⟩ | ⟨rfl, rfl, rfl⟩ | ⟨n, rfl, rfl, rfl⟩
      | ⟨rfl, rfl, rfl⟩ | ⟨n, q, rfl, rfl, rfl⟩ | ⟨rfl, rfl, rfl⟩ | ⟨n, rfl, rfl, rfl⟩ | ⟨n, rfl, rfl, rfl⟩ | ⟨n, k, rfl, rfl, rfl⟩
      | ⟨rfl, rfl, rfl⟩ | ⟨rfl, rfl, rfl⟩ | ⟨rfl, rfl, rfl⟩ | ⟨p, rfl, rfl, rfl⟩ | ⟨p, rfl, rfl, rfl⟩ | ⟨k, rfl, rfl, rfl, rfl⟩
      | ⟨k, rfl, rfl, rfl, rfl⟩ | ⟨k, rfl, rfl, rfl, rfl⟩ | ⟨k, rfl, rfl, rfl⟩ | ⟨k, rfl, rfl, rfl⟩ | ⟨k, rfl, rfl, rfl⟩
      | ⟨rfl, rfl, rfl⟩ | ⟨k, rfl, rfl, rfl⟩
    all_goals exact forUnit_settled hwf rfl
  rw [served, serveObj_of_row l s hRow hRaw]
  refine ⟨fun k hSrc hLink hReady hDone => ?_, fun k hSrc hReady hDone => ?_, fun p peer slot seq tag hSrc hUp => ?_⟩
  · rw [servePath_host _ _ hSrc hOpen hLink hReady, writeAnswer_applied hDone.1 hDone.2]
  · rw [servePath_core _ _ hSrc hOpen hReady, writeAnswer_applied hDone.1 hDone.2]
  · intro f t x hMine hReads hSess hPort hRoom hSeq hNew y hOnce u hDone
    have run : bare (writeObj 0 i j r.type l u) = ((stOk, []), after u) := writeAnswer_applied hDone.1 hDone.2
    rw [servePath_camip _ _ hSrc, serveCamip_secured _ _ hUp hMine hReads rfl hSess hPort hRoom hSeq hNew hOnce, ← run]
    rfl

end Sys2Proof.Machine
end

section
/-!
PROOFS. What the writes of the boot, fuse, time and Camip port objects do (R416, R485, R490, R500, R503, R507, R508, R520, R521).
-/

namespace Sys2Proof.Machine

/-! ### Objects that only hold their value -/

/-- An object whose row is of a number type takes its value. -/
theorem storeObj_num {i j : Nat} (v : Nat) (l : List Byte) (s : State)
    (hRow : ((rowOf i j).any fun r => decide (r.type < 9)) = true) : storeObj i j v l s = s.setNum i j v := by
  cases h : rowOf i j with
  | none => simp [h] at hRow
  | some r =>
    simp only [h, Option.any_some, decide_eq_true_eq] at hRow
    simp only [storeObj, h]
    exact if_neg (by omega)

/-- DICT_SETTINGS_EXTRA, DICT_PATH_WRITE and PWR_LIMIT_W hold their value. -/
theorem applyObj_stored {i j : Nat} (v : Nat) (l : List Byte) (s : State)
    (h : (i = 0x1101 ∧ j = 2) ∨ (i = 0x1102 ∧ j = 1) ∨ (i = 0x2000 ∧ j = 4)) : applyObj i j v l s = (stOk, s.setNum i j v) := by
  rcases h with ⟨rfl, rfl⟩ | ⟨rfl, rfl⟩ | ⟨rfl, rfl⟩ <;> exact congrArg (Prod.mk stOk) (storeObj_num v l s (by decide))

/-- The eight operating points are numbers. -/
theorem setpointRows : ∀ n < 8, ((rowOf 0x2002 (n + 1)).any fun r => decide (r.type < 9)) = true := by decide

theorem applyObj_setpoint {n : Nat} (hn : n < 8) (v : Nat) (l : List Byte) (s : State) :
    applyObj 0x2002 (n + 1) v l s = (stOk, s.setNum 0x2002 (n + 1) v) :=
  congrArg (Prod.mk stOk) (storeObj_num v l s (setpointRows n hn))

/-! ### SEC_READY and the fuses -/

theorem applyReady_after_handoff {s : State} (hPhase : s.num 0x5400 1 = 4) (hHold : s.num 0x1101 3 ≠ 1) :
    applyReady s = (stOk, post 0x5403 (src 0 2) 0x1F [(8, s.tim.now)] (s.setNum 0x5400 1 5)) :=
  if_pos ⟨hPhase, by simpa [holdEnded] using hHold⟩

theorem applyReady_early {s : State} (h : s.num 0x5400 1 ≠ 4 ∨ s.num 0x1101 3 = 1) : applyReady s = (stNotReady, s) := by
  refine if_neg fun ⟨hPhase, hHold⟩ => ?_
  rcases h with h | h
  · exact h hPhase
  · simp [holdEnded, h] at hHold

theorem packageReady_of_phase {s : State} (h : s.num 0x5400 1 = 5) : packageReady s = true := beq_iff_eq.2 h

/-- A revocation that spares the running slots, leaves a live key and sets a new bit is blown and reported. -/
theorem applyRevoke_blown {s : State} {v : Nat} (hReady : s.num 0x5400 1 = 5) (hMc : bit v s.pwr.mcSlot = false)
    (hCore : bit v s.pwr.coreSlot = false) (hLive : (List.range 4).any (slotLive s ((s.fuses.revoked ||| v) % 16)) = true)
    (hNew : (s.fuses.revoked ||| v) % 16 ≠ s.fuses.revoked % 16) :
    applyRevoke v s = (stOk, post 0x5404 (src 0 2) 0x1F [(1, 0), (1, v)]
      { s with fuses := { s.fuses with revoked := (s.fuses.revoked ||| v) % 16 } }) := by
  rw [applyRevoke, packageReady_of_phase hReady, hMc, hCore]
  dsimp only
  rw [hLive]
  exact if_neg hNew

/-- A commit that raises a thermometer of fuses blows it and is reported. -/
theorem applyCommit_blown {s : State} {v : Nat} (hReady : s.num 0x5400 1 = 5)
    (hNew : ¬ ((if bit v 0 then s.fuses.svnMc ||| thermo s.pwr.mcSvn else s.fuses.svnMc) = s.fuses.svnMc
      ∧ (if bit v 1 then s.fuses.svnCore ||| thermo s.pwr.coreSvn else s.fuses.svnCore) = s.fuses.svnCore)) :
    applyCommit v s = (stOk, post 0x5404 (src 0 2) 0x1F [(1, 1), (1, v)]
      { s with fuses := { s.fuses with
          svnMc := if bit v 0 then s.fuses.svnMc ||| thermo s.pwr.mcSvn else s.fuses.svnMc
          svnCore := if bit v 1 then s.fuses.svnCore ||| thermo s.pwr.coreSvn else s.fuses.svnCore } }) := by
  rw [applyCommit, packageReady_of_phase hReady]
  exact if_neg hNew

/-! ### CAMIP_ENABLE and CAMIP_NODE_ID -/

theorem applyCamipEnable_false (p : Nat) (s : State) :
    applyCamipEnable p 0 s = refreshCamip p (closePort p
      (let w := s.setNum 0x1110 (p + 1) 0
       { w with dict := { w.dict with txq := w.dict.txq.filter fun e => e.1 != p } })) := by
  rw [applyCamipEnable]
  dsimp only
  rw [if_pos rfl]

theorem applyCamipEnable_true {v : Nat} (hv : v ≠ 0) (p : Nat) (s : State) :
    applyCamipEnable p v s = refreshCamip p (s.setNum 0x1110 (p + 1) v) := by
  rw [applyCamipEnable]
  dsimp only
  rw [if_neg hv]

theorem applyObj_nodeId (p v : Nat) (l : List Byte) (s : State) : applyObj 0x1111 (p + 1) v l s = (stOk, applyNodeId p v s) := rfl

/-- A node ID that does not change leaves the port's sessions open. -/
theorem applyNodeId_same {p v : Nat} {s : State} (hv : v ≠ 0) (h : s.num 0x1111 (p + 1) = v) :
    applyNodeId p v s = refreshCamip p (s.setNum 0x1111 (p + 1) v) := by
  rw [applyNodeId, beq_iff_eq.2 h]
  dsimp only
  rw [if_neg hv, if_pos rfl]

theorem applyNodeId_changed {p v : Nat} {s : State} (hv : v ≠ 0) (h : s.num 0x1111 (p + 1) ≠ v) :
    applyNodeId p v s = refreshCamip p (closePort p (s.setNum 0x1111 (p + 1) v)) := by
  rw [applyNodeId, beq_eq_false_iff_ne.2 h]
  dsimp only
  rw [if_neg hv, if_neg Bool.false_ne_true]

theorem applyNodeId_cleared {p : Nat} {s : State} (h : s.num 0x1111 (p + 1) ≠ 0) :
    applyNodeId p 0 s = refreshCamip p
      (let w := closePort p (s.setNum 0x1111 (p + 1) 0)
       { w with dict := { w.dict with txq := w.dict.txq.filter fun e => e.1 != p } }) := by
  rw [applyNodeId, beq_eq_false_iff_ne.2 h]
  dsimp only
  rw [if_pos rfl, if_neg Bool.false_ne_true]

/-- Settles O27: each object's own effect, under the conditions that its rule names. -/
theorem bootAndPortObjects : Obligations.BootAndPortObjects := by
  refine ⟨fun u v l => ⟨fun hPhase hHold => ?_, fun h => ?_, rfl, ?_, ?_, rfl, fun slot => rfl, fun hReady => ⟨?_, ?_⟩, rfl, ?_, ?_⟩,
    fun u p v l => ?_⟩
  · exact applyReady_after_handoff hPhase hHold
  · exact applyReady_early h
  · exact applyObj_stored v l u (by simp)
  · exact applyObj_stored v l u (by simp)
  · intro r hMc hCore hLive hNew
    exact applyRevoke_blown hReady hMc hCore hLive hNew
  · intro mc core hNew
    exact applyCommit_blown hReady hNew
  · exact applyObj_stored v l u (by simp)
  · exact fun n hn => applyObj_setpoint hn v l u
  · intro quiet off
    refine ⟨fun hv => ?_, ?_, fun hv h => ?_, fun hv h => ?_, fun h => ?_⟩
    · exact congrArg (Prod.mk stOk) (applyCamipEnable_true hv p u)
    · exact congrArg (Prod.mk stOk) (applyCamipEnable_false p u)
    · exact congrArg (Prod.mk stOk) (applyNodeId_same hv h)
    · exact congrArg (Prod.mk stOk) (applyNodeId_changed hv h)
    · rw [applyObj_nodeId, applyNodeId_cleared h]

end Sys2Proof.Machine
end

section
/-!
PROOFS. What the writes of the enable objects and of the queue, slot, pool and job objects do (R123, R124, R152, R156, R192, R250, R251,
R266, R292, R295, R369, R373, R378, R387, R403, R423, R542, R543, R554).
-/

namespace Sys2Proof.Machine

/-! ### Enables of domains -/

/-- The domains that an enable object newly asks for when it takes a value. -/
def newlyAsked (i j v : Nat) (s : State) : List Nat := allDomains.filter fun d => domWanted (s.setNum i j v) d && !domWanted s d

theorem applyEnable_allowed {i j v : Nat} {s : State} (h : (newlyAsked i j v s).all (mayEnable (s.setNum i j v)) = true) :
    applyEnable i j v s = (stOk, rampAll (newlyAsked i j v s) (s.setNum i j v)) := if_pos h

theorem applyEnable_refused {i j v : Nat} {s : State} (h : (newlyAsked i j v s).all (mayEnable (s.setNum i j v)) = false) :
    applyEnable i j v s = (stValue, s) := if_neg (by rw [newlyAsked] at h; rw [h]; decide)

theorem applyDieEnable_present {v : Nat} {s : State} (h : (bitList v 8).all (bit (s.num 0x3C00 1)) = true) :
    applyDieEnable v s = applyEnable 0x3C00 2 v s := if_pos h

theorem applyDieEnable_absent {v : Nat} {s : State} (h : (bitList v 8).all (bit (s.num 0x3C00 1)) = false) :
    applyDieEnable v s = (stValue, s) := if_neg (by rw [h]; decide)

/-- The objects that enable domains and nothing else. -/
theorem applyObj_enable {i j v : Nat} (l : List Byte) {s : State}
    (h : i = 0x3C01 ∨ i = 0x3C06 ∨ i = 0x6001 ∨ (i = 0x2006 ∧ j = 2)
      ∨ (i = 0x3C00 ∧ j = 2 ∧ (bitList v 8).all (bit (s.num 0x3C00 1)) = true)) :
    applyObj i j v l s = applyEnable i j v s := by
  rcases h with rfl | rfl | rfl | ⟨rfl, rfl⟩ | ⟨rfl, rfl, hPresent⟩
  · rfl
  · rfl
  · rfl
  · rfl
  · exact applyDieEnable_present hPresent

/-- PWR_GROUP_ENABLE also turns off the groups that it no longer asks for. -/
theorem applyObj_groups_allowed {v : Nat} (l : List Byte) {s : State}
    (h : (newlyAsked 0x2006 1 v s).all (mayEnable (s.setNum 0x2006 1 v)) = true) :
    applyObj 0x2006 1 v l s = (stOk, closeGroups (rampAll (newlyAsked 0x2006 1 v s) (s.setNum 0x2006 1 v))) := by
  have dispatch : applyObj 0x2006 1 v l s =
      (let r := applyEnable 0x2006 1 v s
       if r.1 = stOk then (stOk, closeGroups r.2) else r) := rfl
  rw [dispatch, applyEnable_allowed h]
  exact if_pos rfl

theorem applySelftest_ready {v : Nat} {s : State} (h : (bitList v 8).all (dieReady s) = true) :
    applySelftest v s = (stOk, (bitList v 8).foldl startSelftest s) := if_pos h

theorem applyHomes_allowed {v : Nat} {s : State}
    (h : ((List.range 8).filter fun n => bit v n && !bit (s.num 0x2801 1) n).all (homeOnAllowed s) = true) :
    applyHomes v s = (stOk,
      ((List.range 8).filter fun n => !bit v n && bit (s.num 0x2801 1) n).foldl (fun w n => if w.homeState n = 1 then drainHome n w else w)
        (((List.range 8).filter fun n => bit v n && !bit (s.num 0x2801 1) n).foldl (fun w n => w.setNum 0x2800 (n + 1) 1)
          (s.setNum 0x2801 1 v))) := by
  rw [applyHomes]
  dsimp only
  rw [h]
  rfl

/-! ### Ports -/

theorem applyPortEnable_allowed {v : Nat} {s : State} (hv : v < 2 ^ 24)
    (h : ((allPorts.filter fun p => bit v p && !bit (s.num 0x3000 1) p).all fun p => mayEnable s (domOfPort p)) = true) :
    applyPortEnable v s = (stOk,
      (allPorts.filter fun p => bit v p && !bit (s.num 0x3000 1) p).foldl (fun w p => rampDomain (domOfPort p) (startTraining p w))
        ((allPorts.filter fun p => !bit v p && bit (s.num 0x3000 1) p).foldl (fun w p => disablePort p w) (s.setNum 0x3000 1 v))) := by
  rw [applyPortEnable]
  dsimp only
  rw [if_neg (by omega), h]
  rfl

theorem applyPortExpect_device (p v : Nat) (s : State) : applyPortExpect p false v s =
    (stOk, if portState (s.setNum 0x3003 (p + 1) v) p = 5 then startTraining p (s.setNum 0x3003 (p + 1) v)
      else s.setNum 0x3003 (p + 1) v) := if_neg fun h => Bool.false_ne_true h.1

theorem applyPortExpect_port {v : Nat} (hv : v < 24 ∨ v = 0xFF) (p : Nat) (s : State) : applyPortExpect p true v s =
    (stOk, if portState (s.setNum 0x3004 (p + 1) v) p = 5 then startTraining p (s.setNum 0x3004 (p + 1) v)
      else s.setNum 0x3004 (p + 1) v) := if_neg fun h => h.2 hv

/-! ### Descriptor queues -/

theorem applyObj_dqCtrl {n : Nat} (hn : n < 8) (q v : Nat) (l : List Byte) (s : State) :
    applyObj (0x3C28 + n) (q + 1) v l s = applyDqCtrl n q v s := by
  have hIx : 0x3C28 + n - 0x3C28 = n := by omega
  rw [applyObj, if_neg (by omega), if_neg (by omega), if_neg (by omega), if_neg (by omega), if_pos (by omega), applyTns,
    if_neg (by omega), if_neg (by omega), if_neg (by omega), if_pos (by omega), hIx, Nat.add_sub_cancel]

theorem applyDqCtrl_idle {n q v : Nat} {s : State} (hOff : dqOn s n q = false) (hForm : bits v 30 4 = 0) (hStop : bit v 31 = false) :
    applyDqCtrl n q v s = (stOk, s.setNum (0x3C28 + n) (q + 1) v) := by
  rw [applyDqCtrl, hOff, hForm, hStop]
  rfl

theorem applyDqCtrl_busy {n q v : Nat} {s : State} (hOn : dqOn s n q = true) (hNew : v ≠ dqCtrl s n q) :
    applyDqCtrl n q v s = (stBusy, s) := by
  rw [applyDqCtrl, hOn]
  dsimp only
  rw [if_pos rfl, if_neg hNew]

/-- The reset of an enabled queue stops it, aborts what waits, and is under way. -/
theorem applyDqReset_of_on {v : Nat} {s : State} (hForm : bits v 15 11 = 0) (hForm' : bits v 7 5 = 0)
    (hOn : dqOn s (bits v 10 8) (bits v 4 0) = true) : applyDqReset v s = (stOk,
      (let n := bits v 10 8
       let q := bits v 4 0
       let w := if dqState s n q = 1 then stopReset n q s else s
       abortOps n (fun o => o.queue == q && o.partOf.isNone) (w.setQueue n q { w.queue n q with resetting := true }))) := by
  rw [applyDqReset]
  dsimp only
  rw [if_neg (by omega), hOn]
  rfl

/-! ### Sequence slots and pools -/

section
variable {k v : Nat} {s : State} (hForm : bits v 6 5 ≤ 1)
include hForm

theorem applySlotBind_free (hBind : bit v 7 = true) (hFree : slotFree s k = true) :
    applySlotBind k v s = (stOk, s.setNum 0x3C40 (k + 1) (setBit v 4 false)) := by
  rw [applySlotBind, if_neg (by omega), if_pos hBind, if_pos hFree]

theorem applySlotBind_taken (hBind : bit v 7 = true) (hFree : slotFree s k = false) : applySlotBind k v s = (stValue, s) := by
  rw [applySlotBind, if_neg (by omega), if_pos hBind, if_neg (by rw [hFree]; decide)]

theorem applySlotBind_release (hBind : bit v 7 = false) (hBound : bit (slotBind s k) 7 = true) :
    applySlotBind k v s = (stOk, s.setNum 0x3C40 (k + 1) (slotBind s k - 128 + 16)) := by
  rw [applySlotBind, if_neg (by omega), if_neg (by rw [hBind]; decide), releaseSlot, if_pos hBound]

end

theorem applyObj_poolPeak {n : Nat} (hn : n < 8) (j v : Nat) (l : List Byte) (s : State) :
    applyObj (0x3C60 + n) (j + 1) v l s = applyPoolPeak n j v s := by
  have hIx : 0x3C60 + n - 0x3C60 = n := by omega
  rw [applyObj, if_neg (by omega), if_neg (by omega), if_neg (by omega), if_neg (by omega), if_pos (by omega), applyTns,
    if_neg (by omega), if_neg (by omega), if_neg (by omega), if_neg (by omega), if_neg (by omega), if_neg (by omega), if_pos (by omega),
    hIx, Nat.add_sub_cancel]

/-! ### Jobs -/

theorem applyJobCtrl_start {j v : Nat} {s : State} (hv : v = 1 ∨ v = 3) (h : s.jobState j = 0) :
    applyJobCtrl j v s = (stOk, startJob (v == 3) j s) := by
  rw [applyJobCtrl, if_neg (by omega), if_pos hv, if_neg (by omega)]

theorem applyJobCtrl_busy {j v : Nat} {s : State} (hv : v = 1 ∨ v = 3) (h : s.jobState j ≠ 0) : applyJobCtrl j v s = (stBusy, s) := by
  rw [applyJobCtrl, if_neg (by omega), if_pos hv, if_pos h]

theorem applyJobSwitch_of_running {j : Nat} {s : State} (hCoord : isCoord s j = true) (hRun : s.jobState j = 2)
    (hPartner : s.num (jobIx j 4) 2 ≠ 0) : applyJobSwitch j 1 s = (stOk, sendSwitch j s) := if_pos ⟨rfl, hCoord, hRun, hPartner⟩

/-- Settles O28: each object's own effect, under the conditions that its rule names. -/
theorem enableAndQueueObjects : Obligations.EnableAndQueueObjects := by
  refine ⟨fun u v l => ⟨fun i j hObj => ?_, fun hAll => ?_, fun hAll => ?_, fun hAll => ?_, fun hAll => ?_, fun hv hAll => ?_,
      fun p hp => ⟨?_, fun hv => ?_⟩⟩,
    fun u v l => ⟨fun n q hn hq => ⟨fun hOff hForm hStop => ?_, fun hOn hNew => ?_, fun hDie hQueue hForm hForm' hOn => ?_⟩,
      fun k hForm => ⟨fun hBind hFree => ?_, fun hBind hFree => ?_, fun hBind hBound => ?_⟩, fun n j hn => ?_, fun j hj => ?_⟩⟩
  · rw [applyObj_enable l hObj]
    exact ⟨applyEnable_allowed, applyEnable_refused⟩
  · exact applyObj_groups_allowed l hAll
  · exact applyDieEnable_absent hAll
  · exact applySelftest_ready hAll
  · exact applyHomes_allowed hAll
  · exact applyPortEnable_allowed hv hAll
  · exact applyPortExpect_device p v u
  · exact applyPortExpect_port hv p u
  · rw [applyObj_dqCtrl hn, applyDqCtrl_idle hOff hForm hStop]
  · rw [applyObj_dqCtrl hn, applyDqCtrl_busy hOn hNew]
  · subst hDie hQueue
    exact applyDqReset_of_on hForm hForm' hOn
  · exact applySlotBind_free hForm hBind hFree
  · exact applySlotBind_taken hForm hBind hFree
  · exact applySlotBind_release hForm hBind hBound
  · exact applyObj_poolPeak hn j 0 l u
  · simp only [applyObj_job _ _ _ _ _ _ hj (show 0 < 256 by omega), applyObj_job _ _ _ _ _ _ hj (show 3 < 256 by omega),
      applyObj_job _ _ _ _ _ _ hj (show 4 < 256 by omega)]
    refine ⟨fun h => ⟨applyJobCtrl_start (.inl rfl) h, applyJobCtrl_start (.inr rfl) h⟩,
      fun h => ⟨applyJobCtrl_busy (.inl rfl) h, applyJobCtrl_busy (.inr rfl) h, rfl⟩, rfl, fun hCoord hRun hPartner => ?_⟩
    exact applyJobSwitch_of_running hCoord hRun hPartner

end Sys2Proof.Machine
end

section
/-!
PROOFS. SPDM messages on a Camip port and over DOE, and the sessions they open and close (R486 to R491, R505, R523 to R525).
-/

namespace Sys2Proof.Machine

/-! ### SPDM arrives -/

/-- An unsecured request of a service that needs no session runs, or is MALFORMED. -/
theorem serveCamip_free {s : State} {p : Nat} {f : CamipFrame} {svc : Nat} (body : List Byte) (run : State → Answer)
    (hUp : camipUp s p = true) (hMine : camipMine s f.head svc = true) (hReads : headReads f.head = true) (hPlain : f.secured = none)
    (hFree : freeService svc = true) :
    serveCamip p f svc body run s =
      answerPlain p f.peer svc (f.trans % 65536) (clearRun f body.length run (count 0x58C0 (p + 1) 1 s)) := by
  rw [serveCamip_plain _ _ hUp hMine hReads hPlain, hFree, clearRun]
  cases headClear f body.length <;> rfl

theorem spdmArrives_wrongPort {s : State} {p : Nat} {m : SpdmFrame} (hp : p < 2) (h : wrongPort s p m.msg = true) :
    spdmArrives p m s =
      if camipUp s p = true ∧ camipMine s m.frame.head 0x10 = true then count 0x58C0 (p + 1) 1 s else s := by
  rw [spdmArrives, if_pos hp, if_neg (by rw [h]; decide)]
  simp only [Bool.and_eq_true]

theorem spdmArrives_camip {s : State} {p : Nat} {m : SpdmFrame} (hp : p < 2) (h : wrongPort s p m.msg = false) :
    spdmArrives p m s = serveCamip p m.frame 0x10 m.bytes (spdmServe p m.frame.secured m) s := by
  rw [spdmArrives, if_pos hp, if_pos (by rw [h]; rfl)]

theorem spdmArrives_doe {s : State} {p : Nat} {m : SpdmFrame} (hp : 2 ≤ p) (hReady : packageReady s = true)
    (hLink : linkExists s (p - 2) = true) (hUp : linkState s (p - 2) ≠ 0) :
    spdmArrives p m s = (spdmServe p none m s).2.emit (.pcieCpl (p - 2) 0 (spdmServe p none m s).1.2) := by
  rw [spdmArrives, if_neg (by omega), if_pos (by rw [hReady, hLink, bne_iff_ne.2 hUp]; rfl)]

/-! ### Large messages -/

theorem fitted_short (p room : Nat) (a : Answer) (h : a.1.2.length ≤ room) : fitted p room a = a := if_pos h

/-- A chunk that is not the last, in its turn, is acknowledged. -/
theorem chunkSend_more {p h q : Nat} {run : State → Answer} {s : State} (hTurn : q = 0 ∨ s.dict.chunks.contains (p, h, q) = true) :
    chunkSend p h q false run s = ((stOk, spdmHead 0x05 0 h ++ leBytes 2 q),
      { s with dict := { s.dict with chunks := (p, h, q + 1) :: s.dict.chunks.filter (·.1 != p) } }) := by
  unfold chunkSend
  dsimp only
  rw [if_neg (by rintro ⟨hZero, hOther⟩; rcases hTurn with h | h <;> simp_all)]
  exact if_neg Bool.false_ne_true

theorem spdmServe_chunk {p h q : Nat} {last : Bool} {m : SpdmFrame} (sec : Option (Nat × Nat)) (s : State)
    (hChunk : m.chunk = some (h, q, last)) :
    spdmServe p sec m s = chunkSend p h q last (fun u => fitted p (dataTransfer - 6) (spdmTake p sec m.msg u)) s := by
  simp only [spdmServe, hChunk]

/-! ### Sessions -/

/-- What KEY_UPDATE does in its session: a new key. -/
def renewKey (slot : Nat) (s : State) : Answer :=
  let w := s.setSess slot { s.sess slot with key := s.free }
  updateReply { w with free := w.free + 1 }

/-- What END_SESSION does in its session: it closes once the answer is sent. -/
def askClose (slot : Nat) (s : State) : Answer :=
  spdmReply (spdmHead 0x6C 0 0) { s with dict := { s.dict with closing := s.dict.closing ++ [(slot, 0)] } }

theorem spdmTake_keyUpdate (p slot seq : Nat) (s : State) :
    spdmTake p (some (slot, seq)) (.keyUpdate slot) s = inSession p slot 0xE9 (some (slot, seq)) (renewKey slot) s := rfl

theorem spdmTake_endSession (p slot seq : Nat) (s : State) :
    spdmTake p (some (slot, seq)) (.endSession slot) s = inSession p slot 0xEC (some (slot, seq)) (askClose slot) s := rfl

section
variable {p : Nat} {u : State} (hp : p < 2) (sec : Option (Nat × Nat))
include hp

theorem spdmTake_keyExchange {slot : Nat} (peer : List Byte) (hFree : freeSession u = some slot) :
    spdmTake p sec (.keyExchange peer) u = keyExchangeReply slot (openHandshake p slot peer u) := by
  simp only [spdmTake, if_neg (Nat.not_le.2 hp), hFree]

theorem spdmTake_keyExchange_full (peer : List Byte) (hFull : freeSession u = none) :
    spdmTake p sec (.keyExchange peer) u = spdmError 0x0A 0 u := by
  simp only [spdmTake, if_neg (Nat.not_le.2 hp), hFull]

theorem spdmTake_finish {slot : Nat} (root : List Byte) (ok : Bool) (hAt : sessionAt u p slot 1 = true) :
    spdmTake p sec (.finish slot root ok) u =
      if ok = true ∧ (u.sess slot).roots.contains root = true then finishReply (openSession p slot u)
      else spdmError 0x06 0 (closeSession slot 0 u) := by
  simp only [spdmTake, if_neg (Nat.not_le.2 hp), hAt, Bool.not_true, Bool.false_eq_true, if_false]

/-- A message of an open session, in a secured frame of that session, does what it asks. -/
theorem inSession_own {slot : Nat} (code seq : Nat) (act : State → Answer) (hAt : sessionAt u p slot 2 = true) :
    inSession p slot code (some (slot, seq)) act u = act u := by
  simp only [inSession, if_neg (Nat.not_le.2 hp), hAt, and_self, if_true]

end

/-! ### Measurements and certificates -/

/-- The blocks asked for by the number of one that there is. -/
theorem asked_one {s : State} {b : Nat} {v : Bool × List Byte} (h : measurementOf s b = some v) :
    b ≠ 0 ∧ b ≠ 0xFF := by
  refine ⟨?_, ?_⟩ <;> (rintro rfl; cases h)

theorem measurementBlock_some {s : State} {b : Nat} {v : Bool × List Byte} (n : Nat) (h : measurementOf s b = some v) :
    measurementBlock s n b = leBytes 1 b ++ leBytes 1 1 ++ leBytes 2 (v.2.length + 3)
      ++ leBytes 1 (leNat (spdmOwn n 0xE0 b 1) % 128 + 128 * b2n v.1) ++ leBytes 2 v.2.length ++ v.2 := by
  simp only [measurementBlock, h]

/-- GET_MEASUREMENTS of one block that there is: the block, signed with the alias key. -/
theorem measurements_one {s : State} {b : Nat} {v : Bool × List Byte} (h : measurementOf s b = some v) :
    measurements b s =
      (let n := Config.freeNat s.free
       let block := measurementBlock s n b
       let l := [0x12, 0x60, 0, 0, 1] ++ leBytes 3 block.length ++ block ++ spdmOwn n 0xE0 0 32 ++ [0, 0]
       ((stOk, l ++ sliceOf (Config.sign s.pwr.aliasKey n l) 0 96), { s with free := s.free + 1 })) := by
  obtain ⟨hSome, hAll⟩ := asked_one h
  unfold measurements
  simp only [if_neg hSome, if_neg hAll, List.any_cons, List.any_nil, h, Option.isNone_some, Bool.or_self, List.flatMap_cons,
    List.flatMap_nil, List.append_nil]
  rfl

/-- GET_CERTIFICATE of slot 0 within its chain. -/
theorem certificate_portion {s : State} {off n : Nat} (hOff : off < (certChain s).length) (hOff' : off < 2 ^ 16) (hn : n < 2 ^ 16) :
    certificate ([0, 0] ++ leBytes 2 off ++ leBytes 2 n) s =
      (let k := min n ((certChain s).length - off)
       ((stOk, [0x12, 0x02, 0, 0] ++ leBytes 2 k ++ leBytes 2 ((certChain s).length - off - k) ++ sliceOf (certChain s) off k), s)) := by
  have hAt : leNat (sliceOf ([0, 0] ++ leBytes 2 off ++ leBytes 2 n) 2 2) = off := by
    rw [show sliceOf ([0, 0] ++ leBytes 2 off ++ leBytes 2 n) 2 2 = leBytes 2 off from rfl, leNat_leBytes]
    omega
  have hLen : leNat (sliceOf ([0, 0] ++ leBytes 2 off ++ leBytes 2 n) 4 2) = n := by
    rw [show sliceOf ([0, 0] ++ leBytes 2 off ++ leBytes 2 n) 4 2 = leBytes 2 n from rfl, leNat_leBytes]
    omega
  have hSlot : leNat (sliceOf ([0, 0] ++ leBytes 2 off ++ leBytes 2 n) 0 1) % 16 = 0 := rfl
  unfold certificate
  simp only [hAt, hLen, hSlot]
  exact if_neg (by omega)

/-- Settles O29: what of a frame passes selects its answer, and each message does its own work. -/
theorem spdmAndSessions : Obligations.SpdmAndSessions := by
  refine ⟨fun s p m l f hm hf => ?_, fun u p => ⟨fun a room => fitted_short p room a, fun sec m h q hTurn hChunk => ?_⟩,
    fun u p hp => ⟨fun peer sec slot hFree => ?_, fun peer sec hFull => ?_, fun sec slot root ok hAt => ⟨fun hOk hRoot => ?_, fun hBad => ?_⟩,
      fun slot seq hAt => ⟨?_, ?_⟩, fun sec b v hBlock => ?_, fun sec body => ?_⟩⟩
  · intro c take
    have wf (h : p < 4) : Instr.wf c = true := by simp [c, Instr.wf, h, hm, hf]
    refine ⟨fun hp hWrong => forUnit_settled (wf (by omega)) (spdmArrives_wrongPort hp hWrong), fun hp hUp hRight hMine hReads => ?_,
      fun hp hp' hReady hLink hUp => forUnit_settled (wf hp') (spdmArrives_doe hp hReady hLink hUp)⟩
    intro id t
    refine ⟨fun hPlain => ?_, fun slot seq hSec => ?_⟩
    · refine forUnit_settled (wf (by omega)) ?_
      rw [spdmArrives_camip hp hRight, serveCamip_free _ _ hUp hMine hReads hPlain rfl]
      rw [hPlain]
      rfl
    · intro x hSess hPort hRoom hSeq hNew y hOnce u
      refine forUnit_settled (wf (by omega)) ?_
      rw [spdmArrives_camip hp hRight, serveCamip_secured _ _ hUp hMine hReads hSec hSess hPort hRoom hSeq hNew hOnce]
      rw [hSec]
      rfl
  · rw [spdmServe_chunk sec u hChunk, chunkSend_more hTurn]
  · exact spdmTake_keyExchange hp sec peer hFree
  · exact spdmTake_keyExchange_full hp sec peer hFull
  · rw [spdmTake_finish hp sec root ok hAt, if_pos ⟨hOk, hRoot⟩]
    rfl
  · rw [spdmTake_finish hp sec root ok hAt, if_neg ?_]
    rintro ⟨hOk, hRoot⟩
    rcases hBad with h | h
    · exact Bool.false_ne_true (h ▸ hOk)
    · exact Bool.false_ne_true (h ▸ hRoot)
  · exact (spdmTake_keyUpdate p slot seq u).trans (inSession_own hp 0xE9 seq _ hAt)
  · exact (spdmTake_endSession p slot seq u).trans (inSession_own hp 0xEC seq _ hAt)
  · have hTake : spdmTake p sec (.measurement b) u = measurements b u := rfl
    rw [hTake, measurements_one hBlock]
    dsimp only
    rw [measurementBlock_some _ hBlock]
  · intro certs chain
    exact ⟨rfl, rfl, fun off n hOff hOff' hn => certificate_portion hOff hOff' hn⟩

end Sys2Proof.Machine
end

section
/-!
PROOFS. IDENT, PLCA, idle sessions and repeated notifications (R481, R485, R487, R490, R492, R493, R505).
-/

namespace Sys2Proof.Machine

/-! ### PLCA -/

/-- The beacon of a port with a node ID is lost: the port follows and it is reported. -/
theorem plcaLost_of_heard {p : Nat} {s : State} (hHeard : lget false s.dict.plca p = true)
    (hNode : (refreshCamip p { s with dict := { s.dict with plca := lset s.dict.plca p false } }).num 0x1111 (p + 1) ≠ 0) :
    plcaLost p s = post 0x1004 (src 0 0) 0x1F [(1, p)]
      (refreshCamip p { s with dict := { s.dict with plca := lset s.dict.plca p false } }) := by
  rw [plcaLost, if_pos hHeard]
  exact if_neg hNode

theorem plcaHeard_of_on {p : Nat} {s : State} (hOpen : s.pwr.opened = true) (hOn : s.on domNet = true) :
    plcaHeard p s =
      (let mine := (s.dict.txq.filter (·.1 == p)).map (·.2)
       let rest := s.dict.txq.filter (·.1 != p)
       (mine.filter isResponse ++ mine.filter (fun o => !isResponse o)).foldl (fun u o => camipSend p o u)
        (refreshCamip p { s with dict := { s.dict with plca := lset s.dict.plca p true, txq := rest } })) := by
  rw [plcaHeard, hOpen, hOn]
  rfl

/-! ### Sessions -/

theorem closeSession_of_free {slot : Nat} (cause : Nat) {s : State} (h : s.num 0x1120 (slot + 1) = 0) : closeSession slot cause s = s :=
  if_pos h

theorem closeSession_of_used {slot : Nat} (cause : Nat) {s : State} (h : s.num 0x1120 (slot + 1) ≠ 0) :
    closeSession slot cause s =
      (let u := post 0x1002 (src 0 0) 0x1F [(1, s.num 0x1121 (slot + 1)), (1, slot), (1, cause)] s
       let w := ((u.setNum 0x1120 (slot + 1) 0).setNum 0x1121 (slot + 1) 0xFF).setOct 0x1122 (slot + 1) (List.replicate 6 0)
       w.setSess slot { Sess.init with key := (w.sess slot).key }) := if_neg h

/-- While PLCA status is FALSE a frame waits in the queue. -/
theorem camipSend_held {p : Nat} (o : Out) {s : State} (h : lget false s.dict.plca p = false) :
    camipSend p o s = { s with dict := { s.dict with txq := s.dict.txq ++ [(p, o)] } } := by
  rw [camipSend, if_neg (by rw [h]; decide)]

/-- A session with a SEQ left sends its next frame. -/
theorem sessionSend_of_left (slot : Nat) (notice : Bool) (svc trans status : Nat) (body : List Byte) {s : State}
    (h : (s.sess slot).txSeq ≤ max64) :
    sessionSend slot notice svc trans status body s =
      camipSend (s.num 0x1121 (slot + 1)) (.camip (s.num 0x1121 (slot + 1)) notice (securedFrame s slot svc trans status body))
        (s.setSess slot { s.sess slot with txSeq := (s.sess slot).txSeq + 1 }) := by
  unfold sessionSend
  exact if_neg (Nat.not_lt.2 h)

/-- Settles O30: each command by the state of its port, session or ring. -/
theorem identPlcaAndNotify : Obligations.IdentPlcaAndNotify := by
  refine ⟨fun s p hp => ⟨fun f hPlain hUp hMine hReads => ?_, fun hHeard => ?_, fun hOpen hOn => ?_⟩,
    fun s k hq hk hRuns => ⟨fun hFree => ?_, fun hUsed => ?_⟩, fun s k hq hk => ⟨fun hDue => ?_, ?_⟩⟩
  · intro t b
    refine forUnit_settled (by simp [Instr.wf, frameSlotOk, hPlain, hp]) ?_
    rw [serveCamip_free _ _ hUp hMine hReads hPlain rfl, clearRun]
    unfold answerPlain
    cases headClear f [].length <;> rfl
  · intro u hNode
    exact forUnit_settled (decide_eq_true hp) (plcaLost_of_heard hHeard hNode)
  · intro mine rest
    exact forUnit_settled (decide_eq_true hp) (plcaHeard_of_on hOpen hOn)
  · exact forUnit_done (decide_eq_true hk) (by rw [if_pos hRuns, closeSession_of_free 1 hFree]) hq
  · exact forUnit_settled (decide_eq_true hk) (by rw [if_pos hRuns, closeSession_of_used 1 hUsed])
  · exact forUnit_done (decide_eq_true hk) (by rw [if_neg (by rw [hDue]; decide)]) hq
  · intro slot p x body h o hDue hLeft hHeld
    refine forUnit_done (decide_eq_true hk) ?_ (by exact hq)
    rw [if_pos hDue, sendNotify, sessionSend_of_left _ _ _ _ _ _ hLeft, camipSend_held _ (by exact hHeld)]
    rfl

end Sys2Proof.Machine
end

section
/-!
PROOFS. Posts of software, where an event is written, the record in a ring, and its delivery (R462, R464 to R469).
-/

namespace Sys2Proof.Machine

/-! ### Posts of software -/

/-- With no event waiting, one that is posted is offered first. -/
theorem settle_posted {s : State} (e : Ev) (h : s.evq = []) :
    settle { s with evq := s.evq ++ [e] } = drainEvents 0x100000000 (offer e s) := by
  rw [h, List.nil_append]
  exact settle_one s e h

section
variable {h w : Nat} {s : State}

theorem postFromHart_good (hOpen : s.pwr.opened = true) (hGood : postGood w = true) :
    postFromHart h w s = { s with evq := s.evq ++ [postedEvent s h w] } := by
  rw [postFromHart, if_neg (by rw [hOpen]; decide), if_pos hGood]

theorem postFromHart_bad (hOpen : s.pwr.opened = true) (hBad : postGood w = false) : postFromHart h w s = count 0x58B2 1 1 s := by
  rw [postFromHart, if_neg (by rw [hOpen]; decide), if_neg (by rw [hBad]; decide)]

theorem postFromHart_closed (hClosed : s.pwr.opened = false) : postFromHart h w s = s := by
  rw [postFromHart, if_pos (by rw [hClosed]; rfl)]

end

/-! ### Where an event is written -/

theorem offer_none {s : State} {e : Ev} (h : takers s e = []) : offer e s = if ownRing s e = true then s else count 0x58B2 1 1 s := by
  simp only [offer, h]

theorem offer_some {s : State} {e : Ev} (h : takers s e ≠ []) :
    offer e s = (takers s e).foldl (fun u k => if ringFull u k then loseRecord k u else writeRecord k e u) s := by
  unfold offer
  split
  · exact absurd ‹_› h
  · rfl

theorem ownRing_iff (s : State) (e : Ev) :
    ownRing s e = true ↔ ∃ k, e.except = some k ∧ ringOn s k = true ∧ filterMatch s k e = true := by
  unfold ownRing
  cases e.except with
  | none => simp
  | some k => simp

theorem mem_takers (s : State) (e : Ev) (k : Nat) :
    k ∈ takers s e ↔ k < 64 ∧ ringOn s k = true ∧ filterMatch s k e = true ∧ e.except ≠ some k := by
  simp [takers, and_assoc]

/-- Settles O31: a post waits and is offered; an event goes to its takers. -/
theorem postsAreOffered : Obligations.PostsAreOffered := by
  refine ⟨fun s h w hq hh => ⟨fun hOpen hGood => ⟨?_, rfl, rfl⟩, fun hOpen hBad => ?_, fun hClosed => ?_⟩,
    fun s e => ⟨offer_none, ownRing_iff s e, offer_some, mem_takers s e⟩⟩
  · rw [← settle_posted _ hq]
    exact forUnit_settled (decide_eq_true hh) (postFromHart_good hOpen hGood)
  · exact forUnit_settled (decide_eq_true hh) (postFromHart_bad hOpen hBad)
  · exact forUnit_done (decide_eq_true hh) (postFromHart_closed hClosed) hq

/-! ### A record in a ring -/

section
variable {s : State} {k : Nat} {e : Ev}

theorem writeRecord_written
    (h1 : (tryWrite (ringBase s k + 32 * ringProd s k) (recordOf (s.num 0x500A (k + 1)) e) s).1 = true)
    (h2 : (tryWrite (ringShadow s k) (leBytes 8 ((ringProd s k + 1) % ringSlots s k) ++ leBytes 8 (s.num 0x500A (k + 1)))
      (tryWrite (ringBase s k + 32 * ringProd s k) (recordOf (s.num 0x500A (k + 1)) e) s).2).1 = true) :
    writeRecord k e s =
      (let next := (ringProd s k + 1) % ringSlots s k
       let r2 := tryWrite (ringShadow s k) (leBytes 8 next ++ leBytes 8 (s.num 0x500A (k + 1)))
        (tryWrite (ringBase s k + 32 * ringProd s k) (recordOf (s.num 0x500A (k + 1)) e) s).2
       let u := count 0x58B0 (k + 1) 1 (r2.2.setNum 0x5009 (k + 1) next)
       let u := u.setRing k { u.ring k with lastSeq := s.num 0x500A (k + 1) }
       takeSeq k (if ringProd s k = ringCons s k then edge k u else u)) := by
  unfold writeRecord
  dsimp only
  rw [if_pos h1, if_pos h2]
  simp only [beq_iff_eq]

theorem writeRecord_failed
    (h1 : (tryWrite (ringBase s k + 32 * ringProd s k) (recordOf (s.num 0x500A (k + 1)) e) s).1 = false) :
    writeRecord k e s = ringFailed k (s.num 0x500A (k + 1))
      (takeSeq k (tryWrite (ringBase s k + 32 * ringProd s k) (recordOf (s.num 0x500A (k + 1)) e) s).2) := by
  unfold writeRecord
  dsimp only
  rw [if_neg (by rw [h1]; decide)]

theorem writeRecord_shadow_failed
    (h1 : (tryWrite (ringBase s k + 32 * ringProd s k) (recordOf (s.num 0x500A (k + 1)) e) s).1 = true)
    (h2 : (tryWrite (ringShadow s k) (leBytes 8 ((ringProd s k + 1) % ringSlots s k) ++ leBytes 8 (s.num 0x500A (k + 1)))
      (tryWrite (ringBase s k + 32 * ringProd s k) (recordOf (s.num 0x500A (k + 1)) e) s).2).1 = false) :
    writeRecord k e s = ringFailed k (s.num 0x500A (k + 1))
      (takeSeq k (tryWrite (ringShadow s k) (leBytes 8 ((ringProd s k + 1) % ringSlots s k) ++ leBytes 8 (s.num 0x500A (k + 1)))
        (tryWrite (ringBase s k + 32 * ringProd s k) (recordOf (s.num 0x500A (k + 1)) e) s).2).2) := by
  unfold writeRecord
  dsimp only
  rw [if_pos h1, if_neg (by rw [h2]; decide)]

end

/-! ### Delivery -/

/-- The targets of a ring that can take its interrupt: IMSIC, MSI-X and NOTIFY. -/
def imsicTakes (s : State) (t : Nat) : Bool := bit t 63 && hartOn s (bits t 60 54)
def msixTakes (s : State) (t : Nat) : Bool := bit t 62 && msixReady s (bits t 40 40)
def notifyTakes (s : State) (t : Nat) : Bool :=
  bit t 61 && sessOpen s (bits t 39 36) && decide ((s.sess (bits t 39 36)).txSeq ≤ max64)

theorem deliver_idle {s : State} {k : Nat} (h : s.num 0x5000 1 ≠ 1 ∨ s.num 0x5008 (k + 1) ≠ 1) : deliver k s = s :=
  if_neg fun ⟨hOn, hPending⟩ => h.elim (· hOn) (· hPending)

section
variable {s : State} {k : Nat} (hOn : s.num 0x5000 1 = 1) (hPending : s.num 0x5008 (k + 1) = 1)
include hOn hPending

theorem deliver_untaken (hIm : imsicTakes s (s.num 0x5005 (k + 1)) = false) (hMs : msixTakes s (s.num 0x5005 (k + 1)) = false)
    (hNo : notifyTakes s (s.num 0x5005 (k + 1)) = false) : deliver k s = s := by
  rw [imsicTakes] at hIm
  rw [msixTakes] at hMs
  rw [notifyTakes] at hNo
  unfold deliver
  rw [if_pos ⟨hOn, hPending⟩]
  simp only [hIm, hMs, hNo, Bool.false_eq_true, if_false, Bool.or_self]

theorem deliver_taken (h : (imsicTakes s (s.num 0x5005 (k + 1)) || msixTakes s (s.num 0x5005 (k + 1))
      || notifyTakes s (s.num 0x5005 (k + 1))) = true) :
    deliver k s =
      (let t := s.num 0x5005 (k + 1)
       let u := if imsicTakes s t then sendImsic (bits t 60 54) (imsicFile (bits t 53 52) (bits t 51 49)) (bits t 48 41) s else s
       let u := if msixTakes s t then sendMsix (bits t 40 40) k u else u
       let u := if notifyTakes s t then sendNotify (bits t 39 36) k u else u
       u.setNum 0x5008 (k + 1) 2) := by
  unfold deliver
  rw [if_pos ⟨hOn, hPending⟩]
  exact if_pos h

end

/-- Settles O32: the two writes of a record, and the targets of a delivery, select what follows. -/
theorem recordsAndDelivery : Obligations.RecordsAndDelivery := by
  refine ⟨fun s k e => ?_, fun s k => ?_⟩
  · intro seq prod next r1 r2
    exact ⟨writeRecord_written, writeRecord_failed, writeRecord_shadow_failed⟩
  · intro t im ms no
    exact ⟨deliver_idle, fun hOn hPending => ⟨deliver_untaken hOn hPending, deliver_taken hOn hPending⟩⟩

end Sys2Proof.Machine
end

section
/-!
PROOFS. What consumers and the ring objects do to a tally ring (R463, R466 to R470, R473).
-/

namespace Sys2Proof.Machine

/-! ### CONS and DONE -/

/-- How far an index of ring k lies ahead of CONS. -/
def ringAhead (s : State) (k x : Nat) : Nat := (x + ringSlots s k - ringCons s k % ringSlots s k) % ringSlots s k

theorem applyCons_moves {k v : Nat} {s : State} (hv : v < ringSlots s k) (hPast : ringAhead s k v ≤ ringAhead s k (ringProd s k)) :
    applyCons k v s = (stOk, lostRecord k (s.setNum 0x5006 (k + 1) v)) :=
  if_neg fun h => h.elim (Nat.not_le.2 hv) (Nat.not_lt.2 hPast)

theorem applyCons_rejected {k v : Nat} {s : State} (h : ringSlots s k ≤ v ∨ ringAhead s k (ringProd s k) < ringAhead s k v) :
    applyCons k v s = (stValue, s) := if_pos h

theorem lostRecord_of_none {k : Nat} {s : State} (h : (s.ring k).lostSince = 0) : lostRecord k s = s := by
  unfold lostRecord
  exact if_neg fun hLost => by omega

theorem ringDone_active {k : Nat} {s : State} (h : s.num 0x5008 (k + 1) = 2) :
    ringDone k s = deliver k (s.setNum 0x5008 (k + 1) (if ringProd s k = ringCons s k then 0 else 1)) := by
  rw [ringDone]
  exact if_pos h

theorem ringDone_again {k : Nat} {s : State} (h : s.num 0x5008 (k + 1) = 3) :
    ringDone k s = deliver k (s.setNum 0x5008 (k + 1) 1) := by
  rw [ringDone]
  exact (if_neg (by omega)).trans (if_pos h)

theorem ringDone_idle {k : Nat} {s : State} (h : s.num 0x5008 (k + 1) < 2) : ringDone k s = s := by
  rw [ringDone]
  exact (if_neg (by omega)).trans (if_neg (by omega))

/-! ### The ring objects -/

/-- A ring that is placed, whose shadow line takes the write, and that has numbers left is enabled. -/
theorem applyRingEnable_on {k : Nat} {s : State} (hBase : ringBaseOk s (s.num 0x5002 (k + 1)) = true)
    (hShadow : ringShadowOk s (ringShadow s k) = true) (hLeft : s.num 0x500A (k + 1) ≠ 0)
    (hWrite : (tryWrite (ringShadow s k) (List.replicate 64 0) s).1 = true) :
    applyRingEnable k 1 s = (stOk,
      (((((tryWrite (ringShadow s k) (List.replicate 64 0) s).2.setNum 0x5009 (k + 1) 0).setNum 0x5006 (k + 1) 0).setNum 0x5008
        (k + 1) 0).setNum 0x5001 (k + 1) 1).setRing k Ring.init) := by
  rw [applyRingEnable, if_neg (by omega), if_neg (by simp [hBase, hShadow, hLeft])]
  exact if_pos hWrite

theorem applyRingEnable_refused {k : Nat} {s : State}
    (h : ringBaseOk s (s.num 0x5002 (k + 1)) = false ∨ s.num 0x500A (k + 1) = 0) : applyRingEnable k 1 s = (stValue, s) := by
  rw [applyRingEnable, if_neg (by omega)]
  refine if_pos ?_
  rcases h with h | h <;> simp [h]

/-- The global enable: what becomes TRUE tries every ring. -/
theorem applyObj_globalEnable (v : Nat) (l : List Byte) (s : State) : applyObj 0x5000 1 v l s =
    (stOk, if s.num 0x5000 1 = 0 then deliverAll (s.setNum 0x5000 1 v) else s.setNum 0x5000 1 v) := rfl

/-- Settles O33: CONS and DONE by the ring's indices and state, and each ring object's own effect. -/
theorem ringMoves : Obligations.RingMoves := by
  refine ⟨fun s k v hq hk => ?_, fun u k v l => ⟨rfl, ?_, fun h => ?_, fun h => ?_, fun h => ?_, rfl⟩⟩
  · intro n ahead
    have wf : decide (k < 64) = true := decide_eq_true hk
    refine ⟨fun hv hPast => ⟨?_, fun hNone => ?_⟩, fun h => ?_, fun h => ?_, fun h => ?_, fun h => ?_⟩
    · exact forUnit_settled wf (congrArg Prod.snd (applyCons_moves hv hPast))
    · exact forUnit_done wf ((congrArg Prod.snd (applyCons_moves hv hPast)).trans (lostRecord_of_none hNone)) hq
    · exact forUnit_done wf (congrArg Prod.snd (applyCons_rejected h)) hq
    · exact forUnit_settled wf (ringDone_active h)
    · exact forUnit_settled wf (ringDone_again h)
    · exact forUnit_done wf (ringDone_idle h) hq
  · intro r hBase hShadow hLeft hWrite
    exact applyRingEnable_on hBase hShadow hLeft hWrite
  · exact applyRingEnable_refused h
  · rw [applyObj_globalEnable, if_pos h]
    rfl
  · rw [applyObj_globalEnable, if_neg h]

end Sys2Proof.Machine
end

section
/-!
PROOFS. Stores to the control window, to the host window and through BAR0, by their address (R135, R194, R195, R289, R304, R346, R412,
R414, R415, R419, R430, R438, R447, R462, R473, R495, R509).
-/

namespace Sys2Proof.Machine

/-- Two commands whose units exist and that come to one state have one meaning. -/
theorem forUnit_eq {ok ok' : Bool} {f g : State} (hok : ok = true) (hok' : ok' = true) (h : f = g) : forUnit ok f = forUnit ok' g := by
  rw [hok, hok', h]

/-! ### Stores of a hart -/

section
variable {s : State} {g o w : Nat} (v : Nat) (hOn : s.pwr.on = true)
include hOn

theorem regStore_hart (a : Nat) : regStore (.hart g) a w v s = hartStore g a w v s := by
  rw [regStore, if_neg (by rw [hOn]; decide)]

/-- What the PMP forbids, and a hole of the control window, traps. -/
theorem regStore_trap (ho : o < 0x10000000000)
    (h : (s.hart g).pmpOk (0x30000000000 + o) w true = false ∨ ctrlAssigned o = false) :
    regStore (.hart g) (0x30000000000 + o) w v s = s.setHart g ((s.hart g).trap 7 (0x30000000000 + o)) := by
  rw [regStore_hart v hOn, hartStore]
  by_cases hPmp : (s.hart g).pmpOk (0x30000000000 + o) w true = true
  · have hHole : ctrlAssigned o = false := h.resolve_left (by rw [hPmp]; decide)
    rw [if_neg (by rw [hPmp]; decide), if_neg (by omega), Nat.add_sub_cancel_left, if_pos (by rw [hHole]; rfl)]
    rfl
  · rw [if_pos (by simpa using hPmp)]
    rfl

/-- An aligned store that the PMP lets pass reaches the register of its offset. -/
theorem regStore_ctrl (hPmp : (s.hart g).pmpOk (0x30000000000 + o) w true = true) (ho : o < 0x800000) (hAt : ctrlAssigned o = true)
    (hAlign : (0x30000000000 + o) % w = 0) : regStore (.hart g) (0x30000000000 + o) w v s = ctrlStore o w v s := by
  rw [regStore_hart v hOn, hartStore, if_neg (by rw [hPmp]; decide), if_neg (by omega), Nat.add_sub_cancel_left,
    if_neg (by rw [hAt]; decide), if_pos hAlign]

theorem regStore_host {a b : Nat} (hPlace : a < 0x30000000000 ∨ 0x40000000000 ≤ a) (hPmp : (s.hart g).pmpOk a w true = true)
    (hHost : hostOf s a = some b) : regStore (.hart g) a w v s = postEach true b (leBytes w v) s := by
  rw [regStore_hart v hOn, hartStore, if_neg (by rw [hPmp]; decide), if_pos hPlace, hHost]
  rfl

theorem regStore_hole {a : Nat} (hPlace : a < 0x30000000000 ∨ 0x40000000000 ≤ a) (hPmp : (s.hart g).pmpOk a w true = true)
    (hHost : hostOf s a = none) (hMem : memOk s (lineOf a) = false) :
    regStore (.hart g) a w v s = s.setHart g ((s.hart g).trap 7 a) := by
  rw [regStore_hart v hOn, hartStore, if_neg (by rw [hPmp]; decide), if_pos hPlace, hHost]
  exact if_neg (by rw [hMem]; decide)

end

/-! ### The control window -/

/-- A doorbell page takes no store but a 32-bit one. -/
theorem tdPage_other (n off v : Nat) {w : Nat} (s : State) (hw : w ≠ 4) : tdPage n off w v s = s := if_neg fun h => hw h.1

theorem ldPage_other (off v : Nat) {w : Nat} (s : State) (hw : w ≠ 4) : ldPage off w v s = s := if_pos (.inl hw)

theorem tdPage_doorbell (n v : Nat) {q : Nat} (s : State) (hq : q < 32) : tdPage n (8 * q) 4 v s = ringDq n q v s := by
  rw [tdPage, if_pos (by omega), Nat.mul_div_cancel_left q (by omega)]

theorem ctrlStore_td (w v : Nat) {o : Nat} (s : State) (ho : o < 0x8000) : ctrlStore o w v s = tdPage (o / 0x1000) (o % 0x1000) w v s :=
  if_pos ho

theorem ctrlStore_ld (w v : Nat) {o : Nat} (s : State) (ho : 0x10000 ≤ o ∧ o < 0x11000) : ctrlStore o w v s = ldPage (o % 0x1000) w v s := by
  rw [ctrlStore, if_neg (by omega), if_pos ho]

theorem ctrlStore_doorbell (v : Nat) {n q : Nat} (s : State) (hn : n < 8) (hq : q < 32) :
    ctrlStore (0x1000 * n + 8 * q) 4 v s = ringDq n q v s := by
  have hDie : (0x1000 * n + 8 * q) / 0x1000 = n := by omega
  have hOff : (0x1000 * n + 8 * q) % 0x1000 = 8 * q := by omega
  rw [ctrlStore_td 4 v s (by omega), hDie, hOff, tdPage_doorbell n v s hq]

section
variable (v : Nat) {j : Nat} (s : State) (hj : j < 16)
include hj

theorem ctrlStore_send : ctrlStore (0x10000 + 8 * j) 4 v s = ringSend j v s := by
  have hOff : (0x10000 + 8 * j) % 0x1000 = 8 * j := by omega
  rw [ctrlStore_ld 4 v s (by omega), hOff, ldPage, if_neg (by omega), if_pos (by omega), Nat.mul_div_cancel_left j (by omega)]

theorem ctrlStore_col : ctrlStore (0x10100 + 8 * j) 4 v s = ringCol j v s := by
  have hOff : (0x10100 + 8 * j) % 0x1000 = 0x100 + 8 * j := by omega
  rw [ctrlStore_ld 4 v s (by omega), hOff, ldPage, if_neg (by omega), if_neg (by omega), if_pos (by omega), Nat.add_sub_cancel_left,
    Nat.mul_div_cancel_left j (by omega)]

theorem ctrlStore_lu : ctrlStore (0x10200 + 8 * j) 4 v s = ringLu j v s := by
  have hOff : (0x10200 + 8 * j) % 0x1000 = 0x200 + 8 * j := by omega
  rw [ctrlStore_ld 4 v s (by omega), hOff, ldPage, if_neg (by omega), if_neg (by omega), if_neg (by omega), if_pos (by omega),
    Nat.add_sub_cancel_left, Nat.mul_div_cancel_left j (by omega)]

end

section
variable {v : Nat} {h : Nat} (s : State) (hh : h < 72)
include hh

theorem ctrlStore_imsic (hv : 1 ≤ v) (hv' : v ≤ 255) (hOn : s.on (domHdUncore (h / 36)) = true) :
    ctrlStore (0x100000 + 0x1000 * h) 4 v s = sendImsic h 0 v s := by
  have hHart : (0x100000 + 0x1000 * h - 0x100000) / 0x1000 = h := by omega
  have hOff : (0x100000 + 0x1000 * h) % 0x1000 = 0 := by omega
  have hId : v % 2 ^ 32 = v := Nat.mod_eq_of_lt (by omega)
  rw [ctrlStore, if_neg (by omega), if_neg (by omega), if_pos (by omega), hHart, hOff, imsicPage, if_pos rfl, hId]
  exact if_pos ⟨rfl, by omega, hv, hv', hOn⟩

theorem ctrlStore_timecmp : ctrlStore (0x500000 + 8 * h) 8 v s =
    s.setHart h { s.hart h with mtimecmp := v % 2 ^ 64, timerM := (s.hart h).timerM && decide (v % 2 ^ 64 ≤ s.tim.now) } := by
  have hHart : (0x500000 + 8 * h - 0x500000) / 8 = h := by omega
  rw [ctrlStore, if_neg (by omega), if_neg (by omega), if_neg (by omega), if_neg (by omega), if_pos (by omega), hHart]
  rfl

theorem ctrlStore_startPc : ctrlStore (0x510000 + 16 * h) 8 v s =
    if s.hartState h = 1 ∧ hartOn s h then startHart h (v % 2 ^ 64) (s.hart h).arg s else s := by
  have hHart : (0x510000 + 16 * h - 0x510000) / 16 = h := by omega
  have hOff : (0x510000 + 16 * h) % 16 = 0 := by omega
  rw [ctrlStore, if_neg (by omega), if_neg (by omega), if_neg (by omega), if_neg (by omega), if_neg (by omega), if_pos (by omega), hHart,
    hOff, if_pos rfl, putStartPc]
  simp only [true_and]

theorem ctrlStore_startArg : ctrlStore (0x510008 + 16 * h) 8 v s = s.setHart h { s.hart h with arg := v % 2 ^ 64 } := by
  have hHart : (0x510008 + 16 * h - 0x510000) / 16 = h := by omega
  have hOff : (0x510008 + 16 * h) % 16 = 8 := by omega
  rw [ctrlStore, if_neg (by omega), if_neg (by omega), if_neg (by omega), if_neg (by omega), if_neg (by omega), if_pos (by omega), hHart,
    hOff]
  rfl

theorem ctrlStore_post : ctrlStore (0x600008 + 32 * h) 8 v s = postFromHart h v s := by
  have hHart : (0x600008 + 32 * h - 0x600000) / 32 = h := by omega
  have hOff : (0x600008 + 32 * h) % 32 = 8 := by omega
  rw [ctrlStore, if_neg (by omega), if_neg (by omega), if_neg (by omega), if_neg (by omega), if_neg (by omega), if_neg (by omega),
    if_pos (by omega), hHart, hOff]
  rfl

end

section
variable (v : Nat) {k : Nat} (s : State) (hk : k < 64)
include hk

theorem ctrlStore_cons : ctrlStore (0x610000 + 16 * k) 4 v s = (applyCons k (v % 2 ^ 32) s).2 := by
  have hRing : (0x610000 + 16 * k - 0x610000) / 16 = k := by omega
  have hOff : (0x610000 + 16 * k) % 16 = 0 := by omega
  rw [ctrlStore, if_neg (by omega), if_neg (by omega), if_neg (by omega), if_neg (by omega), if_neg (by omega), if_neg (by omega),
    if_neg (by omega), if_pos (by omega), hRing, hOff]
  rfl

theorem ctrlStore_done : ctrlStore (0x610008 + 16 * k) 4 v s = ringDone k s := by
  have hRing : (0x610008 + 16 * k - 0x610000) / 16 = k := by omega
  have hOff : (0x610008 + 16 * k) % 16 = 8 := by omega
  rw [ctrlStore, if_neg (by omega), if_neg (by omega), if_neg (by omega), if_neg (by omega), if_neg (by omega), if_neg (by omega),
    if_neg (by omega), if_pos (by omega), hRing, hOff]
  rfl

end

theorem ctrlStore_chan (v : Nat) {c : Nat} (s : State) (hc : c < 4) : ctrlStore (0x700000 + 0x4000 * c) 8 v s = mailbox true c 0 v s := by
  have hChan : (0x700000 + 0x4000 * c - 0x700000) / 0x4000 = c := by omega
  have hOff : (0x700000 + 0x4000 * c) % 0x4000 = 0 := by omega
  rw [ctrlStore, if_neg (by omega), if_neg (by omega), if_neg (by omega), if_neg (by omega), if_neg (by omega), if_neg (by omega),
    if_neg (by omega), if_neg (by omega), if_pos (by omega), hChan, hOff]
  rfl

/-- A register's offset is assigned where it lies in one of the ranges of R194. -/
theorem ctrlAssigned_iff (o : Nat) : ctrlAssigned o = true ↔
    o < 0x8000 ∨ (0x10000 ≤ o ∧ o ≤ 0x10FFF) ∨ (0x100000 ≤ o ∧ o ≤ 0x147FFF) ∨ (0x200000 ≤ o ∧ o ≤ 0x43FFFF)
      ∨ (0x500000 ≤ o ∧ o ≤ 0x50023F) ∨ (0x507FF8 ≤ o ∧ o ≤ 0x507FFF) ∨ (0x510000 ≤ o ∧ o ≤ 0x51047F) ∨ (0x600000 ≤ o ∧ o ≤ 0x6008FF)
      ∨ (0x610000 ≤ o ∧ o ≤ 0x6103FF) ∨ (0x700000 ≤ o ∧ o ≤ 0x70FFFF) := by
  simp only [ctrlAssigned, within, Bool.or_eq_true, Bool.and_eq_true, decide_eq_true_eq, or_assoc]

/-! ### Posted writes -/

theorem postEach_detached {s : State} {b k w : Nat} {data : List Byte} (hPart : hostParts s b data.length = [(k, b, w)])
    (h : linkAttached s k = false) : postEach true b data s = count 0x58A1 (k + 1) 1 s := by
  simp only [postEach, hPart, List.foldl_cons, List.foldl_nil, h, Bool.false_eq_true, if_false, if_true]

theorem sliceOf_self (l : List Byte) : sliceOf l 0 l.length = l := by
  simp [sliceOf]

theorem postEach_attached {s : State} {b k : Nat} {data : List Byte} (hPart : hostParts s b data.length = [(k, b, data.length)])
    (h : linkAttached s k = true) : postEach true b data s =
      (s.setHlink k { s.hlink k with posted := (s.hlink k).posted ++ [(b, data, none)] }).emit (.pcieWrite k b data false) := by
  simp only [postEach, hPart, List.foldl_cons, List.foldl_nil, h, if_true, postPart, Nat.sub_self, sliceOf_self]

/-! ### BAR0 -/

section
variable {s : State} {k o w v : Nat} (hReach : barReach s k = true)
include hReach

/-- A store at an offset that is unassigned, or not served yet, is counted. -/
theorem barStore_refused (h : barAssigned o = false ∨ (packageReady s = false ∧ barEarly o = false)) :
    barStore k o w v s = inboundErr k s := by
  rw [barStore, if_neg (by rw [hReach]; decide)]
  refine if_pos ?_
  rcases h with h | ⟨h, h'⟩ <;> simp_all

/-- An aligned store at an offset that is served reaches its register. -/
theorem barStore_served (hAt : barAssigned o = true) (hReady : packageReady s = true ∨ barEarly o = true) (hAlign : o % w = 0) :
    barStore k o w v s = barRegs k o w v s := by
  rw [barStore, if_neg (by rw [hReach]; decide), if_neg (by rw [hAt]; rcases hReady with h | h <;> simp [h]),
    if_neg (by rw [hAlign]; simp)]

end

theorem regStore_bar {s : State} {k a : Nat} (w v : Nat) (hOn : s.pwr.on = true) (ha : a < 0x4000000) :
    regStore (.bar0 k) a w v s = barStore k a w v s := by
  rw [regStore, if_neg (by rw [hOn]; decide)]
  exact if_pos ha

theorem barRegs_doorbell (k v : Nat) {n q : Nat} (s : State) (hn : n < 8) (hq : q < 32) :
    barRegs k (0x1000 * n + 8 * q) 4 v s = ringDq n q v s := by
  have hDie : (0x1000 * n + 8 * q) / 0x1000 = n := by omega
  have hOff : (0x1000 * n + 8 * q) % 0x1000 = 8 * q := by omega
  rw [barRegs, if_pos (by omega), hDie, hOff, tdPage_doorbell n v s hq]

theorem barRegs_chan (k v : Nat) {c : Nat} (s : State) (hc : c < 4) : barRegs k (0x200000 + 0x4000 * c) 8 v s = mailbox false c k v s := by
  have hChan : (0x200000 + 0x4000 * c - 0x200000) / 0x4000 = c := by omega
  have hOff : (0x200000 + 0x4000 * c) % 0x4000 = 0 := by omega
  rw [barRegs, if_neg (by omega), if_neg (by omega), if_neg (by omega), if_neg (by omega), if_pos (by omega), hChan, hOff]
  rfl

theorem barEarly_of_chan {c : Nat} (hc : c < 4) : barEarly (0x200000 + 0x4000 * c) = true := by
  simp only [barEarly, within, Bool.or_eq_true, Bool.and_eq_true, decide_eq_true_eq]
  omega

theorem barAssigned_of_early {o : Nat} (h : barEarly o = true) : barAssigned o = true := by simp [barAssigned, h]

theorem barAssigned_of_doorbell {o : Nat} (h : o < 0x8000) : barAssigned o = true := by simp [barAssigned, h]

/-- Settles O34: the address selects the register, and what forbids the store its trap, its count or its loss. -/
theorem windowStores : Obligations.WindowStores := by
  refine ⟨fun s g v hOn hg => ?_, fun s k v hq hOn hk hReach => ⟨fun n q hReady hn hq' => ?_, fun c hc => ?_, fun o w hw ho hBad => ?_⟩⟩
  · intro at_
    have wf (a w : Nat) (hw : storeWidth w = true) : Instr.wf (.controlRegisterWrite (.hart g) a w v) = true := by
      simp [Instr.wf, hg, hw]
    have ctrl (o w : Nat) (hw : storeWidth w = true) (ho : o < 0x800000) (hAt : ctrlAssigned o = true)
        (hAlign : (0x30000000000 + o) % w = 0) (hPmp : (s.hart g).pmpOk (0x30000000000 + o) w true = true) :
        exec (at_ o w) s = .next (settle (ctrlStore o w v s)) :=
      forUnit_settled (wf _ w hw) (regStore_ctrl v hOn hPmp ho hAt hAlign)
    refine ⟨fun o w hw ho h => forUnit_settled (wf _ w hw) (regStore_trap v hOn ho h),
      fun a w hw hPlace hPmp => ⟨fun b hHost => ?_, fun hHost hMem => ?_⟩, ?_⟩
    · have posted := regStore_host v hOn hPlace hPmp hHost
      refine ⟨forUnit_settled (wf a w hw) posted, fun k hPart hLink => ?_, fun k hPart hLink => ?_⟩
      · exact forUnit_settled (wf a w hw) (posted.trans (postEach_detached hPart hLink))
      · have hPart' : hostParts s b (leBytes w v).length = [(k, b, (leBytes w v).length)] := by rw [hPart, leBytes_length]
        exact forUnit_settled (wf a w hw) (posted.trans (postEach_attached hPart' hLink))
    · exact forUnit_settled (wf a w hw) (regStore_hole v hOn hPlace hPmp hHost hMem)
    · intro ok
      refine ⟨fun n q hn hq hOk => ?_, fun o w hw ho hOk => ?_, fun j hj => ⟨fun hOk => ?_, fun hOk => ?_, fun hOk => ?_⟩,
        fun h hh => ⟨fun hv hv' hUncore hOk => ?_, fun hOk => ?_, fun hOk => ?_, fun hOk => ?_, fun hOk => ?_⟩,
        fun k hk => ⟨fun hOk => ?_, fun hOk => ?_⟩, fun c hc hOk => ?_⟩
      · rw [ctrl _ 4 rfl (by omega) ((ctrlAssigned_iff _).2 (by omega)) (by omega) hOk, ctrlStore_doorbell v s hn hq]
        exact (forUnit_settled (by simp [Instr.wf, hn, hq]) rfl).symm
      · have hw' : storeWidth w = true := by rw [storeWidth, decide_eq_true_eq]; omega
        refine forUnit_settled (wf _ w hw') ?_
        rw [regStore_hart v hOn, hartStore, if_neg (by rw [hOk]; decide), if_neg (by omega), Nat.add_sub_cancel_left,
          if_neg (by rw [(ctrlAssigned_iff o).2 (by omega)]; decide)]
        split
        · rcases ho with ho | ho
          · rw [ctrlStore_td w v s ho, tdPage_other _ _ v s (by omega)]
          · rw [ctrlStore_ld w v s ho, ldPage_other _ v s (by omega)]
        · rfl
      · rw [ctrl _ 4 rfl (by omega) ((ctrlAssigned_iff _).2 (by omega)) (by omega) hOk, ctrlStore_send v s hj]
        exact (forUnit_settled (by simp [Instr.wf, hj]) rfl).symm
      · rw [ctrl _ 4 rfl (by omega) ((ctrlAssigned_iff _).2 (by omega)) (by omega) hOk, ctrlStore_col v s hj]
        exact (forUnit_settled (by simp [Instr.wf, hj]) rfl).symm
      · rw [ctrl _ 4 rfl (by omega) ((ctrlAssigned_iff _).2 (by omega)) (by omega) hOk, ctrlStore_lu v s hj]
        exact (forUnit_settled (by simp [Instr.wf, hj]) rfl).symm
      · rw [ctrl _ 4 rfl (by omega) ((ctrlAssigned_iff _).2 (by omega)) (by omega) hOk, ctrlStore_imsic s hh hv hv' hUncore]
      · rw [ctrl _ 8 rfl (by omega) ((ctrlAssigned_iff _).2 (by omega)) (by omega) hOk, ctrlStore_timecmp s hh]
      · rw [ctrl _ 8 rfl (by omega) ((ctrlAssigned_iff _).2 (by omega)) (by omega) hOk, ctrlStore_startPc s hh]
        exact (forUnit_settled (by simp [Instr.wf, hh]) rfl).symm
      · rw [ctrl _ 8 rfl (by omega) ((ctrlAssigned_iff _).2 (by omega)) (by omega) hOk, ctrlStore_startArg s hh]
      · rw [ctrl _ 8 rfl (by omega) ((ctrlAssigned_iff _).2 (by omega)) (by omega) hOk, ctrlStore_post s hh]
        exact (forUnit_settled (by simp [Instr.wf, hh]) rfl).symm
      · rw [ctrl _ 4 rfl (by omega) ((ctrlAssigned_iff _).2 (by omega)) (by omega) hOk, ctrlStore_cons v s hk]
        exact (forUnit_settled (by simp [Instr.wf, hk]) rfl).symm
      · rw [ctrl _ 4 rfl (by omega) ((ctrlAssigned_iff _).2 (by omega)) (by omega) hOk, ctrlStore_done v s hk]
        exact (forUnit_settled (by simp [Instr.wf, hk]) rfl).symm
      · rw [ctrl _ 8 rfl (by omega) ((ctrlAssigned_iff _).2 (by omega)) (by omega) hOk, ctrlStore_chan v s hc]
        exact (forUnit_settled (by simp [Instr.wf, hc]) rfl).symm
  · refine forUnit_eq (by simp [Instr.wf, hk, storeWidth]) (by simp [Instr.wf, hn, hq']) ?_
    rw [regStore_bar 4 v hOn (by omega), barStore_served hReach (barAssigned_of_doorbell (by omega)) (.inl hReady) (by omega),
      barRegs_doorbell k v s hn hq']
  · refine forUnit_eq (by simp [Instr.wf, hk, storeWidth]) (by simp [Instr.wf, hc, hk]) ?_
    rw [regStore_bar 8 v hOn (by omega), barStore_served hReach (barAssigned_of_early (barEarly_of_chan hc)) (.inr (barEarly_of_chan hc))
      (by omega), barRegs_chan k v s hc]
  · exact forUnit_settled (by simp [Instr.wf, hk, hw]) ((regStore_bar w v hOn ho).trans (barStore_refused hReach hBad))

end Sys2Proof.Machine
end

section
/-!
PROOFS. Descriptor queues: doorbells, resets and slot releases, how descriptors are taken and checked, split notices and the start of
operations (R134, R135, R137, R138, R143, R144, R148, R150, R151, R152, R156, R472).
-/

namespace Sys2Proof.Machine

/-! ### Doorbells, resets and releases -/

section
variable {s : State} {n q v : Nat}

theorem ringDq_running (hRun : dqState s n q = 1) (hFits : sub32 (v % 2 ^ 32) (s.queue n q).cons ≤ dqSlots s n q) :
    ringDq n q v s = s.setQueue n q { s.queue n q with prod := v % 2 ^ 32 } := by
  rw [ringDq]
  exact (if_neg (not_not.2 hRun)).trans (if_neg (Nat.not_lt.2 hFits))

theorem ringDq_past (hRun : dqState s n q = 1) (hPast : dqSlots s n q < sub32 (v % 2 ^ 32) (s.queue n q).cons) :
    ringDq n q v s = stopQueueOr n q 1 0 s := by
  rw [ringDq]
  exact (if_neg (not_not.2 hRun)).trans (if_pos hPast)

theorem ringDq_stopped (h : dqState s n q ≠ 1) : ringDq n q v s = count 0x5907 (n + 1) 1 s := by
  rw [ringDq]
  exact if_pos h

end

/-- A queue under reset with nothing in flight is disabled and empty. -/
theorem endReset_idle {s : State} {n q : Nat} (hReset : (s.queue n q).resetting = true) (hOrder : (s.queue n q).order.all (·.2) = true)
    (hOps : ((s.die n).ops.all fun o => !(o.queue == q && o.partOf.isNone)) = true) :
    endReset n q s = ((putDqOr n q 0 s).setNum (0x3C28 + n) (q + 1) (dqCtrl (putDqOr n q 0 s) n q % 2 ^ 31)).setQueue n q DQ.init := by
  rw [endReset]
  exact if_pos ⟨hReset, hOrder, hOps⟩

/-- A releasing slot that no operation names is free, its pages back with its job. -/
theorem freeSlot_idle {s : State} {k : Nat} (hReleasing : bit (slotBind s k) 4 = true)
    (hIdle : (s.dies.any fun d => d.ops.any fun o => o.slotEn && o.slot == k) = false) :
    freeSlot k s =
      (let j := slotBind s k % 16
       let x := s.job j
       (s.setJob j { x with front := { x.front with pages := tset [] k [] x.front.pages } }).setNum 0x3C40 (k + 1) 0) := by
  rw [freeSlot]
  exact if_pos ⟨hReleasing, by rw [hIdle]; rfl⟩

/-- Settles O35: the doorbell by the queue's state, and a reset or a release that is over. -/
theorem doorbellsAndReset : Obligations.DoorbellsAndReset := by
  refine ⟨fun s n q v hq hn hq' => ?_, fun s hq => ⟨fun n q hn hq' hReset hOrder hOps => ?_, fun k hk hReleasing hIdle => ?_⟩⟩
  · intro p
    have wf : (decide (n < 8) && decide (q < 32)) = true := by simp [hn, hq']
    exact ⟨fun hRun hFits => forUnit_done wf (ringDq_running hRun hFits) hq,
      fun hRun hPast => forUnit_settled wf (ringDq_past hRun hPast), fun hStop => forUnit_settled wf (ringDq_stopped hStop)⟩
  · exact forUnit_settled (by simp [Instr.wf, hn, hq']) (endReset_idle hReset hOrder hOps)
  · exact forUnit_done (decide_eq_true hk) (freeSlot_idle hReleasing hIdle) hq

/-! ### Taking descriptors -/

section
variable {s : State} {n : Nat}

theorem takeTurn_full (h : 512 ≤ (s.die n).ops.length ∨ max64 < (s.die n).nextIsn) : takeTurn n s = s := by
  rw [takeTurn, if_pos (h.imp_right .inr)]

theorem takeTurn_none (hNext : nextQueue s n = none) : takeTurn n s = s := by
  rw [takeTurn]
  split
  · rfl
  · simp only [hNext]

variable (hRoom : (s.die n).ops.length < 512) (hTest : (s.die n).testing = false)
include hRoom hTest

/-- With structures in package memory alone, the queue whose turn it is reads and takes. -/
theorem takeTurn_reads {q : Nat} (hIsn : (s.die n).nextIsn ≤ max64) (hNext : nextQueue s n = some q) (hHost : takeHost s n q = []) :
    takeTurn n s = takeRead n q s := by
  have hOpen : ¬ (512 ≤ (s.die n).ops.length ∨ (s.die n).testing = true ∨ max64 < (s.die n).nextIsn) := by
    rw [hTest]
    simp
    omega
  rw [takeTurn, if_neg hOpen]
  simp only [hNext, hHost, ne_eq, not_true_eq_false, false_and, if_false]

end

theorem takeRead_takes {n q : Nat} {s u t : State} {l raw : List Byte} (hHead : queueRead n q (dqShadow s n q + 8) 4 s = (.ok l, u))
    (hRoom : cqRoom u n q (leNat l) = true)
    (hRaw : queueRead n q (dqBase u n q + 256 * ((u.queue n q).cons % dqSlots u n q)) 256 (sramRead n 3 q 0x7F u).2 = (.ok raw, t)) :
    takeRead n q s = takeOp n q raw t := by
  simp only [takeRead, hHead, if_pos hRoom, hRaw]

/-- An operation of one die, or one that is done at once, sends no notices. -/
theorem takeOp_alone {n q : Nat} {raw : List Byte} {s : State}
    (h : (admitOp s n q (newOp (s.die n).nextIsn q raw)).phase = .done
      ∨ ((admitOp s n q (newOp (s.die n).nextIsn q raw)).dies n).filter (· != n) = []) :
    takeOp n q raw s =
      (let o := admitOp s n q (newOp (s.die n).nextIsn q raw)
       let x := s.queue n q
       let u := s.setDie n { s.die n with nextIsn := (s.die n).nextIsn + 1, ops := (s.die n).ops ++ [o], round := [q] }
       let y : DQ := { x with cons := add32 x.cons 1, taken := add32 x.taken 1, order := x.order ++ [(o.isn, false)], asked := false }
       queuePut n q (dqShadow s n q) (leBytes 4 (add32 x.cons 1)) (noteSlot o.slot (u.setQueue n q y))) := by
  have hNone : (if (admitOp s n q (newOp (s.die n).nextIsn q raw)).phase = .done then []
      else ((admitOp s n q (newOp (s.die n).nextIsn q raw)).dies n).filter (· != n)) = [] := by
    split
    · rfl
    · exact h.resolve_left ‹_›
  unfold takeOp
  simp only [hNone, if_true, List.foldl_nil]
  rfl

/-! ### The checks of a descriptor -/

section
variable {s : State} {n q : Nat} {o : Op}

theorem admitOp_malformed {d : Nat} (h : firstBroken (opChecks n o) = some d) :
    admitOp s n q o = { o with phase := .done, status := 1, detail := d } := by
  simp only [admitOp, h]

variable (hForm : firstBroken (opChecks n o) = none)
include hForm

theorem admitOp_outside (h : outsideJob s n q o = true) : admitOp s n q o = { o with phase := .done, status := 2 } := by
  simp only [admitOp, hForm, h, if_true]

/-- An operation that passes its checks keeps its phase, status and number. -/
theorem admitOp_waits (h : outsideJob s n q o = false) :
    (admitOp s n q o).phase = o.phase ∧ (admitOp s n q o).status = o.status ∧ (admitOp s n q o).isn = o.isn := by
  simp only [admitOp, hForm, h, Bool.false_eq_true, if_false, forceStrict]
  split <;> exact ⟨rfl, rfl, rfl⟩

end

/-- Settles O36: the turn of a queue, the reads before a take, and the checks after it. -/
theorem descriptorsAreTaken : Obligations.DescriptorsAreTaken := by
  refine ⟨fun s n q hq hn hTest => ⟨fun hRoom hIsn hNext hHost => ⟨?_, fun l raw u t hHead hFits hRaw => ?_⟩, fun _ hNext => ?_,
      fun hFull => ?_, fun raw => ?_⟩,
    fun s n q o => ⟨fun d h => admitOp_malformed h, admitOp_outside, fun hForm hIn hWait => ?_⟩⟩
  · exact forUnit_settled (decide_eq_true hn) (takeTurn_reads hRoom hTest hIsn hNext hHost)
  · exact takeRead_takes hHead hFits hRaw
  · exact forUnit_done (decide_eq_true hn) (takeTurn_none hNext) hq
  · exact forUnit_done (decide_eq_true hn) (takeTurn_full hFull) hq
  · exact takeOp_alone
  · rw [← hWait]
    exact admitOp_waits hForm hIn

/-! ### Split notices and starts -/

section
variable {s : State} {root isn n : Nat} {o : Op}
  (hRoot : ((s.die root).ops.find? fun o => o.isn == isn && o.partOf.isNone) = some o)
include hRoot

theorem acceptPart_noticed (hNotice : (s.die n).notices.contains (root, isn) = true) (hRoom : (s.die n).ops.length < 512)
    (hTest : (s.die n).testing = false) (hIsn : (s.die n).nextIsn ≤ max64) :
    acceptPart root isn n s =
      (let d := s.die n
       let p : Op := { o with isn := d.nextIsn, partOf := some (root, isn) }
       s.setDie n { d with nextIsn := d.nextIsn + 1, notices := d.notices.filter (· != (root, isn)),
                           ops := d.ops ++ [{ p with sbWaited := tileHeld d p }] }) := by
  simp only [acceptPart, hRoot]
  exact if_pos ⟨hNotice, hRoom, by rw [hTest]; rfl, hIsn⟩

theorem acceptPart_unnoticed (hNotice : (s.die n).notices.contains (root, isn) = false) : acceptPart root isn n s = s := by
  simp only [acceptPart, hRoot]
  exact if_neg fun h => Bool.false_ne_true (hNotice ▸ h.1)

end

section
variable {s : State} {n isn : Nat} {o : Op} (hOp : findOp s n isn = some o) (hPhase : o.phase = .waiting) (hWait : o.waitAddr = 0)
include hOp hPhase hWait

theorem startOp_released (h : released s n o = true) : startOp n isn s =
    pruneWatch n (mapParts n isn (fun p => { p with phase := .started }) (putOp n { o with phase := .started } (countWaits n o s))) := by
  simp only [startOp, hOp, hPhase, ne_eq, not_true_eq_false, if_false, waitRead, hWait, if_true, h, Bool.and_self]

theorem startOp_held (h : released s n o = false) : startOp n isn s = s := by
  simp only [startOp, hOp, hPhase, ne_eq, not_true_eq_false, if_false, waitRead, hWait, if_true, h, Bool.and_false, Bool.false_eq_true,
    false_and]

end

/-- Settles O37: a part is taken in by its notice, and an operation starts when it is released. -/
theorem operationsStart : Obligations.OperationsStart := by
  refine ⟨fun s root isn n o hq hRoot hn hFind => ?_, fun s n isn o hq hn hOp hPhase hWait => ⟨fun h => ?_, fun h => ?_⟩⟩
  · intro d
    have wf : (decide (root < 8) && decide (n < 8)) = true := by simp [hRoot, hn]
    refine ⟨fun hNotice hRoom hTest hIsn => ?_, fun hNotice => forUnit_done wf (acceptPart_unnoticed hFind hNotice) hq⟩
    exact forUnit_done wf (acceptPart_noticed hFind hNotice hRoom hTest hIsn) hq
  · exact forUnit_settled (decide_eq_true hn) (startOp_released hOp hPhase hWait h)
  · exact forUnit_done (decide_eq_true hn) (startOp_held hOp hPhase hWait h) hq

end Sys2Proof.Machine
end

section
/-!
PROOFS. What a started operation leaves: products, drains, vector operations and the stash (R114, R126, R131, R140, R146, R147, R151,
R177 to R185).
-/

namespace Sys2Proof.Machine

/-! ### The frame of every operation -/

@[simp] theorem thenRes_ok {α β : Type} (a : α) (s : State) (f : α → State → Res β) : thenRes (.ok a, s) f = f a s := rfl

@[simp] theorem orSpoil_ok {α : Type} (j : Nat) (l : List (Nat × Nat)) (a : α) (s : State) : orSpoil j l (.ok a, s) = (.ok a, s) := rfl

theorem startedOp_some {s : State} {n isn code : Nat} {o : Op} (hOp : findOp s n isn = some o) (hPhase : o.phase = .started)
    (hCode : o.opcode = code) : startedOp s n isn code = some o := by
  simp only [startedOp, hOp]
  exact if_pos ⟨hPhase, hCode⟩

theorem startedOp_phase {s : State} {n isn code : Nat} {o : Op} (h : startedOp s n isn code = some o) : o.phase = .started := by
  unfold startedOp at h
  split at h
  · split at h
    · obtain rfl := Option.some.inj h
      exact (by assumption : _ ∧ _).1
    · cases h
  · cases h

/-- The operation of a die, with its job. -/
def opCtx (s : State) (n : Nat) (o : Op) : Ctx := { die := n, job := opJob s n o, op := o }

section
variable {s t : State} {n isn code : Nat} {o p : Op} {e : Bad} {work : Ctx → State → Res Op}
  (hOp : startedOp s n isn code = some o) (hAsked : (awayRanges s o).drop o.asked = []) (hOpen : readsOpen (opCtx s n o) s = false)
  (hFailed : remoteFailed (opCtx s n o) s = none)
include hOp hAsked hOpen hFailed

/-- With all its operands there, the operation does its work. -/
theorem runOp_works : runOp n isn code work s =
    match work (opCtx s n o) s with
    | (.ok p, t) => endOp n p t
    | (.error e, t) => failOp n o e t := by
  rw [opCtx] at hOpen hFailed
  simp only [runOp, hOp, hAsked, ne_eq, not_true_eq_false, if_false, hOpen, Bool.false_eq_true, hFailed]
  rfl

theorem runOp_ok (hWork : work (opCtx s n o) s = (.ok p, t)) : runOp n isn code work s = endOp n p t := by
  rw [runOp_works hOp hAsked hOpen hFailed, hWork]

/-- A started operation that fails leaves spoilt results, but keeps D where its data is poisoned. -/
theorem runOp_error (hWork : work (opCtx s n o) s = (.error e, t)) : runOp n isn code work s =
    endOp n { o with status := e.status, errorAddr := e.addr, detail := e.detail }
      (if e.status = 3 then spoilTiles (opCtx t n o) t else spoilOp (opCtx t n o) t) := by
  rw [runOp_works hOp hAsked hOpen hFailed, hWork]
  dsimp only
  rw [failOp, if_neg (by rw [startedOp_phase hOp]; decide)]
  rfl

end

/-! ### Products, drains and tile images -/

section
variable {x : Ctx} {s u : State}

theorem enginesOn_ok (h : offEngine s x.die x.op = none) : enginesOn x s = (.ok (), s) := by
  simp only [enginesOn, h]

theorem productTile_ok {l : List (List Nat)} (hOn : offEngine s x.die x.op = none)
    (hLeaves : mapRes (leafTile x) (List.range (2 ^ (x.op.splitEng + x.op.splitDie))) s = (.ok l, u)) :
    productTile x s = (.ok ((combineTree (List.zipWith qaAdd) (x.op.splitEng + x.op.splitDie) l).headD []), u) := by
  simp only [productTile, enginesOn_ok hOn, thenRes_ok, hLeaves]

/-- The rows of D that a drain of a tile writes. -/
def drainOut (x : Ctx) (tile : List Nat) : List (Nat × RowOut) :=
  ((List.range 64).filter fun p => decide (x.op.dm0 + p < x.op.d.rows)).map fun p => (p, drainRow x tile p)

theorem drainTile_ok {tile : List Nat} {w : List (Nat × Nat)} {v : State}
    (hStore : storeAll x x.op.d ((drainOut x tile).flatMap fun r =>
      rowStores x (calmMerges x.op u) x.op.d (x.op.dm0 + r.1) x.op.dn0 r.2) (calmMerges x.op u) = (.ok w, v)) :
    drainTile x tile u = (.ok (withOut x.op ((drainOut x tile).map (·.2)) w), v) := by
  rw [drainOut] at hStore
  simp only [drainTile, hStore, thenRes_ok, drainOut]

/-- The tile of leaf 0 of a product that is not split. -/
theorem leafTile_unsplit {s0 s1 s2 s3 : State} {t : List Nat} {ra rb : List (Option (List Elem))} (hEng : x.op.splitEng = 0)
    (hStaging : useStaging x.die x.op.engine s = (.ok (), s0))
    (hRoot : (if x.op.acc then useTile x.die (tileKey x.op.engine x.op.tile) s0 else (.ok (List.replicate 4096 0), s0)) = (.ok t, s1))
    (hA : leafRows x x.die x.op.a x.op.m0 (leafRange x.op 0).1 (leafRange x.op 0).2 s1 = (.ok ra, s2))
    (hB : leafRows x x.die x.op.b x.op.n0 (leafRange x.op 0).1 (leafRange x.op 0).2 s2 = (.ok rb, s3)) :
    leafTile x 0 s = (.ok (t.mapIdx fun i c =>
      tileEntry x.op.a.fmt x.op.b.fmt c (leafRange x.op 0).2 (ra.getD (i / 64) none) (rb.getD (i % 64) none)), s3) := by
  have hPlace : leafPlace x 0 = (x.die, x.op.engine) := by simp [leafPlace, hEng]
  simp only [leafTile, hPlace, hStaging, thenRes_ok, true_and, hRoot, hA, hB]

/-- A product of one leaf is the tile of that leaf. -/
theorem productTile_unsplit {l : List Nat} (hEng : x.op.splitEng = 0) (hDie : x.op.splitDie = 0) (hOn : enginesOn x s = (.ok (), s))
    (hLeaf : leafTile x 0 s = (.ok l, u)) : productTile x s = (.ok l, u) := by
  have hOne : mapRes (leafTile x) (List.range (2 ^ (0 + 0))) s = (.ok [l], u) := by
    rw [show List.range (2 ^ (0 + 0)) = [0] from rfl]
    simp only [mapRes, hLeaf]
  simp only [productTile, hOn, hEng, hDie, thenRes_ok, hOne]
  rfl

/-! ### Vector operations -/

theorem vectorWork_ok {row : Ctx → Nat → State → Res (List VR)} {rows : List (List VR)} {v z : State} {w : Op}
    (hUnit : vectorUnit x s = (.ok (), u)) (hRows : mapRes (row x) (List.range x.op.a.rows) u = (.ok rows, v))
    (hStore : storeRows x rows v = (.ok w, z)) : vectorWork row x s = (.ok w, z) := by
  simp only [vectorWork, hUnit, thenRes_ok, hRows, hStore]

theorem mapWork_arith (h : ¬ (x.op.vfunc = 0 ∧ x.op.a.fmt ≠ codeB32)) : mapWork x s = vectorWork mapRow x s := if_neg h

/-- The rows of D that a Convert writes. -/
def convertOut (x : Ctx) (rows : List (List Elem)) : List RowOut :=
  rows.mapIdx fun r e => convRow x.op.cv x.op.d x.op.a.fmt false r 0 (e.map fun e => (e.code, e.scale))

theorem mapWork_convert {rows : List (List Elem)} {v z : State} {w : List (Nat × Nat)} (hFunc : x.op.vfunc = 0)
    (hFmt : x.op.a.fmt ≠ codeB32) (hUnit : vectorUnit x s = (.ok (), u))
    (hRows : mapRes (fun r s => readElems x x.die x.op.a r 0 x.op.a.cols s) (List.range x.op.a.rows) u = (.ok rows, v))
    (hStore : storeAll x x.op.d ((convertOut x rows).mapIdx fun r y => rowStores x v x.op.d r 0 y).flatten v = (.ok w, z)) :
    mapWork x s = (.ok (withOut x.op (convertOut x rows) w), z) := by
  rw [convertOut] at hStore
  rw [mapWork, if_pos ⟨hFunc, hFmt⟩]
  simp only [convertWork, hUnit, thenRes_ok, hRows, hStore, convertOut]

/-! ### The stash -/

section
variable {raw : List Byte} {r : Region} {chain : Nat} {t : State} (hUnit : vectorUnit x s = (.ok (), u))
  (hCtx : stashCtx x u = (.ok (raw, r, chain), t)) (hSlot : bit r.slotMask x.op.slot = true)
include hUnit hCtx hSlot

theorem beginWork_ok {h : List Byte} {v z : State} (hRead : stashRead x chain 64 t = (.ok h, v)) (hFree : (chainOf h).active = false)
    (hRegion : regionBroken v x.die x.job r = none) (hParts : partsAllowed x r v = (.ok (), v))
    (hWrite : stashWrite x [(chain, (newChain (x.op.w 4) r.layers).bytes ++ (List.replicate r.layers emptyRec).flatten)] v = (.ok (), z)) :
    beginWork x s = (.ok x.op, addChain x.die x.job x.op.slot chain z) := by
  simp only [beginWork, hUnit, thenRes_ok, hCtx, hRead, hFree, Bool.false_eq_true, if_false, hRegion, hParts, slotIn, hSlot, if_true,
    hWrite]

/-- A put whose layer, source and checkpoint space are in order writes its entry. -/
theorem putWork_ok {hl tbl rl : List Byte} {v a b : State} (hRead : stashRead x chain 64 t = (.ok hl, v))
    (hActive : (chainOf hl).active = true) (hLayer : x.op.layer < r.layers)
    (hNext : (chainOf hl).lastPut = 0xFFFF ∨ (chainOf hl).lastPut < x.op.layer) (hSource : sourceBroken x.op.a r = none)
    (hTable : stashRead x r.ckptTable (x.op.layer / 8 + 1) v = (.ok tbl, a))
    (hRec : stashRead x (chain + 64 + 64 * x.op.layer) 64 a = (.ok rl, b)) {run : Option Nat}
    (hRun : (if (chainOf hl).overflow then none else freeRun (entryBytes (entryRef r 0 x.op.a.cols x.op.a.rows 0 0))
      (r.poolBase + r.poolBytes) r.poolBase (jobRuns b x.die x.job)) = run)
    (hSafe : run.isSome = true ∨ (List.range (x.op.layer + 1)).any (ckptBit tbl) = true)
    (hRoom : ckptBit tbl x.op.layer = true → (chainOf hl).ckptUsed + (ckptGeom x.op.a).2.2 ≤ r.ckptShare) :
    putWork x s = putEntry x r chain (chainOf hl) (lrecOf rl) (ckptBit tbl x.op.layer) run b := by
  have hOrder : ¬ (r.layers ≤ x.op.layer ∨ ((chainOf hl).lastPut ≠ 0xFFFF ∧ x.op.layer ≤ (chainOf hl).lastPut)) := by omega
  have hSafe' : ¬ (run.isNone = true ∧ (!(List.range (x.op.layer + 1)).any (ckptBit tbl)) = true) := by
    rintro ⟨hNone, hNo⟩
    rcases hSafe with h | h
    · rw [Option.isNone_iff_eq_none.1 hNone] at h
      cases h
    · rw [h] at hNo
      cases hNo
  have hRoom' : ¬ (ckptBit tbl x.op.layer = true ∧ r.ckptShare < (chainOf hl).ckptUsed + (ckptGeom x.op.a).2.2) := by
    rintro ⟨hBit, hFull⟩
    have := hRoom hBit
    omega
  simp only [putWork, hUnit, thenRes_ok, hCtx, slotIn, hSlot, if_true, hRead, hActive, Bool.not_true, Bool.false_eq_true, if_false,
    if_neg hOrder, hSource, hTable, hRec, hRun]
  rw [if_neg hSafe', if_neg hRoom']

/-- What stands when a put back into the stash finds its layer's record. -/
theorem regrowWork_found {hl rl : List Byte} {v b : State} (hRead : stashRead x chain 64 t = (.ok hl, v)) (hLayer : x.op.layer < r.layers)
    (hRec : stashRead x (chain + 64 + 64 * x.op.layer) 64 v = (.ok rl, b))
    (hDone : (lrecOf rl).state = recStashed ∨ (lrecOf rl).state = recRegrown) : regrowWork x s = (.ok x.op, b) := by
  simp only [regrowWork, hUnit, thenRes_ok, hCtx, slotIn, hSlot, if_true, hRead, if_neg (Nat.not_le.2 hLayer), hRec, if_pos hDone]

/-- The rounding of a put back, from the record of the put. -/
def recCv (rc : LRec) : Cv :=
  { rnd := rc.rnd, seed := rc.seed, stream := rc.stream, given := if rc.dxEn then some rc.dx else none }

/-- The marked layer's entry goes to the regrow space. -/
theorem regrowWork_marked {hl rl : List Byte} {v b y z : State} {rows : List (List Elem)} (hRead : stashRead x chain 64 t = (.ok hl, v))
    (hLayer : x.op.layer < r.layers) (hRec : stashRead x (chain + 64 + 64 * x.op.layer) 64 v = (.ok rl, b))
    (hMarked : (lrecOf rl).state = recMarked) (hSame : sourceDiffers x.op.a (lrecOf rl) = none) {at_ : Nat}
    (hAt : r.regrowBase + shareIx r x.op.slot * r.regrowShare + (chainOf hl).regrowUsed = at_) {e : TRef}
    (hEntry : entryRef r at_ (lrecOf rl).rows (lrecOf rl).cols (lrecOf rl).rowOff (lrecOf rl).colOff = e)
    (hRoom : (chainOf hl).regrowUsed + entryBytes e ≤ r.regrowShare) (hRows : readAll x b = (.ok rows, y))
    (hWrite : stashWrite x (entryStores x y e (entryRows (recCv (lrecOf rl)) e x.op.a.fmt rows)
        ++ [(chain + 64 + 64 * x.op.layer, { lrecOf rl with entry := at_, state := recRegrown }.bytes),
          (chain, { chainOf hl with regrowUsed := (chainOf hl).regrowUsed + (lrecOf rl).bytes_,
                                    regrown := (chainOf hl).regrown + (lrecOf rl).bytes_ }.bytes)]) y = (.ok (), z)) :
    regrowWork x s = (.ok (withOut x.op (entryRows (recCv (lrecOf rl)) e x.op.a.fmt rows) []),
      count 0x590A (x.die + 1) (lrecOf rl).bytes_ z) := by
  have hOther : ¬ ((lrecOf rl).state = recStashed ∨ (lrecOf rl).state = recRegrown) := by
    rw [hMarked]
    decide
  have hMarked' : ¬ (lrecOf rl).state ≠ recMarked := not_not.2 hMarked
  rw [recCv] at hWrite
  simp only [regrowWork, hUnit, thenRes_ok, hCtx, slotIn, hSlot, if_true, hRead, if_neg (Nat.not_le.2 hLayer), hRec, if_neg hOther,
    if_neg hMarked', hSame, hAt, hEntry, if_neg (Nat.not_lt.2 hRoom), hRows, hWrite, orSpoil_ok, recCv]

theorem freeWork_ok {b : List Byte} {v z : State} (hLayer : x.op.layer = 0xFFFFFFFF ∨ x.op.layer < r.layers)
    (hRead : stashRead x chain (64 + 64 * r.layers) t = (.ok b, v)) {f : List Byte × List Nat}
    (hFree : freeChain (x.op.layer == 0xFFFFFFFF) (fun i => x.op.layer == 0xFFFFFFFF || i == x.op.layer) (chainOf b)
      ((List.range r.layers).map fun i => lrecOf (sliceOf b (64 + 64 * i) 64)) = f)
    (hWrite : stashWrite x [(chain, f.1)] v = (.ok (), z)) :
    freeWork x s = (.ok x.op,
      (let y := freeRuns x.die x.job f.2 z
       if x.op.layer == 0xFFFFFFFF then y.setDie x.die { y.die x.die with
         chains := (y.die x.die).chains.filter fun e => !(e.1 == x.job && e.2.1 == x.op.slot) } else y)) := by
  have hLayer' : ¬ ((!(x.op.layer == 0xFFFFFFFF)) = true ∧ r.layers ≤ x.op.layer) := by
    rintro ⟨hOne, hPast⟩
    rcases hLayer with h | h
    · simp [h] at hOne
    · omega
  simp only [freeWork, hUnit, thenRes_ok, hCtx, slotIn, hSlot, if_true, if_neg hLayer', hRead, hFree, hWrite]

end

/-! ### What a put writes -/

section
variable {r : Region} {chain : Nat} {h : Chain} {rc : LRec} {ck : Bool} {z : State} {rows : List (List Elem)}

/-- Where the checkpoint record of a put goes, for a layer with its bit. -/
def ckptPlace (x : Ctx) (r : Region) (h : Chain) (ck : Bool) : Option Nat :=
  if ck then some (r.ckptBase + shareIx r x.op.slot * r.ckptShare + h.ckptUsed) else none

/-- The exact copy of A that a layer with a checkpoint bit gets. -/
def ckptCopy (x : Ctx) (r : Region) (h : Chain) (ck : Bool) (rows : List (List Elem)) : List (Nat × List Byte) :=
  match ckptPlace x r h ck with
  | some a => ckptStores x.op.a a rows
  | none => []

/-- The header of the chain after a put, but for its totals. -/
def putChain (x : Ctx) (h : Chain) (ck : Bool) : Chain :=
  { h with lastPut := x.op.layer, ckptUsed := h.ckptUsed + (if ck then (ckptGeom x.op.a).2.2 else 0) }

/-- The entry of a put at an address of the pool. -/
def putRef (x : Ctx) (r : Region) (a : Nat) : TRef := entryRef r a x.op.a.cols x.op.a.rows x.op.a.colOff x.op.a.rowOff

variable (hRows : readAll x s = (.ok rows, u))
include hRows

theorem putEntry_stashed {a : Nat}
    (hWrite : stashWrite x (ckptCopy x r h ck rows ++ entryStores x u (putRef x r a) (entryRows x.op.cv (putRef x r a) x.op.a.fmt rows)
      ++ [(chain + 64 + 64 * x.op.layer,
            { putRec x.op rc (putRef x r a) (ckptPlace x r h ck) with entry := a, state := recStashed }.bytes),
          (chain, { putChain x h ck with stashed := (putChain x h ck).stashed + entryBytes (putRef x r a) }.bytes)]) u = (.ok (), z)) :
    putEntry x r chain h rc ck (some a) s = (.ok (withOut x.op (entryRows x.op.cv (putRef x r a) x.op.a.fmt rows) []),
      count 0x5908 (x.die + 1) (entryBytes (putRef x r a))
        (allocRun x.die { job := x.job, addr := a, bytes := entryBytes (putRef x r a) } z)) := by
  unfold putEntry
  dsimp only
  rw [hRows, thenRes_ok]
  exact (congrArg (orSpoil _ _) (congrArg (thenRes · _) hWrite)).trans (orSpoil_ok _ _ _ _)

theorem putEntry_marked
    (hWrite : stashWrite x (ckptCopy x r h ck rows
      ++ [(chain + 64 + 64 * x.op.layer, { putRec x.op rc (putRef x r 0) (ckptPlace x r h ck) with state := recMarked }.bytes),
          (chain, { putChain x h ck with
            marked := (putChain x h ck).marked + entryBytes (putRef x r 0), overflow := true,
            firstMarked := if h.overflow then (putChain x h ck).firstMarked else x.op.layer }.bytes)]) u = (.ok (), z)) :
    putEntry x r chain h rc ck none s = (.ok x.op,
      (let y := count 0x5909 (x.die + 1) (entryBytes (putRef x r 0)) z
       if h.overflow then y else
        post 0x3C01 (src 1 x.die) x.job [(1, x.die), (1, x.job), (1, x.op.slot), (8, h.step), (2, x.op.layer)]
          (count 0x590B (x.die + 1) 1 y))) := by
  unfold putEntry
  dsimp only
  rw [hRows, thenRes_ok]
  refine (congrArg (orSpoil _ _) (congrArg (thenRes · _) (Eq.trans ?_ hWrite))).trans ?_
  · cases h.overflow <;> rfl
  · cases h.overflow <;> rfl

end

end

/-- Settles O38: each opcode's work on operands that are there, then the end of the operation. -/
theorem operationsRun : Obligations.OperationsRun := by
  refine ⟨fun s n isn code o c work hn hc hOp hAsked => ?_, fun s n isn o hn hOp hPhase hAsked => ?_,
    fun x r chain h rc ck s u z rows hRows => ?_, fun x s s0 s1 s2 s3 t ra rb hEng hDie hOn hStaging hRoot hA hB => ?_⟩
  · intro x hOpen hFailed
    have wf : decide (n < 8) = true := decide_eq_true hn
    have runs : exec c s = .next (settle (runOp n isn code work s)) := by
      rcases hc with ⟨rfl, rfl, rfl⟩ | ⟨rfl, rfl, rfl⟩ | ⟨rfl, rfl, rfl⟩ | ⟨rfl, rfl, rfl⟩ | ⟨rfl, rfl, rfl⟩ | ⟨rfl, rfl, rfl⟩
        | ⟨rfl, rfl, rfl⟩ | ⟨rfl, rfl, rfl⟩ | ⟨rfl, rfl, rfl⟩ | ⟨rfl, rfl, rfl⟩ | ⟨rfl, rfl, rfl⟩
      all_goals exact forUnit_settled wf rfl
    refine ⟨fun p t hWork => ?_, fun e t hWork => ?_⟩
    · rw [runs, runOp_ok hOp hAsked hOpen hFailed hWork]
    · rw [runs, runOp_error hOp hAsked hOpen hFailed hWork]
      rfl
  · intro x hOpen hFailed ends leaves out stores
    have wf : decide (n < 8) = true := decide_eq_true hn
    have done {code : Nat} {work : Ctx → State → Res Op} {p : Op} {t : State} (hCode : o.opcode = code)
        (hWork : work x s = (.ok p, t)) : runOp n isn code work s = endOp n p t :=
      runOp_ok (startedOp_some hOp hPhase hCode) hAsked hOpen hFailed hWork
    refine ⟨fun hCode => ?_, fun hOn l u hLeaves => ?_, fun hCode hOn tile u w v hTile hStore => ?_, fun hCode hOn rows u hRows => ?_,
      fun u hUnit => ⟨fun rows v w z hCode hFunc hRows hStore => ?_, fun rows v w z hCode hFunc hFmt hRows => ?_,
        fun rows v w z hCode hRows hStore => ?_, fun raw r chain t hCtx hSlot => ⟨fun h v z hCode hRead hFree hRegion hParts hWrite => ?_,
          fun hl v hRead hLayer => ?_, fun b v z hCode hLayer hRead => ?_⟩⟩⟩
    · exact forUnit_settled wf (done hCode rfl)
    · intro tile
      have hTile : productTile x s = (.ok tile, u) := productTile_ok hOn hLeaves
      refine ⟨fun hCode => forUnit_settled wf (done hCode ?_), fun hCode w v hStore => forUnit_settled wf (done hCode ?_)⟩
      · simp only [hTile, thenRes_ok]
        rfl
      · simp only [hTile, thenRes_ok, drainTile_ok hStore]
        rfl
    · refine forUnit_settled wf (done hCode ?_)
      have hOn' : enginesOn x s = (.ok (), s) := enginesOn_ok hOn
      have hTile' : useTile n (tileKey x.op.engine x.op.tile) s = (.ok tile, u) := hTile
      simp only [hOn', hTile', thenRes_ok, drainTile_ok hStore]
      rfl
    · refine forUnit_settled wf (done hCode ?_)
      have hOn' : enginesOn x s = (.ok (), s) := enginesOn_ok hOn
      have hRows' : leafRows x n x.op.a 0 0 (min 64 x.op.a.cols) s = (.ok rows, u) := hRows
      simp only [hOn', hRows', thenRes_ok]
      rfl
    · exact forUnit_settled wf (done hCode ((mapWork_arith hFunc).trans (vectorWork_ok hUnit hRows hStore)))
    · intro c hStore
      exact forUnit_settled wf (done hCode (mapWork_convert hFunc hFmt hUnit hRows hStore))
    · exact forUnit_settled wf (done hCode (vectorWork_ok hUnit hRows hStore))
    · exact forUnit_settled wf (done hCode (beginWork_ok hUnit hCtx hSlot hRead hFree hRegion hParts hWrite))
    · intro h
      refine ⟨fun tbl a rl b hCode hActive hNext hSource hTable hRec => ?_, fun rl b hCode hRec => ?_⟩
      · intro run ck hSafe hRoom p z hPut
        exact forUnit_settled wf (done hCode ((putWork_ok hUnit hCtx hSlot hRead hActive hLayer hNext hSource hTable hRec rfl hSafe
          hRoom).trans hPut))
      · intro rc
        refine ⟨fun hDone => ?_, ?_⟩
        · exact forUnit_settled wf (done hCode (regrowWork_found hUnit hCtx hSlot hRead hLayer hRec hDone))
        · intro a e hMarked hSame hRoom rows y z hRows c hWrite
          exact forUnit_settled wf (done hCode (regrowWork_marked hUnit hCtx hSlot hRead hLayer hRec hMarked hSame rfl rfl hRoom hRows
            hWrite))
    · intro all f hWrite y
      exact forUnit_settled wf (done hCode (freeWork_ok hUnit hCtx hSlot hLayer hRead rfl hWrite))
  · intro o l k ca copy g
    refine ⟨fun a => ?_, ?_⟩
    · intro t eb out hWrite
      exact putEntry_stashed hRows hWrite
    · intro t eb hWrite y
      exact putEntry_marked hRows hWrite
  · exact productTile_unsplit hEng hDie hOn (leafTile_unsplit hEng hStaging hRoot hA hB)

end Sys2Proof.Machine
end

section
/-!
PROOFS. Operations complete and retire in order (R139, R149, R151, R286, R441); packed rows and exact conversions (R31, R36, R49, R53, R54,
R61 to R64).
-/

namespace Sys2Proof.Machine

/-! ### Completion -/

section
variable {s : State} {n isn : Nat} {o : Op} (hOp : findOp s n isn = some o)
include hOp

theorem finishOp_open (h : o.phase ≠ .done) : finishOp n isn s = s := by
  simp only [finishOp, hOp]
  exact if_pos h

/-- An operation that waits for nothing elsewhere and wrote no host memory completes. -/
theorem finishOp_completes (hPhase : o.phase = .done)
    (hRemote : (s.fab.remotes.any fun r => r.owner == (opCtx s n o).owner && r.answer.isNone) = false)
    (hFailed : remoteFailed (opCtx s n o) s = none) (hHost : o.hostWrote = []) (hAsked : askedHost s (.flush n isn) = false) :
    finishOp n isn s = completeOp n o s := by
  rw [opCtx] at hRemote hFailed
  simp only [finishOp, hOp, hPhase, ne_eq, not_true_eq_false, if_false, hRemote, hFailed, Bool.false_eq_true]
  simp [hHost, hAsked]

end

/-- The count of retired operations goes past the completed ones at the head and no further. -/
theorem retire_completed (rest : List (Nat × Bool)) (h : rest.head?.map (·.2) ≠ some true) :
    ∀ (done : List Nat) (k : Nat), retire (done.map (fun i => (i, true)) ++ rest) k = (rest, k + done.length)
  | [], k => by
    cases rest with
    | nil => rfl
    | cons e rest =>
      obtain ⟨i, b⟩ := e
      cases b with
      | false => rfl
      | true => exact absurd rfl h
  | i :: done, k => by
    rw [List.map_cons, List.cons_append, retire, retire_completed rest h done (k + 1), List.length_cons, Nat.add_right_comm, Nat.add_assoc]

/-- Settles O39: completion by what the operation waits for, and the count by induction on the completed operations. -/
theorem operationsRetire : Obligations.OperationsRetire := by
  refine ⟨fun s n isn o hq hn hOp => ?_, fun done rest k hRest => retire_completed rest hRest done k⟩
  intro x
  refine ⟨fun hPhase hRemote hFailed hHost hAsked => ?_, fun hPhase => ?_⟩
  · exact forUnit_settled (decide_eq_true hn) (finishOp_completes hOp hPhase hRemote hFailed hHost hAsked)
  · exact forUnit_done (decide_eq_true hn) (finishOp_open hOp hPhase) hq

/-! ### Packed rows -/

theorem leNat_take : ∀ (l : List Byte) (n : Nat), leNat (l.take n) = leNat l % 256 ^ n
  | [], n => by simp [leNat]
  | b :: l, 0 => by simp [leNat, Nat.mod_one]
  | b :: l, n + 1 => by
    have hb : b.toNat < 256 := b.isLt
    rw [List.take_succ_cons, leNat, leNat, leNat_take l n, Nat.pow_succ', Nat.mod_mul, Nat.add_mul_mod_self_left, Nat.mod_eq_of_lt hb,
      Nat.add_mul_div_left _ _ (by omega), Nat.div_eq_of_lt hb, Nat.zero_add]

theorem leNat_drop : ∀ (l : List Byte) (n : Nat), leNat (l.drop n) = leNat l / 256 ^ n
  | [], n => by simp [leNat]
  | b :: l, 0 => by simp
  | b :: l, n + 1 => by
    have hb : b.toNat < 256 := b.isLt
    rw [List.drop_succ_cons, leNat, leNat_drop l n, Nat.pow_succ', ← Nat.div_div_eq_div_mul, Nat.add_mul_div_left _ _ (by omega),
      Nat.div_eq_of_lt hb, Nat.zero_add]

/-- A field of bytes is the bits of the whole that it covers. -/
theorem fieldOf_eq (l : List Byte) (off n : Nat) : fieldOf l off n = leNat l / 256 ^ off % 256 ^ n := by
  rw [fieldOf, leNat_take, leNat_drop]

/-- The number that codes of w bits make, the first lowest. -/
def packNum (w : Nat) (codes : List Nat) : Nat := (codes.mapIdx fun i c => c % 2 ^ w * 2 ^ (i * w)).sum

theorem packNum_cons (w c : Nat) (codes : List Nat) : packNum w (c :: codes) = c % 2 ^ w + 2 ^ w * packNum w codes := by
  have shift : (codes.mapIdx fun i c => c % 2 ^ w * 2 ^ ((i + 1) * w))
      = (codes.mapIdx fun i c => c % 2 ^ w * 2 ^ (i * w)).map fun x => 2 ^ w * x := by
    rw [List.mapIdx_eq_zipIdx_map, List.mapIdx_eq_zipIdx_map, List.map_map]
    refine congrArg (List.map · codes.zipIdx) ?_
    funext e
    simp only [Function.comp_apply, Nat.succ_mul, Nat.pow_add]
    ring
  rw [packNum, List.mapIdx_cons, List.sum_cons, shift, List.sum_map_mul_left, List.map_id', Nat.zero_mul, Nat.pow_zero, Nat.mul_one]
  rfl

theorem packNum_lt (w : Nat) : ∀ codes : List Nat, packNum w codes < 2 ^ (w * codes.length)
  | [] => by simp [packNum]
  | c :: codes => by
    have hLow : c % 2 ^ w < 2 ^ w := Nat.mod_lt _ (Nat.two_pow_pos w)
    have hHigh := packNum_lt w codes
    rw [packNum_cons, List.length_cons, Nat.mul_succ, Nat.add_comm (w * codes.length), Nat.pow_add]
    calc c % 2 ^ w + 2 ^ w * packNum w codes < 2 ^ w + 2 ^ w * packNum w codes := Nat.add_lt_add_right hLow _
      _ = 2 ^ w * (packNum w codes + 1) := by ring
      _ ≤ 2 ^ w * 2 ^ (w * codes.length) := Nat.mul_le_mul_left _ hHigh

/-- Bits k w to k w + w - 1 of the packed number are code k. -/
theorem packNum_digit (w : Nat) : ∀ (codes : List Nat) (k : Nat) (h : k < codes.length),
    packNum w codes / 2 ^ (k * w) % 2 ^ w = codes[k] % 2 ^ w
  | c :: codes, 0, _ => by simp [packNum_cons, Nat.add_mul_mod_self_left]
  | c :: codes, k + 1, h => by
    have hLow : c % 2 ^ w / 2 ^ w = 0 := Nat.div_eq_of_lt (Nat.mod_lt _ (Nat.two_pow_pos w))
    rw [packNum_cons, Nat.succ_mul, Nat.add_comm (k * w), Nat.pow_add, ← Nat.div_div_eq_div_mul,
      Nat.add_mul_div_left _ _ (Nat.two_pow_pos w), hLow, Nat.zero_add, packNum_digit w codes k (by simpa using h)]
    rfl

/-- A row takes whole groups, which hold all its elements. -/
theorem rowBytes_holds {fmt : Nat} (n : Nat) (hFmt : fmt ≤ 8) (hTransit : fmt ≠ codeQR16) : widthOf fmt * n ≤ 8 * rowBytes fmt n := by
  have hTransit' : fmt ≠ 7 := hTransit
  obtain rfl | rfl | rfl | rfl | rfl | rfl | rfl | rfl : fmt = 0 ∨ fmt = 1 ∨ fmt = 2 ∨ fmt = 3 ∨ fmt = 4 ∨ fmt = 5 ∨ fmt = 6 ∨ fmt = 8 := by
    omega
  all_goals
    simp only [rowBytes, widthOf, groupOf, ceilDiv]
    omega

theorem leNat_packRow {fmt : Nat} (codes : List Nat) (hFmt : fmt ≤ 8) (hTransit : fmt ≠ codeQR16) :
    leNat (packRow fmt codes) = packNum (widthOf fmt) codes := by
  rw [packRow, leNat_leBytes]
  refine Nat.mod_eq_of_lt (Nat.lt_of_lt_of_le (packNum_lt _ codes) ?_)
  rw [show (256 : Nat) = 2 ^ 8 from rfl, ← Nat.pow_mul]
  exact Nat.pow_le_pow_right (by omega) (rowBytes_holds _ hFmt hTransit)

/-- Bits read from the byte in which they start are the bits of the whole. -/
theorem bits_from_byte (v a w : Nat) :
    v / 256 ^ (a / 8) % 256 ^ ((a % 8 + w + 7) / 8) / 2 ^ (a % 8) % 2 ^ w = v / 2 ^ a % 2 ^ w := by
  rw [show (256 : Nat) = 2 ^ 8 from rfl, ← Nat.pow_mul, ← Nat.pow_mul]
  refine Nat.eq_of_testBit_eq fun i => ?_
  simp only [Nat.testBit_mod_two_pow, Nat.testBit_div_two_pow]
  by_cases hi : i < w
  · have hIn : a % 8 + i < 8 * ((a % 8 + w + 7) / 8) := by omega
    have hAt : 8 * (a / 8) + (a % 8 + i) = a + i := by omega
    simp only [hi, decide_true, Bool.true_and, Nat.add_comm i, hIn]
    rw [Nat.add_comm (a % 8 + i), hAt]
  · simp [hi]

/-- Element k of a packed row is code k. -/
theorem elemAt_packRow {fmt : Nat} {codes : List Nat} (hFmt : fmt ≤ 8) (hTransit : fmt ≠ codeQR16)
    (hCodes : ∀ c ∈ codes, c < 2 ^ widthOf fmt) {k : Nat} (hk : k < codes.length) : elemAt fmt (packRow fmt codes) k = codes[k] := by
  rw [elemAt, if_neg (show fmt ≠ 7 from hTransit)]
  dsimp only
  rw [fieldOf_eq, leNat_packRow codes hFmt hTransit, bits_from_byte, packNum_digit _ codes k hk, Nat.mod_eq_of_lt (hCodes _ (List.getElem_mem hk))]

/-! ### Exact conversions -/

/-- Rounding a value to the place of its own last bit changes nothing. -/
theorem roundAt_exact (r : Rnd) (m : Nat) (e : Int) : roundAt r m e e = m := by
  simp [roundAt]

/-- A magnitude that is not 0 rounded by R61 to R64. -/
theorem encodeF_fin (f : Fmt) (r : Rnd) (neg : Bool) {m : Nat} (e : Int) (hm : m ≠ 0) :
    encodeF f r (.fin neg m e) =
      (let s := b2n neg * 2 ^ (f.eb + f.fb)
       let lo : Int := 1 - (f.bias : Int)
       let ex : Int := (m.log2 : Int) + e
       let ex := if f.full then max ex lo else ex
       let q := roundAt r m e (ex - f.fb)
       let ex := if q = 2 ^ (f.fb + 1) then ex + 1 else ex
       let q := if q = 2 ^ (f.fb + 1) then 2 ^ f.fb else q
       if f.full then
         if q < 2 ^ f.fb then ⟨s + q, false, false⟩
         else if (f.top : Int) ≤ ex + f.bias then ⟨infOf f neg, false, false⟩
         else ⟨s + (ex + f.bias).toNat * 2 ^ f.fb + (q - 2 ^ f.fb), false, false⟩
       else if ex < lo then ⟨0, false, false⟩
       else if (f.top : Int) < ex + f.bias then ⟨maxCode f neg, true, false⟩
       else ⟨s + (ex + f.bias).toNat * 2 ^ f.fb + (q - 2 ^ f.fb), false, false⟩) := by
  obtain ⟨k, rfl⟩ := Nat.exists_eq_succ_of_ne_zero hm
  rfl

section
variable (f : Fmt) (neg : Bool) {m : Nat}

/-- A value with its leading bit at 2^fb, whose exponent field is in range, is its own code. -/
theorem encodeF_normal {x : Nat} (hm : m < 2 ^ f.fb) (hx : 1 ≤ x) (hTop : x < f.top ∨ (f.full = false ∧ x ≤ f.top)) :
    encodeF f .rne (.fin neg (m + 2 ^ f.fb) ((x : Int) - f.bias - f.fb)) =
      ⟨b2n neg * 2 ^ (f.eb + f.fb) + x * 2 ^ f.fb + m, false, false⟩ := by
  have hDouble : 2 ^ (f.fb + 1) = 2 ^ f.fb + 2 ^ f.fb := by rw [Nat.pow_succ]; omega
  have hLog : (m + 2 ^ f.fb).log2 = f.fb := by
    rw [Nat.log2_eq_iff (by have := Nat.two_pow_pos f.fb; omega)]
    omega
  have hEx : ((f.fb : Int) + ((x : Int) - f.bias - f.fb)) = (x : Int) - f.bias := by omega
  have hMax : (if f.full then max ((x : Int) - f.bias) (1 - (f.bias : Int)) else (x : Int) - f.bias) = (x : Int) - f.bias := by
    split <;> omega
  rw [encodeF_fin _ _ _ _ (by have := Nat.two_pow_pos f.fb; omega)]
  dsimp only
  have hNoCarry : m + 2 ^ f.fb ≠ 2 ^ (f.fb + 1) := by omega
  have hNormal : ¬ m + 2 ^ f.fb < 2 ^ f.fb := by omega
  have hBack : (x : Int) - f.bias + f.bias = x := by omega
  rw [hLog, hEx, hMax, roundAt_exact]
  simp only [if_neg hNoCarry, if_neg hNormal, hBack, Int.toNat_natCast, Nat.add_sub_cancel]
  split
  · rw [if_neg (by simp_all)]
  · rw [if_neg (by omega), if_neg (by omega)]

/-- A subnormal value is its own code. -/
theorem encodeF_subnormal (hFull : f.full = true) (hm : m < 2 ^ f.fb) :
    encodeF f .rne (.fin neg m (1 - (f.bias : Int) - f.fb)) = ⟨b2n neg * 2 ^ (f.eb + f.fb) + m, false, false⟩ := by
  by_cases hZero : m = 0
  · subst hZero
    simp [encodeF, hFull]
  · have hLog : m.log2 < f.fb := (Nat.log2_lt hZero).2 hm
    have hMax : max ((m.log2 : Int) + (1 - (f.bias : Int) - f.fb)) (1 - (f.bias : Int)) = 1 - (f.bias : Int) := by omega
    have hNoCarry : m ≠ 2 ^ (f.fb + 1) := by rw [Nat.pow_succ]; omega
    rw [encodeF_fin _ _ _ _ hZero]
    simp only [hFull, if_true, hMax, roundAt_exact, if_neg hNoCarry, if_pos hm]

end

/-- A code is its sign, exponent and fraction fields. -/
theorem code_fields (eb fb c : Nat) (hc : c < 2 ^ (1 + eb + fb)) :
    c = b2n (bit c (eb + fb)) * 2 ^ (eb + fb) + c / 2 ^ fb % 2 ^ eb * 2 ^ fb + c % 2 ^ fb := by
  have hSign : b2n (bit c (eb + fb)) = c / 2 ^ (eb + fb) := by
    have hTwo : c / 2 ^ (eb + fb) < 2 := by
      rw [Nat.div_lt_iff_lt_mul (Nat.two_pow_pos _), ← Nat.pow_succ', show (eb + fb).succ = 1 + eb + fb by omega]
      exact hc
    rw [bit, Nat.testBit_eq_decide_div_mod_eq, b2n]
    generalize c / 2 ^ (eb + fb) = q at hTwo
    obtain rfl | rfl : q = 0 ∨ q = 1 := by omega
    · rfl
    · rfl
  have hHigh : c / 2 ^ fb / 2 ^ eb = c / 2 ^ (eb + fb) := by rw [Nat.div_div_eq_div_mul, ← Nat.pow_add, Nat.add_comm fb]
  rw [hSign, ← hHigh, Nat.pow_add, ← Nat.mul_assoc, ← Nat.add_mul, Nat.mul_comm _ (2 ^ eb), Nat.div_add_mod, Nat.mul_comm,
    Nat.div_add_mod]

/-- A finite value that a format holds rounds to its own code. -/
theorem encodeF_decodeF {f : Fmt} {c : Nat} {a : Bool} {m : Nat} {e : Int} (hc : c < 2 ^ (1 + f.eb + f.fb))
    (hExp : f.full = true ∨ c / 2 ^ f.fb % 2 ^ f.eb ≠ 0) (hFin : decodeF f c = .fin a m e) :
    encodeF f .rne (decodeF f c) = { code := c, sat := false, nonfin := false } := by
  have hFrac : c % 2 ^ f.fb < 2 ^ f.fb := Nat.mod_lt _ (Nat.two_pow_pos _)
  have hField : c / 2 ^ f.fb % 2 ^ f.eb ≤ f.top := Nat.le_sub_one_of_lt (Nat.mod_lt _ (Nat.two_pow_pos _))
  have hCode := code_fields f.eb f.fb c hc
  by_cases hZero : c / 2 ^ f.fb % 2 ^ f.eb = 0
  · have hFull : f.full = true := hExp.resolve_right (not_not.2 hZero)
    have hNotTop : ¬ 0 = f.top := by
      intro h
      simp only [decodeF, hFull, if_true, hZero, if_pos h] at hFin
      split at hFin <;> cases hFin
    have hValue : decodeF f c = .fin (bit c (f.eb + f.fb)) (c % 2 ^ f.fb) (1 - (f.bias : Int) - f.fb) := by
      simp only [decodeF, hFull, if_true, hZero, if_neg hNotTop]
    rw [hValue, encodeF_subnormal f _ hFull hFrac]
    rw [hZero, Nat.zero_mul, Nat.add_zero] at hCode
    rw [← hCode]
  · have hNotTop : f.full = true → c / 2 ^ f.fb % 2 ^ f.eb ≠ f.top := by
      intro hFull h
      simp only [decodeF, hFull, if_true, if_pos h] at hFin
      split at hFin <;> cases hFin
    have hValue : decodeF f c = .fin (bit c (f.eb + f.fb)) (c % 2 ^ f.fb + 2 ^ f.fb)
        (((c / 2 ^ f.fb % 2 ^ f.eb : Nat) : Int) - f.bias - f.fb) := by
      unfold decodeF
      cases hFull : f.full with
      | true => simp only [if_true, if_neg (hNotTop hFull), if_neg hZero]
      | false => simp only [Bool.false_eq_true, if_false, if_neg hZero]
    have hTop : c / 2 ^ f.fb % 2 ^ f.eb < f.top ∨ (f.full = false ∧ c / 2 ^ f.fb % 2 ^ f.eb ≤ f.top) := by
      cases hFull : f.full with
      | true => exact .inl (lt_of_le_of_ne hField (hNotTop hFull))
      | false => exact .inr ⟨rfl, hField⟩
    rw [hValue, encodeF_normal f _ hFrac (by omega) hTop, ← hCode]

/-- Settles O40: a packed row by its digits, and a value by its sign, exponent and fraction. -/
theorem formatsAreExact : Obligations.FormatsAreExact :=
  ⟨fun _ _ hFmt hTransit hCodes => ⟨leBytes_length _ _, fun _ hk => elemAt_packRow hFmt hTransit hCodes hk⟩,
    fun _ _ _ _ _ _ hc hExp hFin => encodeF_decodeF hc hExp hFin⟩

end Sys2Proof.Machine
end

section
/-!
PROOFS. Requests reach the home of their line (R107, R195, R225, R229 to R231, R237, R250).
-/

namespace Sys2Proof.Machine

/-! ### Requests at the home -/

theorem touch_of_none {s : State} {line : Nat} (h : biasLinks s line = []) : touch line s = s := by
  rw [touch]
  exact if_pos h

section
variable {s : State} {line n : Nat} (r : Req) (hMem : memOk s line = true) (hHome : homeOf s line = some n)
include hMem hHome

/-- A request with an accessible line, by the state of its home and of the line. -/
theorem request_eq : request line r s =
    (let u := touch line s
     if u.homeState n = 0 then directAccess line r u
     else if admits u line r = true ∧ (tget [] line u.coh.waiting).isEmpty = true then advance line (admitReq line r u)
     else { u with coh := { u.coh with waiting := tset [] line (tget [] line u.coh.waiting ++ [r]) u.coh.waiting } }) := by
  simp only [request, hMem, hHome, Bool.not_true, Bool.false_eq_true, if_false]

theorem request_direct (h : (touch line s).homeState n = 0) : request line r s = directAccess line r (touch line s) := by
  rw [request_eq r hMem hHome]
  exact if_pos h

theorem request_waits (hOn : (touch line s).homeState n ≠ 0)
    (h : admits (touch line s) line r = false ∨ tget [] line (touch line s).coh.waiting ≠ []) :
    request line r s = { touch line s with coh := { (touch line s).coh with
      waiting := tset [] line (tget [] line (touch line s).coh.waiting ++ [r]) (touch line s).coh.waiting } } := by
  have hBusy : ¬ (admits (touch line s) line r = true ∧ (tget [] line (touch line s).coh.waiting).isEmpty = true) := by
    rintro ⟨hAdmits, hEmpty⟩
    rcases h with h | h
    · exact Bool.false_ne_true (h ▸ hAdmits)
    · exact h (List.isEmpty_iff.1 hEmpty)
  rw [request_eq r hMem hHome]
  exact (if_neg hOn).trans (if_neg hBusy)

theorem request_admitted (hOn : (touch line s).homeState n ≠ 0) (hAdmits : admits (touch line s) line r = true)
    (hNone : tget [] line (touch line s).coh.waiting = []) : request line r s = advance line (admitReq line r (touch line s)) := by
  rw [request_eq r hMem hHome]
  exact (if_neg hOn).trans (if_pos ⟨hAdmits, List.isEmpty_iff.2 hNone⟩)

end

/-! ### Requests of caching agents -/

section
variable {s : State} {a : Agent} {c line : Nat} (hIx : cacheIx a = some c)
include hIx

/-- A cache that can make no way for a line asks for none. -/
theorem readRequest_no_room (kind : ReqKind) (st : CacheSt) (h : cacheRoom s c line = false) : readRequest a line kind st s = s := by
  simp only [readRequest, hIx, h]
  exact if_pos (.inr (.inr rfl))

/-- A stream cache asks for no line to write, nor for one of its own die's Canopy. -/
theorem readRequest_stream {kind : ReqKind} (st : CacheSt) (hStream : 2 ≤ c) (h : kind ≠ .rdShare ∨ ownCanopy s c line = true) :
    readRequest a line kind st s = s := by
  simp only [readRequest, hIx]
  exact if_pos (.inr (.inl ⟨hStream, h⟩))

variable (hLost : s.coh.lost.contains c = false)
include hLost

/-- A caching agent that misses at a home that is not OFF makes a way and takes its transient state. -/
theorem readRequest_miss {n : Nat} {kind : ReqKind} (st : CacheSt) (hMem : memOk s line = true) (hHome : homeOf s line = some n)
    (hOn : s.homeState n ≠ 0) (hMay : c < 2 ∨ (kind = .rdShare ∧ ownCanopy s c line = false)) (hKind : kind ≠ .promote)
    (hRoom : cacheRoom s c line = true) (hNone : cacheLine s c line = none) :
    readRequest a line kind st s = request line { kind := kind, agent := a, data := [] }
      (setCacheLine c line (some { st := st, data := [], poisoned := false }) (makeWay c line s)) := by
  have hOpen : ¬ (s.coh.lost.contains c = true ∨ (2 ≤ c ∧ (kind ≠ .rdShare ∨ ownCanopy s c line = true)) ∨ (!cacheRoom s c line) = true) := by
    rw [hLost, hRoom]
    rintro (h | ⟨hStream, h⟩ | h)
    · cases h
    · rcases hMay with h' | ⟨hShare, hOwn⟩
      · omega
      · rcases h with h | h
        · exact h hShare
        · rw [hOwn] at h
          cases h
    · cases h
  have hOff : (s.homeState n == 0) = false := beq_eq_false_iff_ne.2 hOn
  unfold readRequest
  simp only [hIx, if_neg hOpen, hMem, hHome, hOff, hNone, Bool.not_true, Bool.false_eq_true, if_false]

/-- A write of a line that the agent shares is a Promote. -/
theorem readRequest_promote {x : CLine} (st : CacheSt) (hCore : c < 2) (hMem : memOk s line = true) (hLine : cacheLine s c line = some x)
    (hShared : x.st = .s) : readRequest a line .promote st s =
      request line { kind := .promote, agent := a, data := [] } (setCacheLine c line (some { x with st := st }) s) := by
  have hRoom : cacheRoom s c line = true := by simp [cacheRoom, hLine]
  have hOpen : ¬ (s.coh.lost.contains c = true ∨ (2 ≤ c ∧ (ReqKind.promote ≠ .rdShare ∨ ownCanopy s c line = true))
      ∨ (!cacheRoom s c line) = true) := by
    rw [hLost, hRoom]
    rintro (h | ⟨hStream, -⟩ | h)
    · cases h
    · omega
    · cases h
  unfold readRequest
  simp only [hIx, if_neg hOpen, hMem, hLine, hShared, Bool.not_true, Bool.false_eq_true, if_false, if_true]

end

/-- Settles O41: what a caching agent does first, and the request by the home's state and the line's. -/
theorem requestsReachTheHome : Obligations.RequestsReachTheHome := by
  intro s a line n hAgent hLine hMem hHome
  have wf : (agentOk a && lineOk line) = true := by simp [hAgent, hLine]
  refine ⟨fun c hIx hLost => ⟨fun hOn hNone hRoom => ?_, fun hStream hOwn hq => ?_, fun hq hFull => ⟨?_, ?_⟩, fun hStream hq => ⟨?_, ?_⟩,
      fun x hCore hSome hShared => ?_⟩,
    forUnit_settled wf rfl, forUnit_settled wf rfl, fun data hData => ⟨?_, fun mask hMask => ?_, fun up => ?_⟩,
    fun hart addr w op x hHart hw hAlign hAt => ?_, touch_of_none, fun r => ?_⟩
  · intro enter
    refine ⟨fun hMay => forUnit_settled wf ?_, fun hCore => forUnit_settled wf ?_⟩
    · exact readRequest_miss hIx hLost .isW hMem hHome hOn (hMay.imp_right (⟨rfl, ·⟩)) (by decide) hRoom hNone
    · exact readRequest_miss hIx hLost .iuW hMem hHome hOn (.inl hCore) (by decide) hRoom hNone
  · exact forUnit_done wf (readRequest_stream hIx .isW hStream (.inr hOwn)) hq
  · exact forUnit_done wf (readRequest_no_room hIx .rdShare .isW hFull) hq
  · exact forUnit_done wf (readRequest_no_room hIx .rdUnique .iuW hFull) hq
  · exact forUnit_done wf (readRequest_stream hIx .iuW hStream (.inl (by decide))) hq
  · exact forUnit_done wf (readRequest_stream hIx .sdW hStream (.inl (by decide))) hq
  · exact forUnit_settled wf (readRequest_promote hIx hLost .sdW hCore hMem hSome hShared)
  · exact forUnit_settled (by simp [Instr.wf, hAgent, hLine, hData]) rfl
  · exact forUnit_settled (by simpa [Instr.wf, hAgent, hLine, hData] using hMask) rfl
  · exact forUnit_settled (by simp [Instr.wf, hAgent, hLine, hData]) rfl
  · refine forUnit_settled (by simp [Instr.wf, hAgent, hHart, hw]) ?_
    rw [if_pos hAlign, hAt]
    rfl
  · intro u
    exact ⟨request_direct r hMem hHome, request_waits r hMem hHome, request_admitted r hMem hHome⟩

end Sys2Proof.Machine
end

section
/-!
PROOFS. What an idle line grants to a reader, a writer and an atomic (R225, R226, R229 to R231, R236, R242, R244, R253, R258, R261).
-/

namespace Sys2Proof.Machine

/-! ### Tables, canonical or not -/

theorem tput_tput {α : Type} (k : Nat) (v w : α) (t : Tab α) : tput k v (tput k w t) = tput k v t := by
  induction t with
  | nil => simp [tput]
  | cons e r ih =>
    obtain ⟨k', x⟩ := e
    rcases lt_trichotomy k k' with h | h | h
    · simp [tput, h]
    · simp [tput, h]
    · simp [tput, h.not_gt, h.ne', ih]

theorem tfind_tdel_same {α : Type} (k : Nat) (t : Tab α) : tfind k (tdel k t) = none := by
  induction t with
  | nil => rfl
  | cons e r ih =>
    obtain ⟨k', x⟩ := e
    rw [tdel] at ih
    by_cases h : k' = k
    · simp [tdel, h, ih]
    · simp [tdel, h, tfind, ih, Ne.symm h]

theorem tfind_tdel_of_lt {α : Type} {k j : Nat} (t : Tab α) (h : k < j) : tfind j (tdel k t) = tfind j t := by
  induction t with
  | nil => rfl
  | cons e r ih =>
    obtain ⟨k', x⟩ := e
    rw [tdel] at ih
    by_cases hSame : k' = k
    · simp [tdel, hSame, tfind, h.ne', h.not_gt, ih]
    · simp [tdel, hSame, tfind, ih]

/-- Deleting a key that is not found leaves another one unfound. -/
theorem tfind_tdel_none {α : Type} {k j : Nat} {t : Tab α} (hj : tfind j t = none) (hk : tfind k t = none) : tfind j (tdel k t) = none := by
  rcases lt_trichotomy k j with h | rfl | h
  · rw [tfind_tdel_of_lt t h, hj]
  · exact tfind_tdel_same k t
  · induction t with
    | nil => rfl
    | cons e r ih =>
      obtain ⟨k', x⟩ := e
      rw [tdel] at ih
      rcases lt_trichotomy j k' with h' | h' | h'
      · have hSame : k' ≠ k := by
          rintro rfl
          simp [tfind] at hk
        simp [tdel, hSame, tfind, h'.ne, h']
      · simp [tfind, h'] at hj
      · have hk' : k' < k := h'.trans h
        have hj1 : tfind j r = none := by simpa [tfind, h'.ne', h'.not_gt] using hj
        have hk1 : tfind k r = none := by simpa [tfind, hk'.ne', hk'.not_gt] using hk
        simpa [tdel, hk'.ne, tfind, h'.ne', h'.not_gt] using ih hj1 hk1

/-! ### A line whose memory has no error to find -/

/-- No unit of the line has an error to find. -/
def LineClean (s : State) (line : Nat) : Prop := ∀ u ∈ poisonUnits s line, tfind u s.merr.latent = none

/-- A line with no error to find reads as memory has it, with no effect. -/
theorem memReadLine_clean {s : State} {line : Nat} (h : LineClean s line) :
    memReadLine line s = ((getBytes s line 64, isPoisoned s line), s) := by
  have units (l : List Nat) (hl : ∀ u ∈ l, tfind u s.merr.latent = none) : readUnits false l s = s := by
    induction l with
    | nil => rfl
    | cons u l ih =>
      rw [readUnits, List.foldl_cons, readUnit_of_clean false (hl u (by simp))]
      exact ih fun v hv => hl v (by simp [hv])
  simp only [memReadLine, units _ h]

theorem writeUnit_clean_obj {s : State} {u : Nat} (line mask whole : Nat) (h : tfind u s.merr.latent = none) :
    (writeUnit line mask whole u s).obj = s.obj := by
  unfold writeUnit
  rw [readUnit_of_clean false h]
  split
  · rfl
  · split <;> rfl

theorem writeUnit_clean_latent {s : State} {u v : Nat} (line mask whole : Nat) (hu : tfind u s.merr.latent = none)
    (hv : tfind v s.merr.latent = none) : tfind v (writeUnit line mask whole u s).merr.latent = none := by
  unfold writeUnit
  rw [readUnit_of_clean false hu]
  split
  · exact hv
  · split <;> exact tfind_tdel_none hv hu

/-- The units of a clean line take a write with no effect on the dictionary. -/
theorem writeUnits_clean_obj (line mask whole : Nat) (l : List Nat) : ∀ (s : State), (∀ u ∈ l, tfind u s.merr.latent = none) →
    (l.foldl (fun s u => writeUnit line mask whole u s) s).obj = s.obj := by
  induction l with
  | nil => exact fun s _ => rfl
  | cons u l ih =>
    intro s h
    rw [List.foldl_cons, ih _ fun v hv => writeUnit_clean_latent line mask whole (h u (by simp)) (h v (by simp [hv])),
      writeUnit_clean_obj line mask whole (h u (by simp))]

theorem writeUnit_clean_effG {s : State} {u : Nat} (line mask whole : Nat) (h : tfind u s.merr.latent = none) :
    (writeUnit line mask whole u s).merr.effG = s.merr.effG := by
  unfold writeUnit
  rw [readUnit_of_clean false h]
  split
  · rfl
  · split <;> rfl

/-- The units of a clean line take a write with no effect on the shared region. -/
theorem writeUnits_clean_effG (line mask whole : Nat) (l : List Nat) : ∀ (s : State), (∀ u ∈ l, tfind u s.merr.latent = none) →
    (l.foldl (fun s u => writeUnit line mask whole u s) s).merr.effG = s.merr.effG := by
  induction l with
  | nil => exact fun s _ => rfl
  | cons u l ih =>
    intro s h
    rw [List.foldl_cons, ih _ fun v hv => writeUnit_clean_latent line mask whole (h u (by simp)) (h v (by simp [hv])),
      writeUnit_clean_effG line mask whole (h u (by simp))]

/-- A count of at least one leaves every number but its own and its flag as it was, whatever the table holds. -/
theorem count_num_other {s : State} {i j n i' j' : Nat} (hn : 0 < n) (hCounter : objDefault (okey i j) = .num 0)
    (hFlag : objDefault (okey (i + 0x400) j) = .num 0) (hk : okey i' j' ≠ okey i j) (hk' : okey i' j' ≠ okey (i + 0x400) j) :
    (count i j n s).num i' j' = s.num i' j' := by
  have counted (v : Nat) (hv : 0 < v) : (s.setNum i j v).num i' j' = s.num i' j' :=
    num_setNum_other_of s i j i' j' v hk (.inl (by rw [hCounter]; exact fun h => hv.ne' (Val.num.inj h)))
  rcases count_cases i j n s with ⟨_, e⟩ | ⟨_, _, e⟩ | ⟨_, _, e⟩
  · rw [e, counted _ (by omega)]
  · rw [e, counted max64 (by unfold max64; omega)]
  · rw [e]
    have flagged := num_setNum_other_of (s.setNum i j max64) (i + 0x400) j i' j' 1 hk' (.inl (by rw [hFlag]; simp))
    exact flagged.trans (counted max64 (by unfold max64; omega))

/-- The flag of every counter starts at 0. -/
theorem objDefault_flag {i j : Nat} (hi : 0x5C00 ≤ i) (hi' : i < 0x6000) (hj : 0 < j) (hj' : j < 256) : objDefault (okey i j) = .num 0 := by
  have hKey : okey i j ≠ 0x100001 := by unfold okey; omega
  have hIndex : okey i j / 256 = i := by unfold okey; omega
  have hSub : okey i j % 256 = j := by unfold okey; omega
  rw [objDefault, if_neg hKey, hIndex, hSub, rowOf, if_neg (by omega), if_pos ⟨hi, hi'⟩]
  cases listedRow (i - 0x400) j with
  | none => rfl
  | some r => rfl

theorem objDefault_mergedWrites : ∀ n < 8, objDefault (okey 0x5843 (n + 1)) = .num 0 := by decide

theorem objDefault_farAtomics : ∀ n < 8, objDefault (okey 0x5852 (n + 1)) = .num 0 := by decide

theorem homeState_count_merged {m : Nat} (hm : m < 8) (n : Nat) (hn : n < 8) (s : State) :
    (count 0x5843 (m + 1) 1 s).homeState n = s.homeState n := by
  exact count_num_other (by omega) (objDefault_mergedWrites m hm) (objDefault_flag (by omega) (by omega) (by omega) (by omega))
    (okey_ne (by omega) (by omega) (.inl (by omega))) (okey_ne (by omega) (by omega) (.inl (by omega)))

/-- A write of a clean line leaves its home's state as it was. -/
theorem memWriteLine_homeState {s : State} {line n : Nat} (mask : Nat) (data : List Byte) (hClean : LineClean s line)
    (hHome : homeOf s line = some n) : (memWriteLine line mask data s).homeState n = s.homeState n := by
  have hn : n < 8 := homeOf_lt s line n hHome
  have hObj := writeUnits_clean_obj line mask mask _ s hClean
  have units : ((poisonUnits s line).foldl (fun s u => writeUnit line mask mask u s) s).homeState n = s.homeState n := by
    unfold State.homeState State.num State.val
    rw [hObj]
  unfold memWriteLine memMergeLine
  dsimp only
  split
  · rename_i m _ hAt
    have hm : m < 8 := homeOf_lt _ line m (by rw [homeOf, hAt])
    split
    · exact units
    · exact (homeState_count_merged hm n hn _).trans units
  · exact units

/-- A write of a clean line leaves the line's home where it is. -/
theorem memWriteLine_homeOf {s : State} {line : Nat} (mask : Nat) (data : List Byte) (hClean : LineClean s line) :
    homeOf (memWriteLine line mask data s) line = homeOf s line := by
  have hEff := writeUnits_clean_effG line mask mask _ s hClean
  have written : (memWriteLine line mask data s).merr.effG = s.merr.effG := by
    unfold memWriteLine memMergeLine
    dsimp only
    split
    · split
      · exact hEff
      · exact (congrArg MemErr.effG (count_merr ..)).trans hEff
    · exact hEff
  unfold homeOf place
  rw [written]

/-! ### A calm line at a home that is ON -/

/-- The line is idle at a home that is ON, which has room in its directory; nothing waits, and memory has no error to find. -/
structure IdleHome (s : State) (line n : Nat) : Prop where
  mem : memOk s line = true
  home : homeOf s line = some n
  on : s.homeState n = 1
  idle : txnOf s line = none
  waiting : s.coh.waiting = []
  bias : biasLinks s line = []
  ways : s.coh.dir.length + s.coh.txns.length < 16
  clean : LineClean s line
  answered : s.coh.msgs.any (Msg.rspOn line) = false

/-- The transaction that the home of an idle line opens for a request. -/
def freshTxn (alone entry : Bool) (r : Req) : Txn :=
  { req := r, alone := alone, others := false, target := none, entry := entry, asks := r.kind.asks, snoops := [], got := none, served := false,
    granted := false, wbWait := none, done := false, acked := false }

/-- The same once the home has sent what ends its own part. -/
def sentTxn (alone entry : Bool) (r : Req) : Txn := { freshTxn alone entry r with done := true }

theorem empty_others {s : State} {line : Nat} (hDir : dirOf s line = DirEntry.empty) (p : Nat → Bool) : (holderList (dirOf s line)).any p = false := by
  rw [hDir]
  rfl

theorem empty_alone {s : State} {line : Nat} (hDir : dirOf s line = DirEntry.empty) : ((dirOf s line).holders == 0) = true := by
  rw [hDir]
  rfl

theorem txnOf_setTxn (line : Nat) (t : Txn) (s : State) : txnOf (setTxn line t s) line = some t := tfind_tput_same line t s.coh.txns

theorem setTxn_setTxn (line : Nat) (t u : Txn) (s : State) : setTxn line t (setTxn line u s) = setTxn line t s := by
  simp only [setTxn, tput_tput]

/-- A transaction that only awaits its AckGrant goes no further. -/
theorem progress_of_done {s : State} {line : Nat} {t : Txn} (h : txnOf s line = some t) (hDone : t.done = true) (hAcked : t.acked = false) :
    progress line s = s := by
  simp only [progress, h, hDone, hAcked, Bool.not_true, Bool.false_and, Bool.and_false, Bool.false_eq_true, if_false]

theorem progress_of_none {s : State} {line : Nat} (h : txnOf s line = none) : progress line s = s := by
  simp only [progress, h]

theorem admitAll_of_none {s : State} (h : s.coh.waiting = []) : admitAll s = s := by
  simp only [admitAll, h, List.foldl_nil]

theorem advance_of_done {s : State} {line : Nat} {t : Txn} (h : txnOf s line = some t) (hDone : t.done = true) (hAcked : t.acked = false)
    (hWait : s.coh.waiting = []) : advance line s = s := by
  rw [advance, progress_of_done h hDone hAcked, admitAll_of_none hWait]

theorem advance_of_none {s : State} {line : Nat} (h : txnOf s line = none) (hWait : s.coh.waiting = []) : advance line s = s := by
  rw [advance, progress_of_none h, admitAll_of_none hWait]

section
variable {s : State} {line : Nat} {t : Txn} (h : txnOf s line = some t) (hDone : t.done = false) (hSettled : settled s line t = true)
include h hDone hSettled

/-- With nothing outstanding the home does its part of a transaction, which then awaits its AckGrant, -/
theorem progress_finishes {u : State} {v : Txn} (hFinish : finish line t s = u) (hNext : txnOf u line = some v) (hAcked : v.acked = false) :
    progress line s = u := by
  simp only [progress, h, hDone, hSettled, Bool.not_false, Bool.and_self, if_true, hFinish, hNext, hAcked, Bool.and_false, Bool.false_eq_true,
    if_false]

/-- or has ended. -/
theorem progress_ends {u : State} (hFinish : finish line t s = u) (hNext : txnOf u line = none) : progress line s = u := by
  simp only [progress, h, hDone, hSettled, Bool.not_false, Bool.and_self, if_true, hFinish, hNext]

end

namespace IdleHome

variable {s : State} {line n : Nat} (I : IdleHome s line n)
include I

theorem touch_eq : touch line s = s := touch_of_none I.bias

theorem homeOn_eq : homeOn s line = true := by
  simp only [homeOn, I.home, I.on]
  rfl

theorem drains_eq : homeDrains s line = false := by
  simp only [homeDrains, I.home, I.on]
  rfl

theorem makeRoom_eq : makeRoom line s = s := by
  rw [makeRoom, if_pos I.ways, ite_self]

theorem admits_eq (r : Req) : admits s line r = true := by
  simp [admits, dirRoom, I.idle, I.ways]

/-- A request is admitted at once. -/
theorem request_eq (r : Req) : request line r s = advance line (admitReq line r s) := by
  have hTouch := I.touch_eq
  have h := request_admitted (s := s) (line := line) (n := n) r I.mem I.home (by rw [hTouch, I.on]; decide)
    (by rw [hTouch]; exact I.admits_eq r) (by rw [hTouch, I.waiting]; rfl)
  rwa [hTouch] at h

/-- A request that needs no snoop and no target opens its transaction. -/
theorem admitReq_eq {r : Req} {alone entry : Bool} (hKind : handledAs s line r = r.kind) (hWatch : r.kind ≠ .rdPeekWatch)
    (hOthers : (holderList (dirOf s line)).any (fun c => !(cacheIx r.agent == some c)) = false) (hTarget : admitTarget s line r.kind = none)
    (hSnoops : snoopsFor s line r = []) (hAlone : ((dirOf s line).holders == 0) = alone) (hEntry : needsEntry s line r = entry) :
    admitReq line r s = progress line (setTxn line (freshTxn alone entry r) s) := by
  subst hAlone hEntry
  obtain ⟨k, a, d⟩ := r
  have opened : admitReq line { kind := k, agent := a, data := d } s =
      progress line (setTxn line { freshTxn ((dirOf s line).holders == 0) (needsEntry s line ⟨k, a, d⟩) ⟨k, a, d⟩ with
        others := (holderList (dirOf s line)).any (fun c => !(cacheIx a == some c)), target := admitTarget s line k,
        snoops := snoopsFor s line ⟨k, a, d⟩ } s) := by
    dsimp only at hKind hWatch
    unfold admitReq
    cases k with
    | rdPeekWatch => exact absurd rfl hWatch
    | _ => simp only [hKind, I.makeRoom_eq, ite_self, freshTxn]
  rw [opened, hOthers, hTarget, hSnoops]
  rfl

end IdleHome

/-! ### What the home does with an open transaction -/

theorem setTxn_keeps {s : State} {line : Nat} {t : Txn} (hLost : ∀ c, cacheIx t.req.agent = some c → s.coh.lost.contains c = false) :
    requesterLost (setTxn line t s) t = false := by
  cases hIx : cacheIx t.req.agent with
  | some c =>
    have h : (setTxn line t s).coh.lost.contains c = false := hLost c hIx
    simp only [requesterLost, hIx, h]
  | none => simp only [requesterLost, hIx]

theorem setTxn_settled {s : State} {line : Nat} {t : Txn} (hAnswered : s.coh.msgs.any (Msg.rspOn line) = false) (hSnoops : t.snoops = [])
    (hBack : t.wbWait = none) : settled (setTxn line t s) line t = true := by
  have h : (setTxn line t s).coh.msgs.any (Msg.rspOn line) = false := hAnswered
  simp [settled, hSnoops, hBack, h]

/-- A transaction of which nothing is outstanding goes on to what the home does for it, and awaits its AckGrant. -/
theorem progress_setTxn {s u : State} {line : Nat} {t v : Txn} (hAnswered : s.coh.msgs.any (Msg.rspOn line) = false) (hSnoops : t.snoops = [])
    (hBack : t.wbWait = none) (hDone : t.done = false) (hAcked : v.acked = false) (hFinish : finish line t (setTxn line t s) = setTxn line v u) :
    progress line (setTxn line t s) = setTxn line v u :=
  progress_finishes (txnOf_setTxn line t s) hDone (setTxn_settled hAnswered hSnoops hBack) hFinish (txnOf_setTxn line v u) hAcked

section
variable {u : State} {line : Nat} {t : Txn} (hKeeps : requesterLost u t = false)

section
include hKeeps

theorem finish_rdShare {c : Nat} (hKind : t.req.kind = .rdShare) (hIx : cacheIx t.req.agent = some c) :
    finish line t u = grantLine line c (if t.alone then .c else .s) t.alone t u := by
  simp only [finish, hKeeps, hKind, hIx, Bool.false_and, Bool.false_eq_true, if_false]

theorem finish_rdUnique {c : Nat} (hKind : t.req.kind = .rdUnique) (hIx : cacheIx t.req.agent = some c) :
    finish line t u = grantLine line c .d true t u := by
  simp only [finish, hKeeps, hKind, hIx, Bool.false_and, Bool.false_eq_true, if_false]

theorem finish_promote {c : Nat} (hKind : t.req.kind = .promote) (hIx : cacheIx t.req.agent = some c) (hOn : homeOn u line = true) :
    finish line t u = setTxn line { t with done := true } (grantDir c line true (sendMsg (.dat t.req.agent line (some .d) none t.asks true) u)) := by
  simp only [finish, hKeeps, hKind, hIx, hOn, Bool.false_and, Bool.false_eq_true, if_false, if_true]

/-- A read that takes no state, of a line that no holder has forwarded, has memory's value. -/
theorem finish_peek {v : List Byte × Bool} (hKind : t.req.kind.peeks = true) (hServed : t.served = false) (hGot : t.got = none)
    (hRead : memReadLine line u = (v, u)) :
    finish line t u = setTxn line { t with done := true } (sendMsg (.dat t.req.agent line none (some v) t.asks true) u) := by
  cases hk : t.req.kind with
  | rdPeek | rdPeekWatch =>
    simp only [finish, hKeeps, hk, hServed, txnData, hGot, hRead, Bool.false_and, Bool.false_eq_true, if_false]
  | _ => simp [hk, ReqKind.peeks] at hKind

end

/-- A grant from memory: the directory lists the requester alone. -/
theorem grantLine_fresh {c : Nat} (g : CacheSt) {v : List Byte × Bool} (hOn : homeOn u line = true) (hServed : t.served = false)
    (hGot : t.got = none) (hRead : memReadLine line u = (v, u)) (hDir : dirOf u line = DirEntry.empty) :
    grantLine line c g true t u = setTxn line { t with done := true }
      (setDir line { sole := true, holders := 1#10 <<< c, watch := 0 } (sendMsg (.dat t.req.agent line (some g) (some v) t.asks true) u)) := by
  have hSent (m : Msg) : dirOf (sendMsg m u) line = DirEntry.empty := hDir
  simp only [grantLine, hOn, hServed, txnData, hGot, hRead, grantDir, hSent, Bool.false_eq_true, if_false, if_true]
  rfl

end

namespace IdleHome

variable {s : State} {line n : Nat} (I : IdleHome s line n)
include I

theorem setTxn_homeOn (t : Txn) : homeOn (setTxn line t s) line = true := I.homeOn_eq

theorem setTxn_read (t : Txn) : memReadLine line (setTxn line t s) = ((getBytes s line 64, isPoisoned s line), setTxn line t s) :=
  memReadLine_clean (s := setTxn line t s) I.clean

section
variable {a : Agent} (hLost : ∀ c, cacheIx a = some c → s.coh.lost.contains c = false) (hDir : dirOf s line = DirEntry.empty)
include hLost hDir

/-- A read of an idle line is granted C, with memory's value. -/
theorem admit_rdShare {c : Nat} (hIx : cacheIx a = some c) : admitReq line { kind := .rdShare, agent := a, data := [] } s =
    setTxn line (sentTxn true true { kind := .rdShare, agent := a, data := [] })
      (setDir line { sole := true, holders := 1#10 <<< c, watch := 0 }
        (sendMsg (.dat a line (some .c) (some (getBytes s line 64, isPoisoned s line)) true true) s)) := by
  have hKind : handledAs s line { kind := .rdShare, agent := a, data := [] } = .rdShare := by
    simp only [handledAs, I.drains_eq, Bool.false_eq_true, if_false]
  have hEntry : needsEntry s line { kind := .rdShare, agent := a, data := [] } = true := by
    simp only [needsEntry, I.homeOn_eq, hKind, Bool.and_self]
  have hSnoops : snoopsFor s line { kind := .rdShare, agent := a, data := [] } = [] := by
    simp only [snoopsFor, hDir]
    rfl
  rw [I.admitReq_eq hKind nofun (empty_others hDir _) rfl hSnoops (empty_alone hDir) hEntry]
  refine progress_setTxn I.answered rfl rfl rfl rfl ?_
  rw [finish_rdShare (setTxn_keeps hLost) rfl hIx]
  exact (grantLine_fresh .c (I.setTxn_homeOn _) rfl rfl (I.setTxn_read _) hDir).trans (setTxn_setTxn line _ _ (setDir line _ (sendMsg _ s)))

/-- A write of an idle line is granted D, with memory's value. -/
theorem admit_rdUnique {c : Nat} (hIx : cacheIx a = some c) : admitReq line { kind := .rdUnique, agent := a, data := [] } s =
    setTxn line (sentTxn true true { kind := .rdUnique, agent := a, data := [] })
      (setDir line { sole := true, holders := 1#10 <<< c, watch := 0 }
        (sendMsg (.dat a line (some .d) (some (getBytes s line 64, isPoisoned s line)) true true) s)) := by
  have hKind : handledAs s line { kind := .rdUnique, agent := a, data := [] } = .rdUnique := by
    simp only [handledAs, I.drains_eq, Bool.false_eq_true, if_false]
  have hEntry : needsEntry s line { kind := .rdUnique, agent := a, data := [] } = true := by
    simp only [needsEntry, I.homeOn_eq, hKind, Bool.and_self]
  have hSnoops : snoopsFor s line { kind := .rdUnique, agent := a, data := [] } = [] := by
    simp only [snoopsFor, hDir]
    rfl
  rw [I.admitReq_eq hKind nofun (empty_others hDir _) rfl hSnoops (empty_alone hDir) hEntry]
  refine progress_setTxn I.answered rfl rfl rfl rfl ?_
  rw [finish_rdUnique (setTxn_keeps hLost) rfl hIx]
  exact (grantLine_fresh .d (I.setTxn_homeOn _) rfl rfl (I.setTxn_read _) hDir).trans (setTxn_setTxn line _ _ (setDir line _ (sendMsg _ s)))

/-- A read that takes no state has memory's value. -/
theorem admit_rdPeek : admitReq line { kind := .rdPeek, agent := a, data := [] } s =
    setTxn line (sentTxn true false { kind := .rdPeek, agent := a, data := [] })
      (sendMsg (.dat a line none (some (getBytes s line 64, isPoisoned s line)) false true) s) := by
  have hEntry : needsEntry s line { kind := .rdPeek, agent := a, data := [] } = false := by
    simp only [needsEntry, handledAs, Bool.and_false]
  have hSnoops : snoopsFor s line { kind := .rdPeek, agent := a, data := [] } = [] := by
    simp only [snoopsFor, hDir]
    rfl
  rw [I.admitReq_eq rfl (by simp) (empty_others hDir _) rfl hSnoops (empty_alone hDir) hEntry]
  refine progress_setTxn I.answered rfl rfl rfl rfl ?_
  rw [finish_peek (setTxn_keeps hLost) rfl rfl rfl (I.setTxn_read _)]
  exact setTxn_setTxn line _ _ (sendMsg _ s)

/-- A wait monitor's read sets its bit in the watch vector. -/
theorem admit_rdPeekWatch {k : Nat} (hAgent : a = .wm k) (hk : k < 8) : admitReq line { kind := .rdPeekWatch, agent := a, data := [] } s =
    setTxn line (sentTxn true true { kind := .rdPeekWatch, agent := a, data := [] })
      (sendMsg (.dat a line none (some (getBytes s line 64, isPoisoned s line)) false true)
        (setDir line { DirEntry.empty with watch := 1#8 <<< k } s)) := by
  subst hAgent
  have watched : ∀ k < 8, (DirEntry.empty.watch ||| 1#8 <<< k = 1#8 <<< k) ∧ (1#8 <<< k ≠ 0#8) := by decide
  have hDir' : dirOf (setDir line { DirEntry.empty with watch := 1#8 <<< k } s) line = { DirEntry.empty with watch := 1#8 <<< k } := by
    have hNew : ({ DirEntry.empty with watch := 1#8 <<< k } : DirEntry) ≠ DirEntry.empty := fun h => (watched k hk).2 (congrArg DirEntry.watch h)
    have hBit : ¬ (DirEntry.empty.holders = 0 ∧ 1#8 <<< k = 0) := fun h => (watched k hk).2 h.2
    rw [setDir, dirOf]
    dsimp only
    rw [if_neg hBit, tget_tset_of_ne_default _ _ _ _ hNew]
  have hOn : homeOn (setDir line { DirEntry.empty with watch := 1#8 <<< k } s) line = true := I.homeOn_eq
  have hEntry (u : State) (hu : homeOn u line = true) : needsEntry u line { kind := .rdPeekWatch, agent := .wm k, data := [] } = true := by
    simp only [needsEntry, hu, handledAs, Bool.and_self]
  have opened : admitReq line { kind := .rdPeekWatch, agent := .wm k, data := [] } s =
      progress line (setTxn line (freshTxn true true { kind := .rdPeekWatch, agent := .wm k, data := [] })
        (setDir line { DirEntry.empty with watch := 1#8 <<< k } s)) := by
    unfold admitReq
    simp only [handledAs, I.makeRoom_eq, ite_self, I.homeOn_eq, if_true, hDir, (watched k hk).1, hEntry _ hOn, admitTarget, snoopsFor, hDir']
    rfl
  rw [opened]
  have hRead (t : Txn) : memReadLine line (setTxn line t (setDir line { DirEntry.empty with watch := 1#8 <<< k } s)) =
      ((getBytes s line 64, isPoisoned s line), setTxn line t (setDir line { DirEntry.empty with watch := 1#8 <<< k } s)) :=
    memReadLine_clean (s := setTxn line t (setDir line { DirEntry.empty with watch := 1#8 <<< k } s)) I.clean
  refine progress_setTxn I.answered rfl rfl rfl rfl ?_
  rw [finish_peek (setTxn_keeps hLost) rfl rfl rfl (hRead _)]
  exact setTxn_setTxn line _ _ (sendMsg _ (setDir line _ s))

end

end IdleHome

/-! ### Writes and far atomics of a line that nobody holds -/

/-- A write performed at the home, with its watchers told and its requester answered. -/
def ackedWrite (a : Agent) (line mask : Nat) (data : List Byte) (s : State) : State :=
  sendMsg (.ackWr a line) (notifyWatchers line (memWriteLine line mask data (clearResv line s)))

theorem endTxn_of_on {s : State} {line n : Nat} (hHome : homeOf s line = some n) (hOn : s.homeState n ≠ 2) :
    endTxn line s = { s with coh := { s.coh with txns := tdel line s.coh.txns } } := by
  have hHome' : homeOf { s with coh := { s.coh with txns := tdel line s.coh.txns } } line = some n := hHome
  have hOn' : State.homeState { s with coh := { s.coh with txns := tdel line s.coh.txns } } n ≠ 2 := hOn
  simp only [endTxn, hHome', if_neg hOn']

theorem requesterLost_congr {s u : State} (t : Txn) (h : u.coh.lost = s.coh.lost) : requesterLost u t = requesterLost s t := by
  simp only [requesterLost, h]

/-- A write that has told its watchers has lost no agent. -/
theorem performed_lost (line mask : Nat) (data : List Byte) (s : State) :
    (notifyWatchers line (memWriteLine line mask data (clearResv line s))).coh.lost = s.coh.lost :=
  (congrArg Coh.lost (memWriteLine_coh line mask data (clearResv line s)) :)

section
variable {s : State} {line : Nat} {t : Txn} (hKeeps : requesterLost s t = false)
include hKeeps

/-- A whole write that no hint places is in memory and answered, -/
theorem finish_wrFull (hKind : t.req.kind = .wrFull ∨ ∃ up, t.req.kind = .wrHint up) (hTarget : t.target = none) :
    finish line t s = endTxn line (ackedWrite t.req.agent line fullMask t.req.data s) := by
  have hAns := (requesterLost_congr t (performed_lost line fullMask t.req.data s)).trans hKeeps
  rcases hKind with hKind | ⟨up, hKind⟩ <;>
  · simp only [finish, hKeeps, hKind, hTarget, placeLine, hAns, Bool.false_and, Bool.false_eq_true, if_false]
    rfl

/-- and so is a masked one. -/
theorem finish_wrMasked {mask : Nat} (hKind : t.req.kind = .wrMasked mask) (hGot : t.got = none) :
    finish line t s = endTxn line (ackedWrite t.req.agent line mask t.req.data s) := by
  have hAns := (requesterLost_congr t (performed_lost line mask t.req.data s)).trans hKeeps
  simp only [finish, hKeeps, hKind, keepGot, hGot, hAns, Bool.false_and, Bool.false_eq_true, if_false]
  rfl

/-- A far atomic of a line that is not poisoned writes its result, is counted and answered with the old word. -/
theorem finish_atomic {hart addr w x n : Nat} {op : AtomicOp} {v : List Byte} (hKind : t.req.kind = .atomic hart addr w op x)
    (hGot : t.got = none) (hOthers : t.others = false) (hWait : s.coh.waiting = []) (hRead : memReadLine line s = ((v, false), s))
    (hHome : homeOf (notifyWatchers line (memWriteLine line (maskFrom (addr % 64) w) (atomicLine op addr w x v).2 (clearResv line s))) line = some n)
    (hOn : (notifyWatchers line (memWriteLine line (maskFrom (addr % 64) w) (atomicLine op addr w x v).2 (clearResv line s))).homeState n ≠ 0) :
    finish line t s = setTxn line { t with done := true }
      (sendMsg (.old t.req.agent line hart addr (atomicLine op addr w x v).1 false false)
        (count 0x5852 (n + 1) 1
          (notifyWatchers line (memWriteLine line (maskFrom (addr % 64) w) (atomicLine op addr w x v).2 (clearResv line s))))) := by
  have hLost := (performed_lost line (maskFrom (addr % 64) w) (atomicLine op addr w x v).2 s)
  have hAns := (requesterLost_congr t ((congrArg Coh.lost (count_coh 0x5852 (n + 1) 1 _)).trans hLost)).trans hKeeps
  simp only [finish, hKeeps, hKind, keepGot, hGot, hOthers, hWait, tget, hRead, countFar, hHome, if_neg hOn, hAns, Bool.false_and,
    Bool.false_eq_true, if_false, List.isEmpty_nil, Bool.not_true, Bool.or_false]

end

namespace IdleHome

variable {s : State} {line n : Nat} (I : IdleHome s line n)
include I

/-- A write of the line leaves its home where it is, and ON. -/
theorem performed_home (mask : Nat) (data : List Byte) (t : Txn) :
    homeOf (notifyWatchers line (memWriteLine line mask data (clearResv line (setTxn line t s)))) line = some n :=
  (memWriteLine_homeOf (s := clearResv line (setTxn line t s)) mask data I.clean).trans I.home

theorem performed_on (mask : Nat) (data : List Byte) (t : Txn) :
    (notifyWatchers line (memWriteLine line mask data (clearResv line (setTxn line t s)))).homeState n = 1 :=
  (memWriteLine_homeState (s := clearResv line (setTxn line t s)) mask data I.clean I.home).trans I.on

theorem performed_waiting (mask : Nat) (data : List Byte) (t : Txn) :
    (notifyWatchers line (memWriteLine line mask data (clearResv line (setTxn line t s)))).coh.waiting = [] :=
  (congrArg Coh.waiting (memWriteLine_coh line mask data (clearResv line (setTxn line t s)))).trans I.waiting

/-- A write that the home performs once it is admitted ends at once. -/
theorem request_performs {r : Req} {mask : Nat} {data : List Byte}
    (hAdmit : admitReq line r s = progress line (setTxn line (freshTxn true false r) s))
    (hFinish : finish line (freshTxn true false r) (setTxn line (freshTxn true false r) s) =
      endTxn line (ackedWrite r.agent line mask data (setTxn line (freshTxn true false r) s))) :
    let u := ackedWrite r.agent line mask data (setTxn line (freshTxn true false r) s)
    request line r s = { u with coh := { u.coh with txns := tdel line u.coh.txns } } := by
  intro u
  have hEnd : endTxn line u = { u with coh := { u.coh with txns := tdel line u.coh.txns } } :=
    endTxn_of_on (I.performed_home mask data _) (ne_of_eq_of_ne (I.performed_on mask data _) (by decide))
  have hNone : txnOf { u with coh := { u.coh with txns := tdel line u.coh.txns } } line = none := tfind_tdel_same line _
  rw [I.request_eq, hAdmit, progress_ends (txnOf_setTxn line _ s) rfl (setTxn_settled I.answered rfl rfl) (hFinish.trans hEnd) hNone]
  exact advance_of_none hNone (I.performed_waiting mask data _)

/-- A request whose transaction now awaits its AckGrant leaves it so. -/
theorem request_granted {r : Req} {u : State} {v : Txn} (hAdmit : admitReq line r s = setTxn line v u) (hDone : v.done = true)
    (hAcked : v.acked = false) (hWait : u.coh.waiting = []) : request line r s = setTxn line v u := by
  rw [I.request_eq, hAdmit]
  exact advance_of_done (txnOf_setTxn line v u) hDone hAcked hWait

section
variable {a : Agent} (hLost : ∀ c, cacheIx a = some c → s.coh.lost.contains c = false)
include hLost

/-- The only sharer of a line becomes its owner, without data. -/
theorem admit_promote {c : Nat} {w : BitVec 8} (hIx : cacheIx a = some c) (hc : c < 2)
    (hDir : dirOf s line = { sole := false, holders := 1#10 <<< c, watch := w }) :
    admitReq line { kind := .promote, agent := a, data := [] } s =
      setTxn line (sentTxn false true { kind := .promote, agent := a, data := [] })
        (setDir line { sole := true, holders := 1#10 <<< c, watch := w } (sendMsg (.dat a line (some .d) none true true) s)) := by
  have alone : ∀ c < 2, (1#10 <<< c).toNat.testBit c = true ∧ bitList (1#10 <<< c).toNat 10 = [c] ∧ (1#10 <<< c == 0#10) = false := by decide
  obtain ⟨hBit, hList, hSome⟩ := alone c hc
  have hHolders : holderList (dirOf s line) = [c] := by
    rw [hDir]
    exact hList
  have hOthers : (holderList (dirOf s line)).filter (fun c => !(cacheIx a == some c)) = [] := by simp [hHolders, hIx]
  have hKind : handledAs s line { kind := .promote, agent := a, data := [] } = .promote := by
    simp only [handledAs, I.drains_eq, hIx, hDir, hBit, Bool.not_false, Bool.and_self, Bool.false_eq_true, if_false, if_true]
  have hEntry : needsEntry s line { kind := .promote, agent := a, data := [] } = true := by
    simp only [needsEntry, I.homeOn_eq, hKind, Bool.and_self]
  have hSnoops : snoopsFor s line { kind := .promote, agent := a, data := [] } = [] := by
    simp only [snoopsFor, hOthers, List.map_nil]
  have hAny : (holderList (dirOf s line)).any (fun c => !(cacheIx a == some c)) = false := by simp [hHolders, hIx]
  have hAlone : ((dirOf s line).holders == 0) = false := by
    rw [hDir]
    exact hSome
  have granted (t : Txn) (m : Msg) : grantDir c line true (sendMsg m (setTxn line t s)) =
      setDir line { sole := true, holders := 1#10 <<< c, watch := w } (sendMsg m (setTxn line t s)) := by
    have h : dirOf (sendMsg m (setTxn line t s)) line = { sole := false, holders := 1#10 <<< c, watch := w } := hDir
    rw [grantDir, h]
    rfl
  rw [I.admitReq_eq hKind nofun hAny rfl hSnoops hAlone hEntry]
  refine progress_setTxn I.answered rfl rfl rfl rfl ?_
  rw [finish_promote (setTxn_keeps hLost) rfl hIx (I.setTxn_homeOn _), granted]
  exact setTxn_setTxn line _ _ (setDir line _ (sendMsg _ s))

variable (hDir : dirOf s line = DirEntry.empty)
include hDir

theorem request_wrFull {k : ReqKind} {data : List Byte} (hWrite : k = .wrFull ∨ ∃ up, k = .wrHint up) (hHint : hintTarget s line = none) :
    let u := ackedWrite a line fullMask data (setTxn line (freshTxn true false { kind := k, agent := a, data := data }) s)
    request line { kind := k, agent := a, data := data } s = { u with coh := { u.coh with txns := tdel line u.coh.txns } } := by
  have hEntry : needsEntry s line { kind := k, agent := a, data := data } = false := by
    rcases hWrite with rfl | ⟨up, rfl⟩ <;> simp [needsEntry, handledAs, hHint, places]
  have hTarget : admitTarget s line k = none := by
    rcases hWrite with rfl | ⟨up, rfl⟩ <;> simp [admitTarget, hHint]
  have hKind : handledAs s line { kind := k, agent := a, data := data } = k := by
    rcases hWrite with rfl | ⟨up, rfl⟩ <;> rfl
  have hSnoops : snoopsFor s line { kind := k, agent := a, data := data } = [] := by
    rcases hWrite with rfl | ⟨up, rfl⟩ <;> (simp only [snoopsFor, hDir]; rfl)
  have hWatch : k ≠ .rdPeekWatch := by
    rcases hWrite with rfl | ⟨up, rfl⟩ <;> simp
  exact I.request_performs (I.admitReq_eq hKind hWatch (empty_others hDir _) hTarget hSnoops (empty_alone hDir) hEntry)
    (finish_wrFull (setTxn_keeps hLost) hWrite rfl)

theorem request_wrMasked (mask : Nat) (data : List Byte) :
    let u := ackedWrite a line mask data (setTxn line (freshTxn true false { kind := .wrMasked mask, agent := a, data := data }) s)
    request line { kind := .wrMasked mask, agent := a, data := data } s = { u with coh := { u.coh with txns := tdel line u.coh.txns } } := by
  have hEntry : needsEntry s line { kind := .wrMasked mask, agent := a, data := data } = false := by simp [needsEntry, handledAs]
  have hSnoops : snoopsFor s line { kind := .wrMasked mask, agent := a, data := data } = [] := by
    simp only [snoopsFor, hDir]
    rfl
  exact I.request_performs (I.admitReq_eq rfl (by simp) (empty_others hDir _) rfl hSnoops (empty_alone hDir) hEntry)
    (finish_wrMasked (setTxn_keeps hLost) rfl rfl)

theorem request_atomic {hart addr w x : Nat} {op : AtomicOp} (hClean : isPoisoned s line = false) :
    let r : Req := { kind := .atomic hart addr w op x, agent := a, data := [] }
    let v := atomicLine op addr w x (getBytes s line 64)
    request line r s = setTxn line (sentTxn true false r) (sendMsg (.old a line hart addr v.1 false false)
      (count 0x5852 (n + 1) 1 (notifyWatchers line (memWriteLine line (maskFrom (addr % 64) w) v.2
        (clearResv line (setTxn line (freshTxn true false r) s)))))) := by
  intro r v
  have hEntry : needsEntry s line r = false := by simp [r, needsEntry, handledAs]
  have hSnoops : snoopsFor s line r = [] := by
    simp only [r, snoopsFor, hDir]
    rfl
  have hRead : memReadLine line (setTxn line (freshTxn true false r) s) = ((getBytes s line 64, false), setTxn line (freshTxn true false r) s) :=
    hClean ▸ I.setTxn_read (freshTxn true false r)
  have hFinish := finish_atomic (t := freshTxn true false r) (setTxn_keeps hLost) rfl rfl rfl I.waiting hRead
    (I.performed_home (maskFrom (addr % 64) w) v.2 _) (ne_of_eq_of_ne (I.performed_on (maskFrom (addr % 64) w) v.2 _) (by decide))
  refine I.request_granted ?_ rfl rfl ?_
  · rw [I.admitReq_eq rfl (by simp [r]) (empty_others hDir _) rfl hSnoops (empty_alone hDir) hEntry]
    exact progress_setTxn I.answered rfl rfl rfl rfl hFinish
  · exact (congrArg Coh.waiting (count_coh 0x5852 (n + 1) 1 _)).trans (I.performed_waiting (maskFrom (addr % 64) w) v.2 _)

end

end IdleHome

/-- Settles O42: what the home of an idle line answers to each request that finds nothing in progress. -/
theorem idleLinesAreGranted : Obligations.IdleLinesAreGranted := by
  intro s a line n hAgent hLine hMem hHome hOn hIdle hWaiting hBias hWays hClean hAnswered hLost value busy
  have I : IdleHome s line n := ⟨hMem, hHome, hOn, hIdle, hWaiting, hBias, hWays, hClean, hAnswered⟩
  have wf : (agentOk a && lineOk line) = true := by simp [hAgent, hLine]
  refine ⟨fun c hIx hDir => ?_, fun c x w hIx hc hSome hShared hDir => ?_, fun hDir => ⟨?_, ?_, fun k hk ha => ?_, ?_, ?_⟩⟩
  · intro mine
    refine ⟨I.admit_rdShare hLost hDir hIx, I.admit_rdUnique hLost hDir hIx, fun hNone hRoom => ?_⟩
    intro enter
    have entered (st : CacheSt) : IdleHome (enter st) line n := ⟨hMem, hHome, hOn, hIdle, hWaiting, hBias, hWays, hClean, hAnswered⟩
    have hWay : makeWay c line s = s := by rw [makeWay, if_pos (.inl hRoom)]
    have hWayed : cacheRoom s c line = true := by simp [cacheRoom, hRoom]
    refine ⟨fun hMay => forUnit_settled wf ?_, fun hCore => forUnit_settled wf ?_⟩
    · rw [readRequest_miss hIx (hLost c hIx) .isW hMem hHome (by omega) (hMay.imp_right (⟨rfl, ·⟩)) (by decide) hWayed hNone, hWay]
      exact (entered .isW).request_granted ((entered .isW).admit_rdShare hLost hDir hIx) rfl rfl hWaiting
    · rw [readRequest_miss hIx (hLost c hIx) .iuW hMem hHome (by omega) (.inl hCore) (by decide) hWayed hNone, hWay]
      exact (entered .iuW).request_granted ((entered .iuW).admit_rdUnique hLost hDir hIx) rfl rfl hWaiting
  · refine forUnit_settled wf ?_
    have J : IdleHome (setCacheLine c line (some { x with st := .sdW }) s) line n :=
      ⟨hMem, hHome, hOn, hIdle, hWaiting, hBias, hWays, hClean, hAnswered⟩
    rw [readRequest_promote hIx (hLost c hIx) .sdW hc hMem hSome hShared]
    exact J.request_granted (J.admit_promote hLost hIx hc hDir) rfl rfl hWaiting
  · exact I.admit_rdPeek hLost hDir
  · exact forUnit_settled wf (I.request_granted (I.admit_rdPeek hLost hDir) rfl rfl hWaiting)
  · intro seen
    refine ⟨forUnit_settled wf (I.request_granted (I.admit_rdPeekWatch hLost hDir ha hk) rfl rfl hWaiting), fun hFind hWatching => ?_⟩
    have hErased : (s.coh.msgs.erase (.watch k line)).any (Msg.rspOn line) = false := by
      rw [List.any_eq_false] at hAnswered ⊢
      exact fun m hm => hAnswered m (List.mem_of_mem_erase hm)
    have J : IdleHome { s with coh := { s.coh with msgs := s.coh.msgs.erase (.watch k line) } } line n :=
      ⟨hMem, hHome, hOn, hIdle, hWaiting, hBias, hWays, hClean, hErased⟩
    refine forUnit_settled (by simp [Instr.wf, hk, hLine]) ?_
    rw [takeWatch, takeMsg, hFind]
    refine (if_pos hWatching).trans ?_
    subst ha
    exact J.request_granted (J.admit_rdPeekWatch hLost hDir rfl hk) rfl rfl hWaiting
  · rintro data k mask i hData (⟨rfl, rfl, rfl, hHint⟩ | ⟨up, rfl, rfl, rfl, hHint⟩ | ⟨rfl, rfl, hMask⟩)
    · exact forUnit_settled (by simp [Instr.wf, hAgent, hLine, hData]) (I.request_wrFull hLost hDir (.inl rfl) hHint)
    · exact forUnit_settled (by simp [Instr.wf, hAgent, hLine, hData]) (I.request_wrFull hLost hDir (.inr ⟨up, rfl⟩) hHint)
    · exact forUnit_settled (by simpa [Instr.wf, hAgent, hLine, hData] using hMask) (I.request_wrMasked hLost hDir mask data)
  · intro hart addr w op x hHart hw hAlign hAt hPoison k old new
    refine forUnit_settled (by simp [Instr.wf, hAgent, hHart, hw]) ?_
    rw [if_pos hAlign, hAt]
    exact I.request_atomic hLost hDir hPoison

end Sys2Proof.Machine
end

section
/-!
PROOFS. Snoops and their answers, and the messages that the home and the agents take (R225, R228 to R233, R244, R251 to R253, R258).
-/

namespace Sys2Proof.Machine

/-! ### Snoops -/

theorem takeSnoop_sent {s : State} {a : Agent} {c line : Nat} {t : Txn} {k : SnpKind} (hIx : cacheIx a = some c) (hTxn : txnOf s line = some t)
    (hSent : snoopSent t (c, k) = true) : takeSnoop a line k s = answerSnoop c line k t s := by
  simp only [takeSnoop, hIx, hTxn, hSent, if_true]

theorem takeSnoop_unsent {s : State} {a : Agent} {c line : Nat} {t : Txn} {k : SnpKind} (hIx : cacheIx a = some c) (hTxn : txnOf s line = some t)
    (hSent : snoopSent t (c, k) = false) : takeSnoop a line k s = s := by
  simp only [takeSnoop, hIx, hTxn, hSent, Bool.false_eq_true, if_false]

/-- A snoop other than SnpUnique is sent at once. -/
theorem snoopSent_of_ne {t : Txn} {c : Nat} {k : SnpKind} (hk : k ≠ .unique) : snoopSent t (c, k) = t.snoops.contains (c, k) := by
  simp [snoopSent, hk]

/-- SnpUnique is sent once it is the last one. -/
theorem snoopSent_unique {t : Txn} {c : Nat} : snoopSent t (c, .unique) = true ↔ t.snoops = [(c, .unique)] := by
  have h : snoopSent t (c, .unique) = (t.snoops.contains (c, .unique) && t.snoops == [(c, .unique)]) := by simp [snoopSent]
  rw [h, Bool.and_eq_true]
  constructor
  · exact fun h => eq_of_beq h.2
  · intro h
    simp [h]

section
variable {s : State} {c line : Nat} {t : Txn} (hError : agentError c line s = s)
include hError

theorem answerSnoop_absent (k : SnpKind) (hNone : cacheLine s c line = none) :
    answerSnoop c line k t s = sendMsg (.rsp 0 c line none) (setTxn line { t with snoops := t.snoops.erase (c, k) } s) := by
  simp only [answerSnoop, hError, hNone]

variable {x : CLine} (hSome : cacheLine s c line = some x)
include hSome

/-- A holder in a stable state forwards a line to be shared, -/
theorem answerSnoop_share (hSt : x.st = .d ∨ x.st = .c ∨ x.st = .s) (hHome : returnsHome t.req.kind = false)
    (hDrains : homeDrains s line = false) (hGone : requesterLost s t = false) :
    answerSnoop c line .share t s = sendMsg (.rsp 1 c line (if x.st = .d then some (x.data, x.poisoned) else none))
      (setCacheLine c line (some { x with st := .s }) (loseResv c line
        (sendMsg (.dat t.req.agent line (some .s) (some (x.data, x.poisoned)) t.asks true)
          (setTxn line { t with snoops := t.snoops.erase (c, .share), granted := true } s)))) := by
  have hGone' : requesterLost s { t with snoops := t.snoops.erase (c, .share) } = false := hGone
  rcases hSt with h | h | h <;>
    simp [answerSnoop, hError, hSome, snoopAnswer, h, hHome, hDrains, hGone', snoopGrant]

/-- to be written, -/
theorem answerSnoop_unique (hSt : x.st = .d ∨ x.st = .c ∨ x.st = .s) (hHome : returnsHome t.req.kind = false)
    (hDrains : homeDrains s line = false) (hGone : requesterLost s t = false) :
    answerSnoop c line .unique t s = sendMsg (.rsp 2 c line none)
      (setCacheLine c line none (loseResv c line (noteLost c line
        (sendMsg (.dat t.req.agent line (some .d) (some (x.data, x.poisoned)) t.asks true)
          (setTxn line { t with snoops := t.snoops.erase (c, .unique), granted := true } s))))) := by
  have hGone' : requesterLost s { t with snoops := t.snoops.erase (c, .unique) } = false := hGone
  rcases hSt with h | h | h <;>
    simp [answerSnoop, hError, hSome, snoopAnswer, h, hHome, hDrains, hGone', snoopGrant, loseCopy]

/-- or to be read without a state. -/
theorem answerSnoop_peek (hSt : x.st = .d ∨ x.st = .c ∨ x.st = .s ∨ x.st = .sdW) (hHome : returnsHome t.req.kind = false)
    (hGone : requesterLost s t = false) :
    answerSnoop c line .peek t s = sendMsg (.rsp 1 c line none) (setCacheLine c line (some x)
      (sendMsg (.dat t.req.agent line none (some (x.data, x.poisoned)) t.asks true)
        (setTxn line { t with snoops := t.snoops.erase (c, .peek) } s))) := by
  have hGone' : requesterLost s { t with snoops := t.snoops.erase (c, .peek) } = false := hGone
  rcases hSt with h | h | h | h <;>
    simp [answerSnoop, hError, hSome, snoopAnswer, h, hHome, hGone', snoopGrant]

/-- What a dirty holder has goes to the home where the requester is lost. -/
theorem answerSnoop_unique_lost (hSt : x.st = .d) (hHome : returnsHome t.req.kind = false) (hGone : requesterLost s t = true) :
    answerSnoop c line .unique t s = sendMsg (.rsp 2 c line (some (x.data, x.poisoned)))
      (setCacheLine c line none (loseResv c line (noteLost c line (setTxn line { t with snoops := t.snoops.erase (c, .unique) } s)))) := by
  have hGone' : requesterLost s { t with snoops := t.snoops.erase (c, .unique) } = true := hGone
  simp [answerSnoop, hError, hSome, snoopAnswer, hSt, hHome, hGone', loseCopy]

/-- For a masked write or a far atomic the line goes to the home. -/
theorem answerSnoop_unique_home (hSt : x.st = .d ∨ x.st = .c ∨ x.st = .s) (hHome : returnsHome t.req.kind = true) :
    answerSnoop c line .unique t s = sendMsg (.rsp 2 c line (some (x.data, x.poisoned)))
      (setCacheLine c line none (loseResv c line (noteLost c line (setTxn line { t with snoops := t.snoops.erase (c, .unique) } s)))) := by
  rcases hSt with h | h | h <;> simp [answerSnoop, hError, hSome, snoopAnswer, h, hHome, loseCopy]

/-- SnpKill discards the line. -/
theorem answerSnoop_kill (hSt : x.st = .d ∨ x.st = .c ∨ x.st = .s) :
    answerSnoop c line .kill t s = sendMsg (.rsp 0 c line none)
      (setCacheLine c line none (loseResv c line (noteLost c line (setTxn line { t with snoops := t.snoops.erase (c, .kill) } s)))) := by
  rcases hSt with h | h | h <;> simp [answerSnoop, hError, hSome, snoopAnswer, h, loseCopy]

section
variable (hSt : x.st = .sdW)
include hSt

/-- A sharer that waits for its Promote answers as a sharer does, -/
theorem answerSnoop_share_sdW (hHome : returnsHome t.req.kind = false) (hDrains : homeDrains s line = false) (hGone : requesterLost s t = false) :
    answerSnoop c line .share t s = sendMsg (.rsp 1 c line none) (setCacheLine c line (some x) (loseResv c line
      (sendMsg (.dat t.req.agent line (some .s) (some (x.data, x.poisoned)) t.asks true)
        (setTxn line { t with snoops := t.snoops.erase (c, .share), granted := true } s)))) := by
  have hGone' : requesterLost s { t with snoops := t.snoops.erase (c, .share) } = false := hGone
  simp [answerSnoop, hError, hSome, snoopAnswer, hSt, hHome, hDrains, hGone', snoopGrant]

/-- and waits for the line after a snoop that takes it. -/
theorem answerSnoop_unique_sdW (hHome : returnsHome t.req.kind = false) (hDrains : homeDrains s line = false) (hGone : requesterLost s t = false) :
    answerSnoop c line .unique t s = sendMsg (.rsp 2 c line none)
      (setCacheLine c line (some { x with st := .iuW, data := [] }) (loseResv c line (noteLost c line
        (sendMsg (.dat t.req.agent line (some .d) (some (x.data, x.poisoned)) t.asks true)
          (setTxn line { t with snoops := t.snoops.erase (c, .unique), granted := true } s))))) := by
  have hGone' : requesterLost s { t with snoops := t.snoops.erase (c, .unique) } = false := hGone
  simp [answerSnoop, hError, hSome, snoopAnswer, hSt, hHome, hDrains, hGone', snoopGrant, loseCopy]

theorem answerSnoop_unique_sdW_home (hHome : returnsHome t.req.kind = true) :
    answerSnoop c line .unique t s = sendMsg (.rsp 2 c line (some (x.data, x.poisoned)))
      (setCacheLine c line (some { x with st := .iuW, data := [] }) (loseResv c line (noteLost c line
        (setTxn line { t with snoops := t.snoops.erase (c, .unique) } s)))) := by
  simp [answerSnoop, hError, hSome, snoopAnswer, hSt, hHome, loseCopy]

theorem answerSnoop_kill_sdW :
    answerSnoop c line .kill t s = sendMsg (.rsp 0 c line none)
      (setCacheLine c line (some { x with st := .iuW, data := [] }) (loseResv c line (noteLost c line
        (setTxn line { t with snoops := t.snoops.erase (c, .kill) } s)))) := by
  simp [answerSnoop, hError, hSome, snoopAnswer, hSt, loseCopy]

end

end

/-! ### Messages taken -/

theorem takeMsg_some {s : State} {p : Msg → Bool} {m : Msg} (h : s.coh.msgs.find? p = some m) :
    takeMsg p s = some (m, { s with coh := { s.coh with msgs := s.coh.msgs.erase m } }) := by
  simp only [takeMsg, h]

theorem takeMsg_none {s : State} {p : Msg → Bool} (h : s.coh.msgs = []) : takeMsg p s = none := by
  simp only [takeMsg, h, List.find?_nil]

section
variable {s : State} {a : Agent} {c line : Nat} (hIx : cacheIx a = some c)
include hIx

section
variable {t : Txn} (hTxn : txnOf s line = some t)
include hTxn

theorem homeResponse_none {d : Option (List Byte × Bool)} (hFind : s.coh.msgs.find? (Msg.isRsp 0 c line) = some (.rsp 0 c line d))
    (hPeek : t.req.kind.peeks = false) : homeResponse 0 a line s =
      advance line (dropHolder c line { s with coh := { s.coh with msgs := s.coh.msgs.erase (.rsp 0 c line d) } }) := by
  have hTxn' : txnOf { s with coh := { s.coh with msgs := s.coh.msgs.erase (.rsp 0 c line d) } } line = some t := hTxn
  simp only [homeResponse, hIx, takeMsg_some hFind, hTxn', hPeek, if_true, Bool.false_eq_true, if_false]

theorem homeResponse_peeked (hFind : s.coh.msgs.find? (Msg.isRsp 1 c line) = some (.rsp 1 c line none))
    (hPeek : t.req.kind.peeks = true) : homeResponse 1 a line s =
      advance line (setTxn line { t with served := true } { s with coh := { s.coh with msgs := s.coh.msgs.erase (.rsp 1 c line none) } }) := by
  have hTxn' : txnOf { s with coh := { s.coh with msgs := s.coh.msgs.erase (.rsp 1 c line none) } } line = some t := hTxn
  simp [homeResponse, hIx, takeMsg_some hFind, hTxn', hPeek]

theorem homeResponse_kept {d : List Byte} {p : Bool} (hFind : s.coh.msgs.find? (Msg.isRsp 1 c line) = some (.rsp 1 c line (some (d, p))))
    (hPeek : t.req.kind.peeks = false) :
    let u : State := { s with coh := { s.coh with msgs := s.coh.msgs.erase (.rsp 1 c line (some (d, p))) } }
    homeResponse 1 a line s = advance line (setTxn line { t with served := true }
      (memWriteBack line d p (setDir line { dirOf u line with sole := false } u))) := by
  intro u
  have hTxn' : txnOf u line = some t := hTxn
  simp only [u] at hTxn' ⊢
  simp [homeResponse, hIx, takeMsg_some hFind, hTxn', hPeek]

theorem homeResponse_gone {d : Option (List Byte × Bool)} (hFind : s.coh.msgs.find? (Msg.isRsp 2 c line) = some (.rsp 2 c line d)) :
    homeResponse 2 a line s = advance line (setTxn line { t with got := d, served := !returnsHome t.req.kind }
      (dropHolder c line { s with coh := { s.coh with msgs := s.coh.msgs.erase (.rsp 2 c line d) } })) := by
  have hTxn' : txnOf { s with coh := { s.coh with msgs := s.coh.msgs.erase (.rsp 2 c line d) } } line = some t := hTxn
  simp [homeResponse, hIx, takeMsg_some hFind, hTxn']

theorem homeResponse_inFlight {n : Nat} (hFind : s.coh.msgs.find? (Msg.isRsp 3 c line) = some (.rsp 3 c line none))
    (hHome : homeOf { s with coh := { s.coh with msgs := s.coh.msgs.erase (.rsp 3 c line none) } } line = some n) :
    let u := count 0x5851 (n + 1) 1 { s with coh := { s.coh with msgs := s.coh.msgs.erase (.rsp 3 c line none) } }
    homeResponse 3 a line s =
      advance line (if u.coh.msgs.any (Msg.evOf c line) then setTxn line { t with wbWait := some c } u else u) := by
  intro u
  have hTxn' : txnOf { s with coh := { s.coh with msgs := s.coh.msgs.erase (.rsp 3 c line none) } } line = some t := hTxn
  simp [homeResponse, hIx, takeMsg_some hFind, hTxn', hHome, u]

end

theorem homeWriteback_dirty {d : List Byte} {p : Bool} (hFind : s.coh.msgs.find? (Msg.isEv true c line) = some (.ev true c line d p)) :
    let u := dropHolder c line (memWriteBack line d p { s with coh := { s.coh with msgs := s.coh.msgs.erase (.ev true c line d p) } })
    txnOf (sendMsg (.ackEv c line) u) line = none → homeWriteback true a line s = advance line (sendMsg (.ackEv c line) u) := by
  intro u hNone
  simp only [u] at hNone
  simp only [homeWriteback, hIx, takeMsg_some hFind, if_true, hNone, u]

theorem homeWriteback_clean {d : List Byte} {p : Bool} (hFind : s.coh.msgs.find? (Msg.isEv false c line) = some (.ev false c line d p))
    (hNone : txnOf s line = none) : homeWriteback false a line s = advance line (sendMsg (.ackEv c line)
      (dropHolder c line { s with coh := { s.coh with msgs := s.coh.msgs.erase (.ev false c line d p) } })) := by
  have hNone' : txnOf (sendMsg (.ackEv c line)
      (dropHolder c line { s with coh := { s.coh with msgs := s.coh.msgs.erase (.ev false c line d p) } })) line = none := hNone
  simp only [homeWriteback, hIx, takeMsg_some hFind, Bool.false_eq_true, if_false, hNone']

theorem takeAckEv_left {x : CLine} (hFind : s.coh.msgs.find? (· == .ackEv c line) = some (.ackEv c line))
    (hSome : cacheLine s c line = some x) (hSt : x.st = .diW ∨ x.st = .ciW) :
    takeAckEv a line s = askOwner c line (setCacheLine c line none { s with coh := { s.coh with msgs := s.coh.msgs.erase (.ackEv c line) } }) := by
  have hSome' : cacheLine { s with coh := { s.coh with msgs := s.coh.msgs.erase (.ackEv c line) } } c line = some x := hSome
  simp only [takeAckEv, hIx, takeMsg_some hFind, hSome', if_pos hSt]

theorem takeDat_granted {g : CacheSt} {d : List Byte} {p up : Bool}
    (hFind : s.coh.msgs.find? (Msg.isDat a line) = some (.dat a line (some g) (some (d, p)) up true)) :
    let r := sendMsg (.ackGrant a line) { s with coh := { s.coh with msgs := s.coh.msgs.erase (.dat a line (some g) (some (d, p)) up true) } }
    let u := setCacheLine c line (some { st := g, data := d, poisoned := p }) (fillWay c line r)
    let v := if (waitsOf u c line).isEmpty = true then landLine c line u else u
    takeDat a line s = if g = .s then askOwner c line v else runWaits c line v := by
  intro r u v
  simp only [takeDat, takeMsg_some hFind, hIx, if_true, r, u, v]

end

theorem takeAckGrant_acked {s : State} {a : Agent} {line : Nat} {t : Txn} (hFind : s.coh.msgs.find? (· == .ackGrant a line) = some (.ackGrant a line))
    (hTxn : txnOf s line = some t) (hOwn : t.req.agent = a) : takeAckGrant a line s =
      advance line (setTxn line { t with acked := true } { s with coh := { s.coh with msgs := s.coh.msgs.erase (.ackGrant a line) } }) := by
  have hTxn' : txnOf { s with coh := { s.coh with msgs := s.coh.msgs.erase (.ackGrant a line) } } line = some t := hTxn
  simp only [takeAckGrant, takeMsg_some hFind, hTxn', if_pos hOwn]

theorem takeAckWr_performed {s : State} {b : Agent} {line : Nat} (hFind : s.coh.msgs.find? (· == .ackWr b line) = some (.ackWr b line)) :
    takeAckWr b line s = { s with coh := { s.coh with msgs := s.coh.msgs.erase (.ackWr b line), performed := s.coh.performed + 1 } } := by
  simp only [takeAckWr, takeMsg_some hFind]

theorem takeWatch_reads {s : State} {n line : Nat} (hFind : s.coh.msgs.find? (· == .watch n line) = some (.watch n line))
    (hWatching : s.coh.watching.contains (n, line) = true) : takeWatch n line s =
      request line { kind := .rdPeekWatch, agent := .wm n, data := [] } { s with coh := { s.coh with msgs := s.coh.msgs.erase (.watch n line) } } := by
  simp only [takeWatch, takeMsg_some hFind]
  exact if_pos hWatching

/-- The old value of a far atomic reaches the hart that asked for it. -/
theorem takeDat_old {s : State} {t : Txn} {d h addr v line : Nat} {cont : Bool} (hNone : s.coh.msgs.find? (Msg.isDat (.hd d) line) = none)
    (hFind : s.coh.msgs.find? (Msg.isOld (.hd d) line) = some (.old (.hd d) line h addr v cont false)) (hTxn : txnOf s line = some t)
    (hOwn : t.req.agent = .hd d) (hDone : t.done = true) : takeDat (.hd d) line s =
      giveHart h v (predMove h addr cont (sendMsg (.ackGrant (.hd d) line)
        { s with coh := { s.coh with msgs := s.coh.msgs.erase (.old (.hd d) line h addr v cont false) } })) := by
  have hNone' : takeMsg (Msg.isDat (.hd d) line) s = none := by simp only [takeMsg, hNone]
  have hTxn' : txnOf { s with coh := { s.coh with msgs := s.coh.msgs.erase (.old (.hd d) line h addr v cont false) } } line = some t := hTxn
  simp only [takeDat, hNone', takeMsg_some hFind, takeOld, hTxn', if_pos (And.intro hOwn hDone), Bool.false_eq_true, if_false]

theorem fillWay_of_room {c line : Nat} {s : State} (h : (tget [] c s.coh.caches).length ≤ roomLimit c) : fillWay c line s = s := if_pos h

/-- With no message on the mesh nothing is taken. -/
theorem no_message_taken {s : State} (a : Agent) (line : Nat) (h : s.coh.msgs = []) :
    (∀ k, homeResponse k a line s = s) ∧ (∀ b, homeWriteback b a line s = s) ∧ takeAckGrant a line s = s ∧ takeAckEv a line s = s
      ∧ takeAckWr a line s = s ∧ takeDat a line s = s := by
  have none (p : Msg → Bool) : takeMsg p s = none := takeMsg_none h
  refine ⟨fun k => ?_, fun b => ?_, ?_, ?_, ?_, ?_⟩
  · cases hIx : cacheIx a <;> simp only [homeResponse, hIx, none]
  · cases hIx : cacheIx a <;> simp only [homeWriteback, hIx, none]
  · simp only [takeAckGrant, none]
  · cases hIx : cacheIx a <;> simp only [takeAckEv, hIx, none]
  · simp only [takeAckWr, none]
  · simp only [takeDat, none]

/-- Settles O43: the answer of a holder by its state and the snoop, and each message as its taker takes it. -/
theorem snoopsAndMessages : Obligations.SnoopsAndMessages := by
  refine ⟨fun s a c line hAgent hLine hIx => ⟨fun t hTxn => ?_, fun k t hError => ?_⟩, fun s a c line hAgent hLine hIx => ?_⟩
  · have wf : (agentOk a && lineOk line) = true := by simp [hAgent, hLine]
    refine ⟨fun h => forUnit_settled wf (takeSnoop_sent hIx hTxn ?_), fun h => forUnit_settled wf (takeSnoop_sent hIx hTxn h),
      fun h => forUnit_settled wf (takeSnoop_sent hIx hTxn ?_), fun h => forUnit_settled wf (takeSnoop_sent hIx hTxn ?_),
      fun hq h => forUnit_done wf (takeSnoop_unsent hIx hTxn ?_) hq, snoopSent_unique⟩
    all_goals exact (snoopSent_of_ne (by decide)).trans h
  · intro u given
    refine ⟨answerSnoop_absent hError k, fun x hSome => ⟨fun hSt hHome hDrains hGone => ⟨?_, ?_, ?_⟩, ?_, fun hSt => ?_, ?_, ?_, ?_, ?_⟩⟩
    · exact answerSnoop_share hError hSome hSt hHome hDrains hGone
    · exact answerSnoop_unique hError hSome hSt hHome hDrains hGone
    · exact answerSnoop_peek hError hSome (by tauto) hHome hGone
    · exact answerSnoop_unique_lost hError hSome
    · intro kept asking sent
      refine ⟨answerSnoop_kill_sdW hError hSome hSt, fun hHome hGone => ⟨?_, fun hDrains => ⟨?_, ?_⟩⟩, answerSnoop_unique_sdW_home hError hSome hSt⟩
      · exact answerSnoop_peek hError hSome (by tauto) hHome hGone
      · exact answerSnoop_share_sdW hError hSome hSt hHome hDrains hGone
      · exact answerSnoop_unique_sdW hError hSome hSt hHome hDrains hGone
    · exact answerSnoop_unique_home hError hSome
    · exact answerSnoop_kill hError hSome
    · intro hSt
      cases k <;> simp only [snoopAnswer, hSt]
    · rintro (hSt | hSt | hSt) <;> cases k <;> simp only [snoopAnswer, hSt]
  · intro got
    have wf : (agentOk a && lineOk line) = true := by simp [hAgent, hLine]
    refine ⟨fun t d hTxn => ⟨fun hFind hPeek => forUnit_settled wf (homeResponse_none hIx hTxn hFind hPeek),
        fun hFind hPeek => forUnit_settled wf (homeResponse_peeked hIx hTxn hFind hPeek),
        fun hFind => forUnit_settled wf (homeResponse_gone hIx hTxn hFind),
        fun d p hFind => forUnit_settled wf (homeResponse_gone hIx hTxn hFind), ?_, ?_⟩, ?_, ?_, ?_, ?_, ?_, ?_, ?_, ?_, ?_⟩
    · exact fun d p hFind hPeek => forUnit_settled wf (homeResponse_kept hIx hTxn hFind hPeek)
    · exact fun n hFind hHome => forUnit_settled wf (homeResponse_inFlight hIx hTxn hFind hHome)
    · exact fun d p hFind _ hNone => forUnit_settled wf (homeWriteback_dirty hIx hFind hNone)
    · exact fun d p hFind hNone => forUnit_settled wf (homeWriteback_clean hIx hFind hNone)
    · exact fun t hFind hTxn hOwn => forUnit_settled wf (takeAckGrant_acked hFind hTxn hOwn)
    · exact fun x hFind hSome hSt => forUnit_settled wf (takeAckEv_left hIx hFind hSome hSt)
    · exact fun b hb hq hFind => forUnit_done (by simp [Instr.wf, hb, hLine]) (takeAckWr_performed hFind) hq
    · exact fun n hn hFind hWatching => forUnit_settled (by simp [Instr.wf, hn, hLine]) (takeWatch_reads hFind hWatching)
    · exact fun g d p up hFind => ⟨fillWay_of_room, forUnit_settled wf (takeDat_granted hIx hFind)⟩
    · exact fun t d h addr v cont hNone hd hFind hTxn hOwn hDone => forUnit_settled (by simp [Instr.wf, agentOk, hd, hLine])
        (takeDat_old hNone hFind hTxn hOwn hDone)
    · intro hq hEmpty i hi
      obtain ⟨response, writeback, grant, ev, wr, dat⟩ := no_message_taken a line hEmpty
      simp only [List.mem_cons, List.not_mem_nil, or_false] at hi
      rcases hi with rfl | rfl | rfl | rfl | rfl | rfl | rfl | rfl | rfl | rfl
      · exact forUnit_done wf (response 0) hq
      · exact forUnit_done wf (response 1) hq
      · exact forUnit_done wf (response 2) hq
      · exact forUnit_done wf (response 3) hq
      · exact forUnit_done wf (writeback true) hq
      · exact forUnit_done wf (writeback false) hq
      · exact forUnit_done wf grant hq
      · exact forUnit_done wf ev hq
      · exact forUnit_done wf wr hq
      · exact forUnit_done wf dat hq

end Sys2Proof.Machine
end

section
/-!
PROOFS. Evictions and the loss of agents (R107, R225, R231, R247, R252).
-/

namespace Sys2Proof.Machine

/-! ### Evictions -/

section
variable {s : State} {a : Agent} {c line : Nat} (hError : agentError c line s = s)
include hError

theorem evict_of_none (hNone : cacheLine s c line = none) : evict c line s = s := by
  simp only [evict, hError, hNone]

variable {x : CLine} (hSome : cacheLine s c line = some x)
include hSome

theorem evict_of_d (hSt : x.st = .d) : evict c line s =
    sendMsg (.ev true c line x.data x.poisoned) (loseResv c line (setCacheLine c line (some { x with st := .diW }) s)) := by
  simp only [evict, hError, hSome, if_pos hSt]

theorem evict_of_c (hSt : x.st = .c) : evict c line s =
    sendMsg (.ev false c line x.data x.poisoned) (loseResv c line (setCacheLine c line (some { x with st := .ciW }) s)) := by
  have hD : ¬ x.st = .d := by simp [hSt]
  simp only [evict, hError, hSome, if_neg hD, if_pos hSt]

theorem evict_of_s (hSt : x.st = .s) : evict c line s = loseResv c line (setCacheLine c line none s) := by
  have hD : ¬ x.st = .d := by simp [hSt]
  have hC : ¬ x.st = .c := by simp [hSt]
  simp only [evict, hError, hSome, if_neg hD, if_neg hC, if_pos hSt]

end

/-! ### The loss of an agent -/

theorem loseAgent_core {s : State} {d : Nat} (h : s.coh.lost.contains d = false) : loseAgent (.hd d) s = agentGone d s := by
  simp only [loseAgent, cacheIx, h, Bool.false_eq_true, if_false]

theorem loseAgent_die {s : State} {n : Nat} (h : s.coh.lost.contains (2 + n) = false) : loseAgent (.td n) s =
    faultJobs (fun s j => needsUncore s j n) 0x0E (domUncore n) (agentGone (2 + n) s) := by
  simp only [loseAgent, cacheIx, h, Bool.false_eq_true, if_false]

/-- The count of the lines lost at each home, where one line of home n is. -/
def oneAt (n : Nat) : List Nat := (List.range 8).map fun m => if m = n then 1 else 0

/-- One line at home n is counted there and nowhere else, -/
theorem count_oneAt {n : Nat} (hn : n < 8) (s : State) :
    (List.range 8).foldl (fun s m => if lget 0 (oneAt n) m = 0 then s else count 0x5855 (m + 1) (lget 0 (oneAt n) m) s) s =
      count 0x5855 (n + 1) 1 s := by
  interval_cases n <;> rfl

/-- and so it is reported. -/
theorem report_oneAt {n : Nat} (hn : n < 8) :
    (List.range 8).map (fun m => (2, Nat.min (lget 0 (oneAt n) m) 0xFFFF)) = (List.range 8).map fun m => (2, if m = n then 1 else 0) := by
  interval_cases n <;> rfl

/-- The lines that a lost agent alone held, where the directory lists one line, of which it is the only holder. -/
theorem soleLines_one {s : State} {c line : Nat} {e : DirEntry} (hTxns : s.coh.txns = []) (hDir : s.coh.dir = [(line, e)])
    (hHolder : e.holders.toNat.testBit c = true) (hSole : e.sole = true) : soleLines s c = [line] := by
  simp [soleLines, hTxns, hDir, hHolder, hSole]

theorem lost_oneAt {s : State} {line n : Nat} (hHome : homeOf s line = some n) :
    ((List.range 8).map fun m => ([line].filter fun l => homeOf s l == some m).length) = oneAt n := by
  refine List.map_congr_left fun m _ => ?_
  by_cases h : m = n
  · simp [hHome, h]
  · simp [hHome, h, Ne.symm h]

/-- Settles O44: what an eviction sends by the line's state, and what the loss of an agent leaves. -/
theorem linesLeave : Obligations.LinesLeave := by
  refine ⟨fun s a c line hq hAgent hLine hIx hError => ?_, fun s => ⟨fun d hd hLost => ?_, fun n hn hLost => ?_, ?_⟩⟩
  · have wf : (agentOk a && lineOk line) = true := by simp [hAgent, hLine]
    have evicts (u : State) (h : evict c line s = u) : exec (.cacheEviction a line) s = .next (settle u) := by
      refine forUnit_settled wf ?_
      rw [hIx]
      exact h
    have quiet (u : State) (h : evict c line s = u) (hu : u.Quiet) : exec (.cacheEviction a line) s = .next u := by
      rw [evicts u h, settle_quiet u hu]
    exact ⟨fun x hSome => ⟨fun hSt => quiet _ (evict_of_d hError hSome hSt) hq, fun hSt => quiet _ (evict_of_c hError hSome hSt) hq,
      fun hSt => quiet _ (evict_of_s hError hSome hSt) hq⟩, fun hNone => quiet _ (evict_of_none hError hNone) hq⟩
  · exact forUnit_settled (by simp [Instr.wf, agentOk, hd]) (loseAgent_core hLost)
  · exact forUnit_settled (by simp [Instr.wf, agentOk, hn]) (loseAgent_die hLost)
  · intro c hc hTxns line e n hDir hHolder hSole hHome hn u waiting coh hNone
    have hListed : s.coh.dir.filter (fun e => e.2.holders.toNat.testBit c) = [(line, e)] := by simp [hDir, hHolder]
    simp only [agentGone, soleLines_one hTxns hDir hHolder hSole, hListed, lost_oneAt hHome, List.foldl_cons, List.foldl_nil, count_oneAt hn,
      report_oneAt hn]
    simp only [u] at hNone
    simp only [coh, waiting, u, hNone, List.foldl_nil]

end Sys2Proof.Machine
end

section
/-!
PROOFS. AMO, LR and SC of the harts (R215, R242 to R249, R254, R412).
-/

namespace Sys2Proof.Machine

/-! ### The exceptions of an atomic -/

section
variable {s : State} {h addr w : Nat}

theorem atomicTrap_misaligned (b : Bool) (hAlign : addr % w ≠ 0) : atomicTrap s h addr w b = some (if b then causeStoreMis else causeLoadMis) := by
  simp only [atomicTrap, if_pos hAlign]

theorem atomicTrap_outside (b : Bool) (hAlign : addr % w = 0) (hDevice : isDevice s addr = false) : atomicTrap s h addr w b = some causeStore := by
  simp [atomicTrap, hAlign, hDevice]

theorem atomicTrap_denied (b : Bool) (hAlign : addr % w = 0) (hDevice : isDevice s addr = true)
    (hOpen : (s.hart h).pmpOk addr w b = false ∨ memOk s addr = false) :
    atomicTrap s h addr w b = some (if b then causeStore else causeLoad) := by
  rcases hOpen with hOpen | hOpen <;> simp [atomicTrap, hAlign, hDevice, hOpen]

theorem atomicTrap_passes (b : Bool) (hAlign : addr % w = 0) (hDevice : isDevice s addr = true) (hPmp : (s.hart h).pmpOk addr w b = true)
    (hMem : memOk s addr = true) : atomicTrap s h addr w b = none := by
  simp [atomicTrap, hAlign, hDevice, hPmp, hMem]

theorem doAmo_trap {c x : Nat} {op : AtomicOp} (hTrap : atomicTrap s h addr w true = some c) : doAmo h addr w op x s = trapHart h c addr s := by
  simp only [doAmo, hTrap]

theorem doSc_trap {c x : Nat} (hTrap : atomicTrap s h addr w true = some c) : doSc h addr w x s = trapHart h c addr s := by
  simp only [doSc, hTrap]

theorem doLr_trap {c : Nat} (hTrap : atomicTrap s h addr w false = some c) : doLr h addr w s = trapHart h c addr s := by
  simp only [doLr, hTrap]

/-! ### Where an atomic is done -/

section
variable {x : Nat} {op : AtomicOp} (hTrap : atomicTrap s h addr w true = none)
include hTrap

theorem doAmo_home (hMode : lineMode s (lineOf addr) = 2 ∨ (lineMode s (lineOf addr) = 0 ∧ s.num 0x2803 1 ≤ tget 0 (predKey h addr) s.coh.pred)) :
    doAmo h addr w op x s = request (lineOf addr) { kind := .atomic h addr w op x, agent := .hd (h / 36), data := [] } s := by
  have hNear : ¬ lineMode s (lineOf addr) = 3 := by omega
  simp only [doAmo, hTrap, if_neg hNear, if_pos hMode]
  rfl

theorem doAmo_near (hMode : lineMode s (lineOf addr) = 1 ∨ (lineMode s (lineOf addr) = 0 ∧ tget 0 (predKey h addr) s.coh.pred < s.num 0x2803 1)) :
    doAmo h addr w op x s =
      nearAtomic { die := h / 36, hart := h, line := lineOf addr, addr := addr, width := w, op := op, operand := x, isLr := false } s := by
  have hDirect : ¬ lineMode s (lineOf addr) = 3 := by omega
  have hHome : ¬ (lineMode s (lineOf addr) = 2 ∨ (lineMode s (lineOf addr) = 0 ∧ s.num 0x2803 1 ≤ tget 0 (predKey h addr) s.coh.pred)) := by omega
  simp only [doAmo, hTrap, if_neg hDirect, if_neg hHome]

theorem doSc_home (hMode : 2 ≤ lineMode s (lineOf addr)) : doSc h addr w x s = scHome h addr w x s := by
  simp only [doSc, hTrap, if_pos hMode]

theorem doSc_near (hMode : lineMode s (lineOf addr) < 2) : doSc h addr w x s = scNear h addr w x s := by
  simp only [doSc, hTrap, if_neg (Nat.not_le.2 hMode)]

end

theorem doLr_home {d : List Byte} {u : State} (hTrap : atomicTrap s h addr w false = none)
    (hMode : lineMode s (lineOf addr) = 2 ∨ lineMode s (lineOf addr) = 3) (hRead : cohReadLine (lineOf addr) s = ((d, false), u)) :
    doLr h addr w s = giveHart h (fieldOf d (addr % 64) w)
      { u with coh := { u.coh with resv := tput h { line := lineOf addr, atHome := true } u.coh.resv } } := by
  simp only [doLr, hTrap, if_pos hMode, hRead, homeLr, Bool.false_eq_true, if_false]

theorem doLr_near (hTrap : atomicTrap s h addr w false = none) (hMode : lineMode s (lineOf addr) < 2) : doLr h addr w s =
    nearAtomic { die := h / 36, hart := h, line := lineOf addr, addr := addr, width := w, op := .swap, operand := 0, isLr := true } s := by
  have hHome : ¬ (lineMode s (lineOf addr) = 2 ∨ lineMode s (lineOf addr) = 3) := by omega
  simp only [doLr, hTrap, if_neg hHome]

end

/-! ### Near atomics -/

/-- A near atomic that misses: its predictor learns of a line that was snooped away, and the core waits. -/
def nearMiss (w : CoreWait) (s : State) : State :=
  addWait w (predSaw w.hart w.addr (if lostSince s w.hart w.addr && !w.isLr then predMove w.hart w.addr true s else s))

section
variable {s : State} {w : CoreWait} {y : CLine}

theorem nearAtomic_of_hit (hSome : cacheLine s w.die w.line = some y) (hSt : y.st = .d ∨ y.st = .c) : nearAtomic w s =
    nearNow w y (predSaw w.hart w.addr (if w.isLr then s else predMove w.hart w.addr false s)) := by
  simp only [nearAtomic, hSome, if_pos hSt]

theorem nearAtomic_of_shared (hSome : cacheLine s w.die w.line = some y) (hSt : y.st = .s) :
    nearAtomic w s = readRequest (.hd w.die) w.line .promote .sdW (nearMiss w s) := by
  have hHit : ¬ (y.st = .d ∨ y.st = .c) := by simp [hSt]
  simp only [nearAtomic, hSome, if_neg hHit, if_pos hSt, nearMiss]

theorem nearAtomic_of_waiting (hSome : cacheLine s w.die w.line = some y) (hD : y.st ≠ .d) (hC : y.st ≠ .c) (hS : y.st ≠ .s) :
    nearAtomic w s = nearMiss w s := by
  simp only [nearAtomic, hSome, if_neg (not_or.2 ⟨hD, hC⟩), if_neg hS, nearMiss]

theorem nearAtomic_of_none (hNone : cacheLine s w.die w.line = none) :
    nearAtomic w s = readRequest (.hd w.die) w.line .rdUnique .iuW (nearMiss w s) := by
  simp only [nearAtomic, hNone, nearMiss]

theorem nearNow_poisoned (hPoison : y.poisoned = true) (hAmo : w.isLr = false) : nearNow w y s = trapHart w.hart causeStore w.addr s := by
  simp only [nearNow, hPoison, hAmo, if_true, Bool.false_eq_true, if_false]

theorem nearNow_amo (hPoison : y.poisoned = false) (hAmo : w.isLr = false) : nearNow w y s =
    giveHart w.hart (fieldOf y.data (w.addr % 64) w.width) (notifyWatchers w.line (coreGets true w.hart w.line
      (setCacheLine w.die w.line (some { y with
          st := .d
          data := spliceOf y.data (w.addr % 64) (leBytes w.width (atomicOut w.op w.width (fieldOf y.data (w.addr % 64) w.width) w.operand)) })
        (clearResv w.line s)))) := by
  simp only [nearNow, hPoison, hAmo, Bool.false_eq_true, if_false, atomicLine]

theorem nearNow_lr (hPoison : y.poisoned = false) (hLr : w.isLr = true) :
    let u := coreGets true w.hart w.line (setCacheLine w.die w.line (some { y with st := .d }) s)
    nearNow w y s = giveHart w.hart (fieldOf y.data (w.addr % 64) w.width)
      { u with coh := { u.coh with resv := tput w.hart { line := w.line, atHome := false } u.coh.resv } } := by
  simp only [nearNow, hPoison, hLr, Bool.false_eq_true, if_false, if_true]

end

/-! ### SC -/

theorem calmLine_of_calm {s : State} {line : Nat} (h : lineCalm s line = true) : calmLine line s = s := by
  cases hf : calmBound s with
  | zero => rw [calmLine, hf, calmRun]
  | succ f => rw [calmLine, hf, calmRun, h]; rfl

section
variable {s : State} {h addr w v : Nat}

theorem scHome_stands (hResv : tfind h (calmLine (lineOf addr) s).coh.resv = some { line := lineOf addr, atHome := true }) :
    scHome h addr w v s = giveHart h 0 (writeCalm (lineOf addr) (maskFrom (addr % 64) w)
      (spliceOf (List.replicate 64 0) (addr % 64) (leBytes w v)) (useResv h (calmLine (lineOf addr) s))) := by
  simp [scHome, resvStands, hResv]

theorem scHome_gone (hResv : tfind h (calmLine (lineOf addr) s).coh.resv ≠ some { line := lineOf addr, atHome := true }) :
    scHome h addr w v s = giveHart h 1 (useResv h (calmLine (lineOf addr) s)) := by
  simp [scHome, resvStands, hResv]

theorem scNear_stands {y : CLine} (hResv : tfind h s.coh.resv = some { line := lineOf addr, atHome := false })
    (hSome : cacheLine s (h / 36) (lineOf addr) = some y) (hSt : y.st = .d ∨ y.st = .c) :
    scNear h addr w v s = giveHart h 0 (notifyWatchers (lineOf addr) (coreGets true h (lineOf addr)
      (setCacheLine (h / 36) (lineOf addr) (some { y with st := .d, data := spliceOf y.data (addr % 64) (leBytes w v) })
        (clearResv (lineOf addr) (useResv h (predSaw h addr s)))))) := by
  have hStands : resvStands s h (lineOf addr) false = true := by simp [resvStands, hResv]
  simp only [scNear, hStands, hSome, if_pos hSt]

theorem scNear_gone (hResv : tfind h s.coh.resv ≠ some { line := lineOf addr, atHome := false }) :
    scNear h addr w v s = giveHart h 1 (useResv h (predSaw h addr s)) := by
  have hStands : resvStands s h (lineOf addr) false = false := by simp [resvStands, hResv]
  simp only [scNear, hStands]

end

/-- Settles O45: the exceptions of an atomic, and its work by the mode and the state of its line. -/
theorem hartsDoAtomics : Obligations.HartsDoAtomics := by
  intro s h addr w x op hHart hw line
  have wfAmo : Instr.wf (.amo h addr w op x) = true := by simp [Instr.wf, hHart, hw]
  have wfSc : Instr.wf (.sc h addr w x) = true := by simp [Instr.wf, hHart, hw]
  have wfLr : Instr.wf (.lr h addr w) = true := by simp [Instr.wf, hHart, hw]
  refine ⟨fun c hTrap i hi => ?_, fun c hTrap => forUnit_settled wfLr (doLr_trap hTrap),
    fun hAlign => ⟨atomicTrap_misaligned true hAlign, atomicTrap_misaligned false hAlign⟩,
    fun hAlign hDevice => ⟨atomicTrap_outside true hAlign hDevice, atomicTrap_outside false hAlign hDevice⟩,
    fun hAlign hDevice => ⟨atomicTrap_denied true hAlign hDevice, atomicTrap_denied false hAlign hDevice,
      fun b => atomicTrap_passes b hAlign hDevice⟩, fun hTrap => ⟨fun hMode old u hAt => ?_, fun hMode => ?_, fun hMode => ?_, ?_⟩,
    fun hTrap => ⟨fun hMode d u hRead => ?_, fun hMode => ?_⟩⟩
  · simp only [List.mem_cons, List.not_mem_nil, or_false] at hi
    rcases hi with rfl | rfl
    · exact forUnit_settled wfAmo (doAmo_trap hTrap)
    · exact forUnit_settled wfSc (doSc_trap hTrap)
  · exact forUnit_settled wfAmo (doAmo_of_memctrl s u h addr w x old op hMode hTrap hAt)
  · exact forUnit_settled wfAmo (doAmo_home hTrap hMode)
  · intro core missed waits
    have near {u : State} (e : nearAtomic core s = u) : exec (.amo h addr w op x) s = .next (settle u) :=
      forUnit_settled wfAmo ((doAmo_near hTrap hMode).trans e)
    have hMissed : nearMiss core s = waits := by
      simp only [nearMiss, core, Bool.not_false, Bool.and_true]
      rfl
    refine ⟨fun y hSome => ⟨fun hSt => ?_, fun hSt => ?_, fun hD hC hS => ?_⟩, fun hNone => ?_⟩
    · intro u old new
      exact ⟨fun hPoison => near ((nearAtomic_of_hit hSome hSt).trans (nearNow_amo hPoison rfl)),
        fun hPoison => near ((nearAtomic_of_hit hSome hSt).trans (nearNow_poisoned hPoison rfl))⟩
    · exact hMissed ▸ near (nearAtomic_of_shared hSome hSt)
    · exact hMissed ▸ near (nearAtomic_of_waiting hSome hD hC hS)
    · exact hMissed ▸ near (nearAtomic_of_none hNone)
  · intro used
    refine ⟨fun hMode => ?_, fun hMode => ⟨fun hResv y hSome hSt => ?_, fun hq hResv => ?_⟩⟩
    · intro u
      exact ⟨calmLine_of_calm, fun hResv => forUnit_settled wfSc ((doSc_home hTrap hMode).trans (scHome_stands hResv)),
        fun hResv => forUnit_settled wfSc ((doSc_home hTrap hMode).trans (scHome_gone hResv))⟩
    · exact forUnit_settled wfSc ((doSc_near hTrap hMode).trans (scNear_stands hResv hSome hSt))
    · exact forUnit_done wfSc ((doSc_near hTrap hMode).trans (scNear_gone hResv)) hq
  · exact forUnit_settled wfLr (doLr_home hTrap hMode hRead)
  · intro core missed waits
    have near {u : State} (e : nearAtomic core s = u) : exec (.lr h addr w) s = .next (settle u) :=
      forUnit_settled wfLr ((doLr_near hTrap hMode).trans e)
    have hMissed : nearMiss core s = waits := by
      simp only [nearMiss, core, Bool.not_true, Bool.and_false, Bool.false_eq_true, if_false]
      rfl
    refine ⟨fun y hSome hSt hPoison => ?_, fun y hSome hSt => ?_, fun hNone => ?_⟩
    · exact near ((nearAtomic_of_hit hSome hSt).trans (nearNow_lr hPoison rfl))
    · exact hMissed ▸ near (nearAtomic_of_shared hSome hSt)
    · exact hMissed ▸ near (nearAtomic_of_none hNone)

end Sys2Proof.Machine
end

section
/-!
PROOFS. Streaming stores, cache operations and errors of the core caches (R113, R195, R206, R240, R409, R411, R412, R424, R438).
-/

namespace Sys2Proof.Machine

/-! ### Streaming stores -/

section
variable {s : State} {h addr : Nat} {data : List Byte} (hAlign : addr % 64 = 0)
include hAlign

theorem streamStore_fault (hOpen : (s.hart h).pmpOk addr 64 true = false ∨ (hostOf s addr = none ∧ memOk s addr = false)) :
    streamStore h addr data s = trapHart h causeStore addr s := by
  rcases hOpen with hPmp | ⟨hHost, hMem⟩
  · simp [streamStore, hAlign, hPmp]
  · simp [streamStore, hAlign, hHost, hMem]

variable (hPmp : (s.hart h).pmpOk addr 64 true = true)
include hPmp

theorem streamStore_device (hHost : hostOf s addr = none) (hMem : memOk s addr = true) :
    streamStore h addr data s = cohWriteLine addr fullMask data s := by
  simp [streamStore, hAlign, hPmp, hHost, hMem]

theorem streamStore_host {b : Nat} (hHost : hostOf s addr = some b) : streamStore h addr data s = postEach true b data s := by
  simp [streamStore, hAlign, hPmp, hHost]

end

/-! ### Cache operations -/

section
variable {s : State} {h addr : Nat} (f : Nat → Nat → State → State)

theorem cboOn_fault (hOpen : memOk s addr = false ∨ ((s.hart h).pmpOk (lineOf addr) 64 true = false ∧ (s.hart h).pmpOk (lineOf addr) 64 false = false)) :
    cboOn f h addr s = trapHart h causeStore addr s := by
  rcases hOpen with hMem | ⟨hWrite, hRead⟩
  · simp [cboOn, hMem]
  · simp [cboOn, hWrite, hRead]

theorem cboOn_line (hMem : memOk s addr = true)
    (hOpen : (s.hart h).pmpOk (lineOf addr) 64 true = true ∨ (s.hart h).pmpOk (lineOf addr) 64 false = true) :
    cboOn f h addr s = f (h / 36) (lineOf addr) s := by
  rcases hOpen with hOpen | hOpen <;> simp [cboOn, hMem, hOpen]

end

section
variable {s : State} {c line : Nat} {x : CLine} (hSome : cacheLine s c line = some x)
include hSome

theorem cboCleanLine_dirty (hSt : x.st = .d) : cboCleanLine c line s =
    setCacheLine c line (some { x with st := .c }) (memWriteBack line x.data x.poisoned s) := by
  simp only [cboCleanLine, hSome, if_pos hSt]

theorem cboCleanLine_other (hSt : x.st ≠ .d) : cboCleanLine c line s = s := by
  simp only [cboCleanLine, hSome, if_neg hSt]

theorem cboFlushLine_dirty (hSt : x.st = .d) : cboFlushLine c line s =
    dropHolder c line (loseResv c line (setCacheLine c line none (memWriteBack line x.data x.poisoned s))) := by
  simp [cboFlushLine, hSome, hSt]

theorem cboFlushLine_clean (hSt : x.st = .c ∨ x.st = .s) : cboFlushLine c line s =
    dropHolder c line (loseResv c line (setCacheLine c line none s)) := by
  rcases hSt with hSt | hSt <;> simp [cboFlushLine, hSome, hSt]

end

theorem cbo_of_none {s : State} {c line : Nat} (hNone : cacheLine s c line = none) :
    cboCleanLine c line s = s ∧ cboFlushLine c line s = s := by
  simp [cboCleanLine, cboFlushLine, hNone]

/-! ### Errors of the core caches -/

section
variable {s : State} {d level h addr : Nat}

theorem cacheUe_of_absent (hAbsent : levelHolds s d level h (lineOf addr) = false) : cacheUe d level h addr s = s := by
  simp [cacheUe, hAbsent]

variable {x : CLine} (hHeld : levelHolds s d level h (lineOf addr) = true) (hSome : cacheLine s d (lineOf addr) = some x)
include hHeld hSome

theorem cacheUe_of_clean (hSt : x.st ≠ .d) : cacheUe d level h addr s = s := by
  simp [cacheUe, hHeld, hSome, hSt]

theorem cacheUe_of_dirty (hSt : x.st = .d) : cacheUe d level h addr s =
    post 0x6001 (src 3 d) 0x1F [(1, d), (1, level), (1, if level = 3 then 0 else h), (8, lineOf addr)]
      (count 0x5891 (d + 1) 1 (setCacheLine d (lineOf addr) (some { x with poisoned := true }) s)) := by
  simp [cacheUe, hHeld, hSome, hSt]

end

/-- Settles O46: a streaming store by the window of its address, a cache operation by the state of its line, and the error of a line. -/
theorem storesAndCacheOperations : Obligations.StoresAndCacheOperations := by
  intro s h addr hHart fault
  have wfClean : Instr.wf (.cboClean h addr) = true := by simp [Instr.wf, hHart]
  have wfFlush : Instr.wf (.cboFlush h addr) = true := by simp [Instr.wf, hHart]
  have wfInval : Instr.wf (.cboInval h addr) = true := by simp [Instr.wf, hHart]
  refine ⟨fun data hData hAlign => ?_, fun hOpen i hi => ?_, fun hMem hOpen => ⟨fun hq hNone i hi => ?_, fun x hSome => ?_⟩, fun level n hLevel => ?_⟩
  · have wf : Instr.wf (.streamingStore h addr data) = true := by simp [Instr.wf, hHart, hData]
    refine ⟨fun hOpen => forUnit_settled wf (streamStore_fault hAlign hOpen), fun hPmp => ⟨fun hHost hMem => ?_, fun b hHost => ⟨?_, fun k hPart => ?_⟩⟩⟩
    · exact forUnit_settled wf (streamStore_device hAlign hPmp hHost hMem)
    · exact forUnit_settled wf (streamStore_host hAlign hPmp hHost)
    · have hPart' : hostParts s b data.length = [(k, b, data.length)] := by rw [hPart, hData]
      exact ⟨fun hUp => forUnit_settled wf ((streamStore_host hAlign hPmp hHost).trans (postEach_attached hPart' hUp)),
        fun hDown => forUnit_settled wf ((streamStore_host hAlign hPmp hHost).trans (postEach_detached hPart hDown))⟩
  · simp only [List.mem_cons, List.not_mem_nil, or_false] at hi
    rcases hi with rfl | rfl | rfl
    · exact forUnit_settled wfClean (cboOn_fault _ hOpen)
    · exact forUnit_settled wfFlush (cboOn_fault _ hOpen)
    · exact forUnit_settled wfInval (cboOn_fault _ hOpen)
  · obtain ⟨hClean, hFlush⟩ := cbo_of_none hNone
    simp only [List.mem_cons, List.not_mem_nil, or_false] at hi
    rcases hi with rfl | rfl | rfl
    · exact forUnit_done wfClean ((cboOn_line _ hMem hOpen).trans hClean) hq
    · exact forUnit_done wfFlush ((cboOn_line _ hMem hOpen).trans hFlush) hq
    · exact forUnit_done wfInval ((cboOn_line _ hMem hOpen).trans hFlush) hq
  · intro line
    refine ⟨fun hSt => ⟨forUnit_settled wfClean ((cboOn_line _ hMem hOpen).trans (cboCleanLine_dirty hSome hSt)), fun i hi => ?_⟩,
      fun hq hSt => ⟨forUnit_done wfClean ((cboOn_line _ hMem hOpen).trans (cboCleanLine_other hSome ?_)) hq, fun i hi => ?_⟩⟩
    · simp only [List.mem_cons, List.not_mem_nil, or_false] at hi
      rcases hi with rfl | rfl
      · exact forUnit_settled wfFlush ((cboOn_line _ hMem hOpen).trans (cboFlushLine_dirty hSome hSt))
      · exact forUnit_settled wfInval ((cboOn_line _ hMem hOpen).trans (cboFlushLine_dirty hSome hSt))
    · rcases hSt with hSt | hSt <;> simp [hSt]
    · simp only [List.mem_cons, List.not_mem_nil, or_false] at hi
      rcases hi with rfl | rfl
      · exact forUnit_done wfFlush ((cboOn_line _ hMem hOpen).trans (cboFlushLine_clean hSome hSt)) hq
      · exact forUnit_done wfInval ((cboOn_line _ hMem hOpen).trans (cboFlushLine_clean hSome hSt)) hq
  · intro u c
    have wf : Instr.wf c = true := by
      simp [c, Instr.wf, hHart, hLevel]
      omega
    exact ⟨fun x hHeld hSome => ⟨fun hSt => forUnit_settled wf (cacheUe_of_dirty hHeld hSome hSt),
      fun hSt => forUnit_settled wf (cacheUe_of_clean hHeld hSome hSt)⟩, fun hAbsent => forUnit_settled wf (cacheUe_of_absent hAbsent)⟩

end Sys2Proof.Machine
end

section
/-!
PROOFS. The training of the ports (R265, R290, R292, R293, R416, R530, R533).
-/

namespace Sys2Proof.Machine

section
variable {s : State} {p : Nat}

/-! ### The medium of a port -/

section
variable (hState : portState s p = 2) (hCmis : (s.port p).cmisOk = false)
include hState hCmis

theorem readCmis_backplane (hBack : isBackplane s p = true) (r : CmisResult) : readCmis p r s = mediumKnown p 2 (setMirror p 3 [] s) := by
  simp [readCmis, hState, hCmis, hBack]

variable (hBack : isBackplane s p = false)
include hBack

theorem readCmis_noAnswer (hTime : timeRuns s = true) : readCmis p .noAnswer s = cmisFails p s := by
  simp [readCmis, hState, hCmis, hBack, hTime]

section
variable (map : List Byte) (media : Nat) (ready : Bool)

theorem readCmis_noBus (hNet : s.on domNet = false) : readCmis p (.answered map media ready) s = cmisFails p s := by
  simp [readCmis, hState, hCmis, hBack, hNet]

theorem readCmis_ready (hNet : s.on domNet = true) (hReady : (ready || bit (lget 0 map 2).toNat 7) = true) :
    readCmis p (.answered map media ready) s = mediumKnown p (if media = 3 then 1 else 3)
      (setMirror p 1 (if bit (lget 0 map 2).toNat 7 then map.take 256 else map) (clearLow (bit (lget 0 map 2).toNat 7) p s)) := by
  have h : portState s p = 2 ∧ (!(s.port p).cmisOk) = true := ⟨hState, by rw [hCmis]; rfl⟩
  simp only [readCmis, if_pos h, hBack, hNet, hReady, Bool.not_true, Bool.false_eq_true, if_false, if_true]

theorem readCmis_unready (hNet : s.on domNet = true) (hReady : (ready || bit (lget 0 map 2).toNat 7) = false) :
    readCmis p (.answered map media ready) s =
      setPortState p 1 ((setMirror p 2 map (clearLow (bit (lget 0 map 2).toNat 7) p s)).setNum 0x3002 (p + 1) 0) := by
  have h : portState s p = 2 ∧ (!(s.port p).cmisOk) = true := ⟨hState, by rw [hCmis]; rfl⟩
  simp only [readCmis, if_pos h, hBack, hNet, hReady, Bool.not_true, Bool.false_eq_true, if_false]

end

end

theorem clearLow_port (flat : Bool) (p : Nat) (s : State) : (clearLow flat p s).port p = s.port p := by
  unfold clearLow
  split <;> rfl

theorem clearLow_quiet (flat : Bool) (p : Nat) (hq : s.Quiet) : (clearLow flat p s).Quiet := by
  unfold clearLow
  split <;> exact hq

/-- The mirror of a port without a module reads zeros. -/
theorem setMirror_empty (v : Nat) : setMirror p v [] s = (s.setNum 0x7100 (p + 1) v).setOct 0x7101 (p + 1) (List.replicate 384 0) := by
  rw [setMirror, padTo, List.nil_append, List.length_nil, List.take_replicate]
  rfl

/-! ### Lanes, timers and identities -/

theorem lanesTrained_ident (hState : portState s p = 2) (hCmis : (s.port p).cmisOk = true) :
    let f := mkFrame s { type := 8, jobId := 0, epoch := 0, src := 0, dst := 0, payload := identPayload s p }
    let l := (s.port p).tx
    let x := { Port.init with rx := (s.port p).rx, tx := lset l 3 (f :: lget [] l 3), credits := [1024, 1024, 4096, 256], cmisOk := true,
                              trained := true }
    lanesTrained p s = pump p ((s.setPort p x).setNum 0x3001 (p + 1) 3) := if_pos ⟨hState, hCmis⟩

theorem lanesTrained_other (hState : portState s p ≠ 2) : lanesTrained p s = s := if_neg fun h => hState h.1

theorem trainTimeout_down (h : portState s p = 2 ∨ (portState s p = 3 ∧ (s.port p).ident = none)) : trainTimeout p s = portDown p 2 s := if_pos h

theorem trainTimeout_late (h : ¬ (portState s p = 2 ∨ (portState s p = 3 ∧ (s.port p).ident = none))) : trainTimeout p s = s := if_neg h

theorem laneFails_down (h : 3 ≤ portState s p ∧ portState s p ≤ 5) : laneFails p s = portDown p 1 s := if_pos h

theorem retryPort_starts (h : portState s p = 6 ∨ portState s p = 1) : retryPort p s = startTraining p s := if_pos h

theorem retryPort_other (h : ¬ (portState s p = 6 ∨ portState s p = 1)) : retryPort p s = s := if_neg h

theorem compareIdent_other (h : portState s p ≠ 3) : compareIdent p s = s := by
  unfold compareIdent
  split
  · exact absurd ‹_› h
  · rfl

/-- The state once the identity that a port received is reported. -/
def identReported (p : Nat) (f : Frame) (s : State) : State :=
  let u := (s.setNum 0x3005 (p + 1) (fieldOf f.payload 0 8)).setNum 0x3006 (p + 1) (fieldOf f.payload 8 1)
  let u := (u.setOct 0x3007 (p + 1) (sliceOf f.payload 16 16)).setOct 0x3008 (p + 1) (sliceOf f.payload 32 48)
  u.setPort p { s.port p with ident := none }

section
variable {f : Frame} (hState : portState s p = 3) (hIdent : (s.port p).ident = some f)
include hState hIdent

theorem compareIdent_up (hWired : miswired (identReported p f s) p (fieldOf f.payload 0 8) (fieldOf f.payload 8 1) = false) :
    compareIdent p s = pump p (post 0x3001 (src 4 p) 0x1F [(1, p), (8, fieldOf f.payload 0 8), (1, fieldOf f.payload 8 1)]
      ((identReported p f s).setNum 0x3001 (p + 1) 4)) := by
  rw [compareIdent, hState, hIdent]
  exact if_neg (ne_true_of_eq_false hWired)

theorem compareIdent_miswired (hWired : miswired (identReported p f s) p (fieldOf f.payload 0 8) (fieldOf f.payload 8 1) = true) :
    compareIdent p s = post 0x3003 (src 4 p) 0x1F [(1, p), (8, (identReported p f s).num 0x3003 (p + 1)), (8, fieldOf f.payload 0 8),
      (1, (identReported p f s).num 0x3004 (p + 1)), (1, fieldOf f.payload 8 1)] ((identReported p f s).setNum 0x3001 (p + 1) 5) := by
  rw [compareIdent, hState, hIdent]
  exact if_pos hWired

end

end

/-- Settles O47: the events of training by the state of the port. -/
theorem portsTrain : Obligations.PortsTrain := by
  intro s p hq hp
  have wf : decide (p < 24) = true := decide_eq_true hp
  refine ⟨fun hState hCmis => ⟨fun hBack map media ready => ?_, fun hBack r => ?_⟩, fun hState hCmis => forUnit_settled wf (lanesTrained_ident hState hCmis),
    fun hState hIdent => ?_, fun h hTime => ?_, fun hLow hHigh => forUnit_settled wf (laneFails_down ⟨hLow, hHigh⟩), fun hTime => ⟨?_, ?_⟩,
    fun h hTime => ?_, fun f hState hIdent => ?_, fun hState => ⟨?_, ?_, ?_, ?_⟩⟩
  · intro flat kept woken
    refine ⟨fun hNet hReady => ?_, fun hNet hReady => ?_, fun hNet hTime => ?_, fun hTime => ?_⟩
    · intro u
      refine forUnit_done wf ((readCmis_ready hState hCmis hBack map media ready hNet hReady).trans ?_) (clearLow_quiet flat p hq)
      exact congrArg (fun x : Port => u.setPort p { x with cmisOk := true }) (clearLow_port flat p s)
    · intro v
      exact forUnit_done wf (readCmis_unready hState hCmis hBack map media ready hNet hReady) (clearLow_quiet flat p hq)
    · have hFails := forUnit_settled wf (readCmis_noBus hState hCmis hBack map media ready hNet)
      exact hFails.trans (forUnit_settled wf (readCmis_noAnswer hState hCmis hBack hTime)).symm
    · refine forUnit_settled wf ((readCmis_noAnswer hState hCmis hBack hTime).trans ?_)
      rw [cmisFails, setMirror_empty]
      rfl
  · intro u
    refine forUnit_done wf ((readCmis_backplane hState hCmis hBack r).trans ?_) hq
    rw [setMirror_empty]
    rfl
  · refine forUnit_done wf ?_ hq
    rw [trainTimeout_late (by simp [hState, hIdent]), ite_self]
  · exact forUnit_settled wf ((if_pos hTime).trans (trainTimeout_down h))
  · exact forUnit_done wf (if_neg (ne_true_of_eq_false hTime)) hq
  · exact forUnit_done wf (if_neg (ne_true_of_eq_false hTime)) hq
  · refine forUnit_done wf ((if_pos hTime).trans (retryPort_starts h)) ?_
    split <;> exact hq
  · intro coord port u u u
    exact ⟨fun hWired => forUnit_settled wf (compareIdent_up hState hIdent hWired),
      fun hWired => forUnit_settled wf (compareIdent_miswired hState hIdent hWired)⟩
  · refine forUnit_done wf ?_ hq
    rw [trainTimeout_late (by simp [hState]), ite_self]
  · refine forUnit_done wf ?_ hq
    rw [retryPort_other (by simp [hState]), ite_self]
  · exact forUnit_done wf (compareIdent_other (by simp [hState])) hq
  · exact forUnit_done wf (lanesTrained_other (by simp [hState])) hq

end Sys2Proof.Machine
end

section
/-!
PROOFS. Link units, acknowledgements and resends (R267 to R271).
-/

namespace Sys2Proof.Machine

section
variable {s : State} {p : Nat}

/-! ### Units -/

/-- What the FEC did with a unit is counted. -/
def fecCounted (p : Nat) (u : LinkUnit) (s : State) : State :=
  let v := if u.fecFixed = 0 then s else count 0x5860 (p + 1) u.fecFixed s
  if u.fecBad then count 0x5861 (p + 1) 1 v else v

theorem badUnit_asks (h : (s.port p).rxDiscard = false) : badUnit p s = sendBare p true 0 0 (s.setPort p { s.port p with rxDiscard := true }) :=
  if_neg (ne_true_of_eq_false h)

theorem badUnit_asked (h : (s.port p).rxDiscard = true) : badUnit p s = s := if_pos h

theorem receiveUnit_bad (hState : portState s p = 3 ∨ portState s p = 4) {u : LinkUnit} (hGood : unitGood u = false) :
    receiveUnit p u s = badUnit p (fecCounted p u s) := by
  rw [receiveUnit, if_pos hState]
  exact if_neg (ne_true_of_eq_false hGood)

theorem receiveUnit_closed (h : ¬ (portState s p = 3 ∨ portState s p = 4)) (u : LinkUnit) : receiveUnit p u s = s := if_neg h

theorem doNak_closed (h : ¬ (portState s p = 3 ∨ portState s p = 4)) (ack : Nat) : doNak p ack s = s := if_neg h

theorem doReplayTimeout_closed (h : ¬ (portState s p = 3 ∨ portState s p = 4)) : doReplayTimeout p s = s := if_neg fun hBoth => h hBoth.1

/-! ### Frames of good units -/

section
variable {seq vl : Nat} {f : Frame}

theorem takeFrame_expected (hSeq : seqCmp 16 seq (s.port p).rxNext = .expected) (hType : f.type ≠ 8) (hRoom : frameUnits f ≤ rxRoom (s.port p) vl) :
    takeFrame p seq vl f s = sendBare p false 0 0 ((count 0x5864 (p + 1) f.bytes s).setPort p { s.port p with
      rxNext := (s.port p).rxNext + 1
      rxDiscard := false
      rx := lset (s.port p).rx vl (lget [] (s.port p).rx vl ++ [f]) }) := by
  have hFits : ¬ (f.type ≠ 8 ∧ rxRoom (s.port p) vl < frameUnits f) := fun h => absurd h.2 (Nat.not_lt.2 hRoom)
  simp only [takeFrame, hSeq, if_neg hFits, acceptFrame, if_neg hType]

theorem takeFrame_later (hSeq : seqCmp 16 seq (s.port p).rxNext = .later) : takeFrame p seq vl f s = badUnit p s := by
  simp only [takeFrame, hSeq]

theorem takeFrame_earlier (hSeq : seqCmp 16 seq (s.port p).rxNext = .earlier) : takeFrame p seq vl f s = sendBare p false 0 0 s := by
  simp only [takeFrame, hSeq]

end

/-! ### Resends -/

theorem replay_limit (h : (s.port p).unacked.any (fun u => decide (s.num 0x3012 1 ≤ u.resends)) = true) : replay p s = portDown p 0 s := if_pos h

theorem replay_resends (h : (s.port p).unacked.any (fun u => decide (s.num 0x3012 1 ≤ u.resends)) = false) (hSome : (s.port p).unacked ≠ []) :
    let l := (s.port p).unacked.map fun u => { u with resends := u.resends + 1 }
    replay p s = l.foldl (fun t u => emitUnit p u t) (count 0x5862 (p + 1) l.length (s.setPort p { s.port p with unacked := l })) := by
  intro l
  have hl : ¬ l = [] := fun e => hSome (List.map_eq_nil_iff.1 e)
  rw [replay, if_neg (ne_true_of_eq_false h)]
  dsimp only
  rw [if_neg hl]

end

/-- Settles O48: a unit by what arrived, and the resends by their limit. -/
theorem linkUnitsAreTaken : Obligations.LinkUnitsAreTaken := by
  intro s p hp
  have wf : decide (p < 24) = true := decide_eq_true hp
  refine ⟨fun hState => ⟨fun u => ?_, fun ack => forUnit_settled wf (if_pos hState), fun hSome => forUnit_settled wf (if_pos ⟨hState, hSome⟩)⟩,
    fun h3 h4 hq => ?_, fun seq vl f => ⟨takeFrame_expected, fun hSeq hAsked => ?_, takeFrame_earlier⟩, replay_limit, replay_resends⟩
  · intro v t
    refine ⟨fun hGood => forUnit_settled wf ?_, fun hGood hAsked => forUnit_settled wf ?_, fun hGood hAsked => forUnit_settled wf ?_⟩
    · rw [receiveUnit, if_pos hState]
      exact if_pos hGood
    · exact (receiveUnit_bad hState hGood).trans (badUnit_asks hAsked)
    · exact (receiveUnit_bad hState hGood).trans (badUnit_asked hAsked)
  · have hClosed : ¬ (portState s p = 3 ∨ portState s p = 4) := not_or.2 ⟨h3, h4⟩
    exact ⟨fun u => forUnit_done wf (receiveUnit_closed hClosed u) hq, fun ack => forUnit_done wf (doNak_closed hClosed ack) hq,
      forUnit_done wf (doReplayTimeout_closed hClosed) hq⟩
  · exact (takeFrame_later hSeq).trans (badUnit_asks hAsked)

end Sys2Proof.Machine
end

section
/-!
PROOFS. The routing of frames and what the destination checks (R274, R276, R278, R280, R282 to R286, R339, R402).
-/

namespace Sys2Proof.Machine

/-! ### Routing -/

section
variable {s : State} {port : Option Nat} {vl j : Nat} {f : Frame}

theorem takeLane_wanted {want : State → Frame → Bool} (hHead : laneHead s (laneKey port vl) = some f) (hWant : want s f = true) :
    takeLane port vl want s = routeFrame port (vl % 4) f s := by
  simp only [takeLane, hHead, hWant, if_true]

theorem routeFrame_malformed (hOk : frameOk f = false) : routeFrame port vl f s = count 0x5866 (ingressSub port) 1 (leaveLane port vl f s) := by
  simp only [routeFrame, hOk, Bool.not_false, if_true]

/-- A frame of no job here has no route. -/
theorem routeFrame_jobless (hOk : frameOk f = true) (hJob : frameJob s f.jobId = none)
    (hNone : jobOfId (count 0x5865 (ingressSub port) 1 (leaveLane port vl f s)) f.jobId = none) :
    routeFrame port vl f s = post 0x3004 (ingressSrc port) 0x1F [(1, port.getD 0xFF), (2, f.jobId), (2, f.src), (2, f.dst)]
      (count 0x5865 (ingressSub port) 1 (leaveLane port vl f s)) := by
  simp only [routeFrame, hOk, hJob, dropRoute, hNone, Bool.not_true, Bool.false_eq_true, if_false]

section
variable {t : State} (hOk : frameOk f = true) (hJob : frameJob s f.jobId = some j) (hTaken : s.fab.taken.contains (laneKey port vl) = false)
include hOk hJob hTaken

theorem routeFrame_here (hRoute : routeOf j f.dst s = (.here, t)) : routeFrame port vl f s = deliverFrame port vl j f t := by
  simp only [routeFrame, hOk, hJob, hTaken, hRoute, Bool.not_true, Bool.false_eq_true, if_false]

theorem routeFrame_forwarded {i q : Nat} (hPort : port = some i) (hRoute : routeOf j f.dst s = (.port q, t)) (hHops : f.hops ≠ 0) :
    routeFrame port vl f s = leaveLane port vl f (enqueue q (hoppedFrame f) t) := by
  subst hPort
  simp only [routeFrame, hOk, hJob, hTaken, hRoute, forwardFrame, if_neg hHops, Bool.not_true, Bool.false_eq_true, if_false]

end

theorem forHere_type {type : Nat} (h : forHere type s f = true) : f.type = type := by
  rw [forHere, Bool.and_eq_true] at h
  exact eq_of_beq h.1

/-! ### The checks at the destination -/

theorem deliverFrame_badCrc (hCrc : f.crcOf ≠ f.crc) : deliverFrame port vl j f s = jobFault j 0x12 f.src f.src
    (post 0x3008 (ingressSrc port) j [(2, f.jobId), (2, f.src), (1, port.getD 0xFF)]
      (count 0x5867 (ingressSub port) 1 (leaveLane port vl f s))) := if_pos hCrc

section
variable (hCrc : f.crcOf = f.crc)
include hCrc

theorem deliverFrame_ctrl (hType : f.type = 6) : deliverFrame port vl j f s = sinkFrame port vl j f s := by
  rw [deliverFrame, if_neg (not_not.2 hCrc), if_pos hType]

theorem deliverFrame_fell (hType : f.type = 7) : deliverFrame port vl j f s = takeFell j f (leaveLane port vl f s) := by
  have hOther : ¬ f.type = 6 := by omega
  rw [deliverFrame, if_neg (not_not.2 hCrc), if_neg hOther, if_pos hType]

section
variable (hCtrl : f.type ≠ 6) (hFell : f.type ≠ 7)
include hCtrl hFell

theorem deliverFrame_closed (hClosed : (s.job j).closedPorts = true) :
    deliverFrame port vl j f s = count 0x5868 (j + 1) 1 (leaveLane port vl f s) := by
  rw [deliverFrame, if_neg (not_not.2 hCrc), if_neg hCtrl, if_neg hFell, if_pos hClosed]

theorem deliverFrame_stale (hOpen : (s.job j).closedPorts = false) (hEpoch : f.epoch ≠ (s.job j).linkEpoch) :
    deliverFrame port vl j f s = staleFrame port j f (leaveLane port vl f s) := by
  rw [deliverFrame, if_neg (not_not.2 hCrc), if_neg hCtrl, if_neg hFell, if_neg (ne_true_of_eq_false hOpen), if_pos hEpoch]

end

section
variable (hOpen : (s.job j).closedPorts = false) (hEpoch : f.epoch = (s.job j).linkEpoch)
include hOpen hEpoch

/-- A frame that has passed the checks of its job goes where its TYPE names. -/
theorem deliverFrame_current (hCtrl : f.type ≠ 6) (hFell : f.type ≠ 7) : deliverFrame port vl j f s =
    if f.type = 1 then takeData port vl j f s
    else if f.type = 3 ∨ f.type = 5 then takeAnswer port j f (leaveLane port vl f s)
    else serveRemote j f (leaveLane port vl f s) := by
  rw [deliverFrame, if_neg (not_not.2 hCrc), if_neg hCtrl, if_neg hFell, if_neg (ne_true_of_eq_false hOpen), if_neg (not_not.2 hEpoch)]

theorem deliverFrame_answer (hType : f.type = 3 ∨ f.type = 5) : deliverFrame port vl j f s = takeAnswer port j f (leaveLane port vl f s) := by
  have hData : ¬ f.type = 1 := by omega
  rw [deliverFrame_current hCrc hOpen hEpoch (by omega) (by omega), if_neg hData, if_pos hType]

theorem deliverFrame_remote (hType : f.type = 2 ∨ f.type = 4 ∨ f.type = 9) :
    deliverFrame port vl j f s = serveRemote j f (leaveLane port vl f s) := by
  have hData : ¬ f.type = 1 := by omega
  have hAnswer : ¬ (f.type = 3 ∨ f.type = 5) := by omega
  rw [deliverFrame_current hCrc hOpen hEpoch (by omega) (by omega), if_neg hData, if_neg hAnswer]

theorem deliverFrame_data (hType : f.type = 1) : deliverFrame port vl j f s = takeData port vl j f s := by
  rw [deliverFrame_current hCrc hOpen hEpoch (by omega) (by omega), if_pos hType]

end

end

/-! ### Data frames -/

theorem takeData_closed (h : (chanOf s j f.chan).dir ≠ 2 ∨ (chanOf s j f.chan).peer ≠ f.src) :
    takeData port vl j f s = leaveLane port vl f (count 0x5865 (ingressSub port) 1 s) := if_pos h

section
variable (hDir : (chanOf s j f.chan).dir = 2) (hPeer : (chanOf s j f.chan).peer = f.src)
include hDir hPeer

theorem takeData_expected (hSeq : seqCmp 32 f.seq (tget 0 f.chan (s.job j).rxSeq) = .expected) : takeData port vl j f s =
    sinkFrame port vl j f (s.setJob j { s.job j with rxSeq := tset 0 f.chan (add32 (tget 0 f.chan (s.job j).rxSeq) 1) (s.job j).rxSeq }) := by
  have hOpen : ¬ ((chanOf s j f.chan).dir ≠ 2 ∨ (chanOf s j f.chan).peer ≠ f.src) := by simp [hDir, hPeer]
  simp only [takeData, if_neg hOpen, hSeq]

theorem takeData_earlier (hSeq : seqCmp 32 f.seq (tget 0 f.chan (s.job j).rxSeq) = .earlier) :
    takeData port vl j f s = leaveLane port vl f (count 0x5869 (j + 1) 1 s) := by
  have hOpen : ¬ ((chanOf s j f.chan).dir ≠ 2 ∨ (chanOf s j f.chan).peer ≠ f.src) := by simp [hDir, hPeer]
  simp only [takeData, if_neg hOpen, hSeq]

theorem takeData_later (hSeq : seqCmp 32 f.seq (tget 0 f.chan (s.job j).rxSeq) = .later) : takeData port vl j f s =
    jobFault j 0x11 f.src f.src (leaveLane port vl f (post 0x3007 (ingressSrc port) j
      [(2, f.jobId), (1, f.chan), (2, f.src), (4, tget 0 f.chan (s.job j).rxSeq), (4, f.seq)] s)) := by
  have hOpen : ¬ ((chanOf s j f.chan).dir ≠ 2 ∨ (chanOf s j f.chan).peer ≠ f.src) := by simp [hDir, hPeer]
  simp only [takeData, if_neg hOpen, hSeq]

end

/-! ### Remote requests -/

theorem serveRemote_read (hStatus : remoteStatus s j f = 0) (hType : f.type = 2) :
    serveRemote j f s = (let r := readMasked (f.rlen / 64) 0 f.w2 s
      answerRemote j 3 0 r.1.2 f r.1.1 r.2) := by
  simp [serveRemote, hStatus, hType]

theorem serveRemote_write (hStatus : remoteStatus s j f = 0) (hType : f.type = 4) :
    serveRemote j f s = answerRemote j 5 0 0 f [] (writeMem f.w2 f.payload s) := by
  simp [serveRemote, hStatus, hType]

theorem serveRemote_part (hStatus : remoteStatus s j f = 0) (hType : f.type = 9) :
    serveRemote j f s = answerRemote j 5 0 0 f [] (cohWriteLine f.w2 (fieldOf f.payload 0 8) (sliceOf f.payload 8 64) s) := by
  simp [serveRemote, hStatus, hType]

theorem serveRemote_refused (hStatus : remoteStatus s j f ≠ 0) :
    serveRemote j f s = answerRemote j (if f.type = 2 then 3 else 5) (remoteStatus s j f) 0 f [] s := by
  by_cases hRead : f.type = 2
  · simp only [serveRemote, if_pos hRead, if_pos hStatus]
  · simp only [serveRemote, if_neg hRead, if_pos hStatus]

end

/-- A command that names a TYPE routes the first frame of its lane where it is of that TYPE and for this package. -/
theorem exec_lane {s : State} {port : Option Nat} {vl type : Nat} {f : Frame} {i : Instr} (hPort : ingressOk port = true) (hVl : vl % 4 = vl)
    (hExec : exec i s = forUnit (ingressOk port) (takeLane port vl (forHere type) s)) (hHead : laneHead s (laneKey port vl) = some f)
    (hHere : forHere type s f = true) : exec i s = .next (settle (routeFrame port vl f s)) := by
  rw [hExec, takeLane_wanted hHead hHere, hVl]
  exact forUnit_settled hPort rfl

/-- Settles O49: the routing of the first frame of a lane, and the checks of the destination in their order. -/
theorem framesAreRouted : Obligations.FramesAreRouted := by
  refine ⟨fun s port hPort => ⟨fun vl f hVl hHead => ?_, fun f => exec_lane hPort rfl rfl,
      fun f hHead => ⟨exec_lane hPort rfl rfl hHead, exec_lane hPort rfl rfl hHead, exec_lane hPort rfl rfl hHead⟩,
      fun f hHead => ⟨exec_lane hPort rfl rfl hHead, exec_lane hPort rfl rfl hHead⟩,
      fun f hHead => ⟨exec_lane hPort rfl rfl hHead, exec_lane hPort rfl rfl hHead⟩, fun vl f => ⟨routeFrame_malformed, fun hOk hJob => ?_, ?_⟩, ?_,
      fun j f hStatus => ⟨serveRemote_read hStatus, serveRemote_write hStatus, serveRemote_part hStatus⟩, fun j f k hStatus hBad _ => ?_⟩,
    fun s port vl j f => ?_⟩
  · refine forUnit_settled (by simp [Instr.wf, hPort, hVl]) ?_
    rw [takeLane_wanted hHead rfl, Nat.mod_eq_of_lt hVl]
  · exact routeFrame_jobless hOk hJob
  · intro j t hOk hJob hTaken
    exact ⟨routeFrame_here hOk hJob hTaken, fun q i => routeFrame_forwarded hOk hJob hTaken⟩
  · intro vl f j t hVl hHead hOk hJob hTaken hRoute hCrc gone
    have here {type : Nat} {i : Instr} {u : State} (hExec : exec i s = forUnit (ingressOk port) (takeLane port vl (forHere type) s))
        (hHere : forHere type s f = true) (hDeliver : f.type = type → deliverFrame port vl j f t = u) : exec i s = .next (settle u) := by
      rw [exec_lane hPort (Nat.mod_eq_of_lt hVl) hExec hHead hHere, routeFrame_here hOk hJob hTaken hRoute, hDeliver (forHere_type hHere)]
    refine ⟨?_, ?_, fun hOpen hEpoch => ⟨?_, ?_, ?_, ?_, ?_, ?_⟩⟩
    · rintro rfl hHere
      exact here rfl hHere (deliverFrame_ctrl hCrc)
    · rintro rfl hHere
      exact here rfl hHere (deliverFrame_fell hCrc)
    · rintro rfl hHere
      exact here rfl hHere fun hType => deliverFrame_remote hCrc hOpen hEpoch (.inl hType)
    · rintro rfl hHere
      exact here rfl hHere fun hType => deliverFrame_remote hCrc hOpen hEpoch (.inr (.inl hType))
    · rintro rfl hHere
      exact here rfl hHere fun hType => deliverFrame_remote hCrc hOpen hEpoch (.inr (.inr hType))
    · rintro rfl hHere
      exact here rfl hHere fun hType => deliverFrame_answer hCrc hOpen hEpoch (.inl hType)
    · rintro rfl hHere
      exact here rfl hHere fun hType => deliverFrame_answer hCrc hOpen hEpoch (.inr hType)
    · rintro rfl hHere
      exact here rfl hHere (deliverFrame_data hCrc hOpen hEpoch)
  · subst hStatus
    exact serveRemote_refused hBad
  · intro gone
    refine ⟨deliverFrame_badCrc, fun hCrc => ⟨deliverFrame_ctrl hCrc, deliverFrame_fell hCrc, fun hCtrl hFell =>
      ⟨deliverFrame_closed hCrc hCtrl hFell, deliverFrame_stale hCrc hCtrl hFell, fun hOpen hEpoch =>
        ⟨deliverFrame_answer hCrc hOpen hEpoch, deliverFrame_remote hCrc hOpen hEpoch, fun hType => ?_⟩⟩⟩⟩
    intro c want
    have data {u : State} (h : takeData port vl j f s = u) : deliverFrame port vl j f s = u := (deliverFrame_data hCrc hOpen hEpoch hType).trans h
    exact ⟨fun hClosed => data (takeData_closed hClosed), fun hDir hPeer => ⟨fun hSeq => data (takeData_expected hDir hPeer hSeq),
      fun hSeq => data (takeData_earlier hDir hPeer hSeq), fun hSeq => data (takeData_later hDir hPeer hSeq)⟩⟩

end Sys2Proof.Machine
end

section
/-!
PROOFS. Send rings, delivered records and timeouts (R277, R284, R288, R289).
-/

namespace Sys2Proof.Machine

/-! ### The send ring -/

section
variable {s : State} {j : Nat}

section
variable (hRun : isRunning s j = true) (hOn : sendRingOn s j = true) (hOpen : (s.job j).sendStopped = false)
include hRun hOn hOpen

theorem ringSend_moves {v : Nat} (hFits : sub32 (v % 2 ^ 32) (s.job j).sendCons ≤ sendSlots s j) :
    ringSend j v s = s.setJob j { s.job j with sendProd := v % 2 ^ 32 } := by
  simp only [ringSend, hRun, hOn, hOpen, Bool.not_false, Bool.and_self, if_true, if_neg (Nat.not_lt.2 hFits)]

theorem ringSend_stops {v : Nat} (hPast : sendSlots s j < sub32 (v % 2 ^ 32) (s.job j).sendCons) :
    ringSend j v s = sendMalformed j (sendNext (s.job j)) 0 s := by
  simp only [ringSend, hRun, hOn, hOpen, Bool.not_false, Bool.and_self, if_true, if_pos hPast]

section
variable (hWaits : sendNext (s.job j) ≠ (s.job j).sendProd) {l : List Byte} {t : State}
  (hRead : jobRead j (sendBase s j + 64 * (sendNext (s.job j) % sendSlots s j)) 64 s = (.ok l, t))
include hWaits hRead

theorem takeSend_malformed {o : Nat} (hBad : sendBad t j l = some o) : takeSend j s = sendMalformed j (sendNext (s.job j)) o t := by
  have hNext : (sendNext (s.job j) != (s.job j).sendProd) = true := bne_iff_ne.2 hWaits
  simp only [takeSend, hRun, hOn, hOpen, hNext, Bool.not_false, Bool.and_self, if_true, hRead, hBad]

theorem takeSend_sends {b : List Byte} {u : State} (hGood : sendBad t j l = none)
    (hPayload : jobRead j (fieldOf l 8 8) (fieldOf l 0 8 % 2 ^ 13) t = (.ok b, u)) : takeSend j s = sendOne j l b u := by
  have hNext : (sendNext (s.job j) != (s.job j).sendProd) = true := bne_iff_ne.2 hWaits
  simp only [takeSend, hRun, hOn, hOpen, hNext, Bool.not_false, Bool.and_self, if_true, hRead, hGood, hPayload]

end

end

theorem ringSend_idle (hIdle : isRunning s j = false) (v : Nat) : ringSend j v s = s := by
  simp only [ringSend, hIdle, Bool.false_and, Bool.false_eq_true, if_false]

theorem takeSend_idle (hIdle : isRunning s j = false) : takeSend j s = s := if_neg (by rw [hIdle]; simp)

end

/-! ### Lanes -/

section
variable {s : State}

theorem stallLane_empty {p vl : Nat} (h : lget [] (s.port p).rx vl ++ lget [] (s.port p).tx vl = []) : stallLane p vl s = s := if_pos h

theorem stallLane_faults {p vl : Nat} (h : lget [] (s.port p).rx vl ++ lget [] (s.port p).tx vl ≠ []) :
    let l := lget [] (s.port p).rx vl ++ lget [] (s.port p).tx vl
    let jobs := runningJobs s (fun j => s.jobState j != 0 && l.any fun f => f.jobId == (s.job j).desc.jobId)
    stallLane p vl s = jobs.foldl (fun t k => jobFault k 0x10 (p * 4 + vl) noSubject t)
      (post 0x3005 (src 4 p) 0x1F [(1, p), (1, vl), (2, maskOf jobs)] s) := if_neg h

theorem retryLane_free {port : Option Nat} {vl : Nat} (h : s.fab.taken.contains (laneKey port vl) = false) : retryLane port vl s = s :=
  if_neg (ne_true_of_eq_false h)

theorem retryLane_waits {port : Option Nat} {vl : Nat} {f : Frame} (h : s.fab.taken.contains (laneKey port vl) = true)
    (hHead : laneHead s (laneKey port vl) = some f) : retryLane port vl s = routeFrame port (vl % 4) f s := by
  rw [retryLane, if_pos h, takeLane_wanted hHead rfl]

end

/-- Settles O50: a doorbell and a descriptor by the state of the ring, and the timeouts while the counter runs. -/
theorem sendRingsAndTimeouts : Obligations.SendRingsAndTimeouts := by
  intro s j hq hj
  have wf : decide (j < 16) = true := decide_eq_true hj
  refine ⟨fun hRun hOn hOpen => ⟨fun v hFits => forUnit_done wf (ringSend_moves hRun hOn hOpen hFits) hq,
      fun v hPast => forUnit_settled wf (ringSend_stops hRun hOn hOpen hPast), fun hWaits => ?_⟩,
    fun hIdle => ⟨fun v => forUnit_done wf (ringSend_idle hIdle v) hq, forUnit_done wf (takeSend_idle hIdle) hq⟩,
    fun hTime tag => forUnit_settled rfl (if_pos hTime),
    fun hTime => ⟨fun tag => forUnit_done rfl (if_neg (ne_true_of_eq_false hTime)) hq, fun p vl hp hVl => ?_⟩, fun hTime p vl hp hVl => ?_,
    fun port hPort => ⟨fun hData hCtrl => ?_, fun f hData hHead => ?_⟩⟩
  · intro i l t hRead
    exact ⟨fun o hBad => forUnit_settled wf (takeSend_malformed hRun hOn hOpen hWaits hRead hBad),
      fun b u hGood hPayload => forUnit_settled wf (takeSend_sends hRun hOn hOpen hWaits hRead hGood hPayload)⟩
  · exact forUnit_done (by simp [Instr.wf, hp, hVl]) (if_neg (ne_true_of_eq_false hTime)) hq
  · intro l jobs
    have wfLane : Instr.wf (.vlStall p vl) = true := by simp [Instr.wf, hp, hVl]
    exact ⟨fun hNone => forUnit_done wfLane ((if_pos hTime).trans (stallLane_empty hNone)) hq,
      fun hSome => forUnit_settled wfLane ((if_pos hTime).trans (stallLane_faults hSome))⟩
  · refine forUnit_done hPort ?_ hq
    rw [retryLane_free hData, retryLane_free hCtrl]
  · intro t hCtrl
    refine forUnit_settled hPort ?_
    rw [retryLane_waits hData hHead]
    exact retryLane_free hCtrl

end Sys2Proof.Machine
end

section
/-!
PROOFS. Collectives: their queue, their start, their work and their end (R304 to R311, R314, R317, R319, R323, R387).
-/

namespace Sys2Proof.Machine

/-! ### The collective queue -/

section
variable {s : State} {j : Nat}

theorem ringCol_moves {v : Nat} (hRun : isRunning s j = true) (hOn : colQueueOn s j = true)
    (hFits : sub32 (v % 2 ^ 32) (s.num 0x3804 (j + 1)) ≤ colSlots s j) : ringCol j v s = s.setJob j { s.job j with colProd := v % 2 ^ 32 } := by
  simp only [ringCol, hRun, hOn, Bool.and_self, Bool.not_true, Bool.false_eq_true, if_false, if_neg (Nat.not_lt.2 hFits)]

theorem ringCol_stops {v : Nat} (hRun : isRunning s j = true) (hOn : colQueueOn s j = true)
    (hPast : colSlots s j < sub32 (v % 2 ^ 32) (s.num 0x3804 (j + 1))) : ringCol j v s = colMalformed j 0xFF (s.num 0x3804 (j + 1)) 0 s := by
  simp only [ringCol, hRun, hOn, Bool.and_self, Bool.not_true, Bool.false_eq_true, if_false, if_pos hPast]

theorem ringCol_idle (hIdle : isRunning s j = false) (v : Nat) : ringCol j v s = s := if_pos (by rw [hIdle]; rfl)

theorem takeColl_takes {raw : List Byte} {t : State} (hTakes : takesWork s j = true) (hOn : colQueueOn s j = true)
    (hProd : (s.job j).colProd ≠ s.num 0x3804 (j + 1)) (hOpen : s.num 0x3803 (j + 1) = 0)
    (hRoom : (s.job j).colls.all (fun l => decide (l.length < 256)) = true)
    (hRead : jobRead j (colBase s j + 64 * (s.num 0x3804 (j + 1) % colSlots s j)) 64 s = (.ok raw, t)) :
    takeColl j s = joinColl j (s.num 0x3804 (j + 1)) raw t := by
  have hMay : (takesWork s j && colQueueOn s j && (s.job j).colProd != s.num 0x3804 (j + 1) && s.num 0x3803 (j + 1) == 0
      && (s.job j).colls.all (fun l => decide (l.length < 256))) = true := by
    simp only [hTakes, hOn, hRoom, bne_iff_ne.2 hProd, beq_iff_eq.2 hOpen, Bool.and_self]
  refine (if_pos hMay).trans ?_
  rw [hRead]

theorem takeColl_empty (hProd : (s.job j).colProd = s.num 0x3804 (j + 1)) : takeColl j s = s := if_neg (by simp [hProd])

/-- The state once the CONS of the collective queue is past a descriptor. -/
def colTaken (j index : Nat) (s : State) : State := colPut j 64 (add32 index 1) (s.setNum 0x3804 (j + 1) (add32 index 1))

theorem joinColl_joins {index : Nat} {raw : List Byte} (hGood : lowestBad (collChecks ((colTaken j index s).topo j) (newColl index raw)) = none) :
    joinColl j index raw s = setColls j (newColl index raw).path
      (collsOf (colTaken j index s) j (newColl index raw).path ++ [newColl index raw]) (colTaken j index s) := by
  rw [colTaken] at hGood ⊢
  rw [joinColl]
  rw [hGood]

theorem joinColl_malformed {index o : Nat} {raw : List Byte}
    (hBad : lowestBad (collChecks ((colTaken j index s).topo j) (newColl index raw)) = some o) :
    joinColl j index raw s = colMalformed j (newColl index raw).path index o (colTaken j index s) := by
  rw [colTaken] at hBad ⊢
  rw [joinColl]
  rw [hBad]

end

/-! ### The collective at work on a path -/

section
variable {s : State} {j p kind : Nat} {begin work : Coll → State → State}

theorem runColl_of_none (hNone : workingColl s j p kind = none) : runColl kind j p begin work s = s := by
  simp only [runColl, hNone]

section
variable {c : Coll} (hWork : workingColl s j p kind = some c) (hPath : pathWorks s j p = true)
include hWork hPath

theorem runColl_works (hStarted : c.started = true) : runColl kind j p begin work s = work c s := by
  simp only [runColl, hWork, hPath, hStarted, Bool.not_true, Bool.false_eq_true, if_false, if_true]

theorem runColl_waits {t : State} (hStarted : c.started = false) (hWait : waitRead j c.waitAddr c.waitVal s = (.ok false, t)) :
    runColl kind j p begin work s = t := by
  simp only [runColl, hWork, hPath, hStarted, hWait, Bool.not_true, Bool.false_eq_true, if_false]

theorem runColl_starts {t u : State} {m : Bool} (hStarted : c.started = false) (hWait : waitRead j c.waitAddr c.waitVal s = (.ok true, t))
    (hMember : memberOf j c t = (.ok m, u)) : runColl kind j p begin work s =
      begin { c with started := true, member := m } (putColl j p { c with started := true, member := m } u) := by
  simp only [runColl, hWork, hPath, hStarted, hWait, hMember, Bool.not_true, Bool.false_eq_true, if_false]

end

end

section
variable {s : State} {j p : Nat}

theorem doBroadcast_eq : doBroadcast j p s =
    runColl 2 j p (fun c s => broadcastSteps j p (c.frames - c.next) s) (fun c s => broadcastSteps j p (c.frames - c.next) s) s := rfl

theorem doReduceHop_of_none (hNone : workingColl s j p 1 = none) : doReduceHop j p s = s := by
  simp only [doReduceHop, hNone]

theorem doReduceHop_steps {c : Coll} (hWork : workingColl s j p 1 = some c) (hStarted : c.started = true) (hPath : pathWorks s j p = true) :
    doReduceHop j p s = reduceStep j p c s := by
  simp only [doReduceHop, hWork, if_pos (And.intro hStarted hPath)]

section
variable {c : Coll} (hShape : ∀ ch ∈ (rolesOf (s.topo j) ((s.topo j).path p) c).1, ∀ l, (inboxOf s j ch).head? = some l →
  l.length = 66 * (frameBlocks c c.next).2)
include hShape

/-- No frame at hand has another length than the next frame's. -/
theorem frames_fit : ((rolesOf (s.topo j) ((s.topo j).path p) c).1.filterMap fun ch => (inboxOf s j ch).head?.map (ch, ·)).find?
    (fun e => e.2.length != 66 * (frameBlocks c c.next).2) = none := by
  rw [List.find?_eq_none]
  intro e he
  obtain ⟨ch, hch, hHead⟩ := List.mem_filterMap.1 he
  obtain ⟨l, hl, rfl⟩ := Option.map_eq_some_iff.1 hHead
  simp [hShape ch hch l hl]

theorem reduceStep_waits (hHeads : heads s j (rolesOf (s.topo j) ((s.topo j).path p) c).1 = none) : reduceStep j p c s = s := by
  simp only [reduceStep, frames_fit hShape, hHeads]

theorem reduceStep_hops {l : List (List Byte)} {own : List FV} {t : State}
    (hHeads : heads s j (rolesOf (s.topo j) ((s.topo j).path p) c).1 = some l)
    (hOwn : contribution j (frameBlocks c c.next).1 (frameBlocks c c.next).2 c
      (popInbox j (rolesOf (s.topo j) ((s.topo j).path p) c).1 s) = (.ok own, t)) :
    reduceStep j p c s = hopFrame j p (frameBlocks c c.next).1 (frameBlocks c c.next).2 c own l t := by
  simp only [reduceStep, frames_fit hShape, hHeads, hOwn]

end

/-! ### The end of a collective -/

/-- The state once the oldest collective of a path has completed. -/
def collCompleted (j p : Nat) (r : List Coll) (s : State) : State :=
  colPut j (4 * p) (add32 (lget 0 (s.job j).colDone p) 1) (count 0x5870 (j + 1) 1
    (s.setJob j { s.job j with colls := lset (s.job j).colls p r, colDone := lset (s.job j).colDone p (add32 (lget 0 (s.job j).colDone p) 1) }))

theorem completeAndSwitch_of_none (hNone : collsOf s j p = []) : completeAndSwitch j p s = s := by
  have hComplete : completeColl j p s = s := by simp only [completeColl, hNone]
  simp only [completeAndSwitch, hNone, hComplete]

section
variable {c : Coll} {r : List Coll} (hColls : collsOf s j p = c :: r) (hFin : c.fin = true) (hPath : pathWorks s j p = true)
  (hHeld : framesHeld s j c = false)
include hColls hFin hPath hHeld

theorem completeColl_completes : completeColl j p s = collCompleted j p r s := by
  have hReady : ¬ ((!c.fin || !pathWorks s j p || framesHeld s j c) = true) := by simp [hFin, hPath, hHeld]
  simp only [completeColl, hColls, if_neg hReady, collCompleted]

theorem completeAndSwitch_completes (h : c.kind ≠ 3 ∨ (collCompleted j p r s).jobState j ≠ 3) :
    completeAndSwitch j p s = collCompleted j p r s := by
  have hNo : ¬ (c.kind = 3 ∧ (collCompleted j p r s).jobState j = 3 ∧ (collsOf (collCompleted j p r s) j p).length < (c :: r).length) :=
    fun hAll => h.elim (fun h => h hAll.1) fun h => h hAll.2.1
  simp only [completeAndSwitch, completeColl_completes hColls hFin hPath hHeld]
  rw [hColls]
  exact if_neg hNo

theorem completeAndSwitch_switches (hKind : c.kind = 3) (hState : (collCompleted j p r s).jobState j = 3)
    (hLeft : (collsOf (collCompleted j p r s) j p).length ≤ r.length) :
    completeAndSwitch j p s = endSwitch j c (collCompleted j p r s) := by
  have hAll : c.kind = 3 ∧ (collCompleted j p r s).jobState j = 3 ∧ (collsOf (collCompleted j p r s) j p).length < (c :: r).length :=
    ⟨hKind, hState, Nat.lt_succ_of_le hLeft⟩
  simp only [completeAndSwitch, completeColl_completes hColls hFin hPath hHeld]
  rw [hColls]
  exact if_pos hAll

end

end

/-- Settles O51: the queue, the collective at work by its kind, and the completion of the oldest one. -/
theorem collectivesWork : Obligations.CollectivesWork := by
  refine ⟨fun s j v hq hj => ?_, fun s j p hj hp => ?_⟩
  · intro cons q
    have wf : decide (j < 16) = true := decide_eq_true hj
    refine ⟨fun hRun hOn => ⟨fun hFits => forUnit_done wf (ringCol_moves hRun hOn hFits) hq,
        fun hPast => forUnit_settled wf (ringCol_stops hRun hOn hPast)⟩, fun hIdle => forUnit_done wf (ringCol_idle hIdle v) hq,
      fun hTakes hOn hProd hOpen hRoom raw t hRead => ?_, fun hProd => forUnit_done wf (takeColl_empty hProd) hq⟩
    intro c u
    have taken := takeColl_takes hTakes hOn hProd hOpen hRoom hRead
    exact ⟨fun hGood => forUnit_settled wf (taken.trans (joinColl_joins hGood)),
      fun o hBad => forUnit_settled wf (taken.trans (joinColl_malformed hBad))⟩
  · have wf : (decide (j < 16) && decide (p < 16)) = true := by simp [hj, hp]
    refine ⟨fun hPath => ⟨fun c t m u hStarted hWait hMember => ?_, fun c k hWork hStarted hq t hWait ht => ?_, fun c hStarted => ?_⟩,
      fun hq => ?_, fun c r hColls hFin hPath hHeld => ?_, fun hNone hq => forUnit_done wf (completeAndSwitch_of_none hNone) hq⟩
    · intro d v
      exact ⟨fun hWork => forUnit_settled wf (runColl_starts hWork hPath hStarted hWait hMember),
        fun hWork => forUnit_settled wf (runColl_starts hWork hPath hStarted hWait hMember),
        fun hWork => forUnit_settled wf (doBroadcast_eq.trans (runColl_starts hWork hPath hStarted hWait hMember)),
        fun hWork hMay => forUnit_settled wf ((if_pos hMay).trans (runColl_starts hWork hPath hStarted hWait hMember))⟩
    · refine ⟨?_, ?_, ?_, ?_⟩
      · rintro rfl
        exact forUnit_done wf (runColl_waits hWork hPath hStarted hWait) ht
      · rintro rfl
        exact forUnit_done wf (runColl_waits hWork hPath hStarted hWait) ht
      · rintro rfl
        exact forUnit_done wf (doBroadcast_eq.trans (runColl_waits hWork hPath hStarted hWait)) ht
      · rintro rfl hMay
        exact forUnit_done wf ((if_pos hMay).trans (runColl_waits hWork hPath hStarted hWait)) ht
    · refine ⟨fun hWork => forUnit_settled wf (doBroadcast_eq.trans (runColl_works hWork hPath hStarted)),
        fun hWork hMay => forUnit_settled wf ((if_pos hMay).trans (runColl_works hWork hPath hStarted)), fun hWork => ?_⟩
      intro b inc hShape
      have hop := doReduceHop_steps hWork hStarted hPath
      exact ⟨fun hq hHeads => forUnit_done wf (hop.trans (reduceStep_waits hShape hHeads)) hq,
        fun l hHeads own t hOwn => forUnit_settled wf (hop.trans (reduceStep_hops hShape hHeads hOwn))⟩
    · refine ⟨fun hNone => forUnit_done wf (runColl_of_none hNone) hq,
        fun hNone => ⟨forUnit_done wf (runColl_of_none hNone) hq, forUnit_done wf (doReduceHop_of_none hNone) hq⟩,
        fun hNone => forUnit_done wf (doBroadcast_eq.trans (runColl_of_none hNone)) hq, fun hNone => forUnit_done wf ?_ hq⟩
      rcases hNone with hNone | hNone
      · rw [runColl_of_none hNone, ite_self]
      · exact if_neg (ne_true_of_eq_false hNone)
    · intro x v w
      exact ⟨fun h => forUnit_settled wf (completeAndSwitch_completes hColls hFin hPath hHeld h),
        fun hKind hState hLeft => forUnit_settled wf (completeAndSwitch_switches hColls hFin hPath hHeld hKind hState hLeft)⟩

end Sys2Proof.Machine
end

section
/-!
PROOFS. How two transit blocks combine (R311, R312).
-/

namespace Sys2Proof.Machine

/-- An integer divided by 1 is itself. -/
theorem rsh_zero (v : Int) : rsh v 0 = v := by
  have hExact : roundAt .rne v.natAbs 0 0 = v.natAbs := by simp [roundAt]
  have hSign : rsh v 0 = if v < 0 then -(v.natAbs : Int) else (v.natAbs : Int) := by simp [rsh, ofInt, scaleBy, roundInt, hExact]
  rw [hSign]
  split <;> omega

theorem map_rsh_zero (l : List Int) : l.map (rsh · 0) = l := by
  simp [rsh_zero]

theorem combine_poisoned {a b : Block} (h : a.poisoned = true ∨ b.poisoned = true) : combine a b = poisonBlock 32 false false := by
  rw [combine, if_pos (by simpa using h)]

theorem combine_comm (a b : Block) : combine a b = combine b a := by
  have hPoison : (a.poisoned || b.poisoned) = (b.poisoned || a.poisoned) := Bool.or_comm _ _
  have hScale : max a.scale b.scale = max b.scale a.scale := max_comm _ _
  have hSums (x : Nat) : List.zipWith (· + ·) (a.ints.map (rsh · (x - a.scale))) (b.ints.map (rsh · (x - b.scale))) =
      List.zipWith (· + ·) (b.ints.map (rsh · (x - b.scale))) (a.ints.map (rsh · (x - a.scale))) := List.zipWith_comm_of_comm fun u v => Int.add_comm u v
  simp only [combine, hPoison, hScale, hSums]

theorem combine_fits {a b : Block} (ha : a.poisoned = false) (hb : b.poisoned = false) (hScale : a.scale = b.scale)
    (hFits : (List.zipWith (· + ·) a.ints b.ints).all qr16Fits = true) :
    combine a b = blockOfInts a.scale (List.zipWith (· + ·) a.ints b.ints) false := by
  simp only [combine, ha, hb, ← hScale, Nat.max_self, Nat.sub_self, map_rsh_zero, hFits, Bool.or_self, Bool.false_eq_true, if_false, if_true]

/-- Settles O52. -/
theorem blocksCombine : Obligations.BlocksCombine :=
  fun a b => ⟨combine_comm a b, combine_poisoned, combine_fits⟩

end Sys2Proof.Machine
end

section
/-!
PROOFS. The landing queue and the work on a layer (R336, R337, R344, R346 to R351, R356, R360).
-/

namespace Sys2Proof.Machine

/-! ### The landing queue -/

section
variable {s : State} {j : Nat}

theorem ringLu_idle (hStopped : luRunning s j = false) (v : Nat) : ringLu j v s = s := if_pos (by simp [hStopped])

section
variable (hRun : isRunning s j = true) (hOn : luQueueOn s j = true) (hQueue : luRunning s j = true)
include hRun hOn hQueue

theorem ringLu_takes {v : Nat} (hFits : sub32 (v % 2 ^ 32) (s.job j).luCons ≤ luSlots s j) :
    ringLu j v s = takeLuAll j (s.setJob j { s.job j with luProd := v % 2 ^ 32 }) := by
  simp only [ringLu, hRun, hOn, hQueue, Bool.and_self, Bool.not_true, Bool.false_eq_true, if_false, if_neg (Nat.not_lt.2 hFits)]

theorem ringLu_stops {v : Nat} (hPast : luSlots s j < sub32 (v % 2 ^ 32) (s.job j).luCons) :
    ringLu j v s = luStateFault j s (luStopped j 0 (s.job j).luCons 1 0 s) := by
  simp only [ringLu, hRun, hOn, hQueue, Bool.and_self, Bool.not_true, Bool.false_eq_true, if_false, if_pos hPast]

end

section
variable {kind : Nat} {work : LuOp → State → State} {u : State} (hTaken : takeLuAll j s = u)
include hTaken

theorem runLu_of_none (hNone : luReady u j kind = none) : runLu kind j work s = u := by
  simp only [runLu, hTaken, hNone]

variable {o : LuOp} {t : State} (hReady : luReady u j kind = some o)
include hReady

theorem runLu_works (hWait : waitRead j o.waitAddr o.waitVal u = (.ok true, t)) : runLu kind j work s = work o t := by
  simp only [runLu, hTaken, hReady, hWait]

theorem runLu_waits (hWait : waitRead j o.waitAddr o.waitVal u = (.ok false, t)) : runLu kind j work s = t := by
  simp only [runLu, hTaken, hReady, hWait]

end

theorem completeLu_of_none (hNone : (s.job j).luOps.find? (fun o => o.done && !o.completed) = none) : completeLu j s = s := by
  simp only [completeLu, hNone]

theorem completeLu_completes {o : LuOp} (hSome : (s.job j).luOps.find? (fun o => o.done && !o.completed) = some o) :
    let u := luEffect j o (dropResult j o (putLu j { o with completed := true } s))
    let x := u.job j
    let x := if o.kind = 3 ∧ o.status = 0 then { x with lastStep := max x.lastStep o.step } else x
    let r := retireLu x.luOps 0
    let w := u.setJob j { x with luOps := r.1, luRetired := add32 x.luRetired r.2 }
    completeLu j s = if r.2 = 0 then w else luPut j 4 (add32 x.luRetired r.2) w := by
  simp only [completeLu, hSome]

end

/-! ### The work on a layer

In these proofs the reads and writes of an operation stand as variables, so that the kernel does not run them. -/

section
variable {s t u : State} {j : Nat} {o : LuOp}

theorem landing_of_bad_layer {e : LuBad} (hLayer : luLayer j o s = (.error e, t)) :
    orthoWork j o s = failLu j o e t ∧ normWork j o s = failLu j o e t ∧ updateWork j o s = failLu j o e t := by
  refine ⟨?_, ?_, ?_⟩
  · rw [orthoWork, hLayer]
  · rw [normWork, hLayer]
  · rw [updateWork, hLayer]

section
variable {x : Layer} (hLayer : luLayer j o s = (.ok x, t))
include hLayer

/-- The basis that an ORTHO writes: the orthonormal columns of its sum, or zeros for a void layer. -/
def basisColumns (o : LuOp) (x : Layer) (t : State) : List (List Nat) :=
  let blocks := sumBlocks t o (x.rows * x.rank)
  let rows := rowsOf x.rank x.rows (sumCodes (topExp blocks) (x.rows * x.rank) blocks)
  if blocks.any Block.poisoned then List.replicate x.rank (List.replicate x.rows 0)
  else orthoColumns ((List.range x.rank).map fun k => columnOf k rows)

/-- The writes of an ORTHO: the basis, the STATUS of a void layer, X_P and ORTHO_DONE. -/
def orthoStores (o : LuOp) (x : Layer) (t : State) : List (Nat × List Byte) :=
  let blocks := sumBlocks t o (x.rows * x.rank)
  (x.basis, basisBytes x (basisColumns o x t)) :: ((if blocks.any Block.poisoned then [(x.stateAddr + 12, leBytes 1 1)] else [])
    ++ [(x.stateAddr + 13, leBytes 1 (topExp blocks))] ++ [(x.stateAddr + 4, leBytes 4 o.step32)])

theorem orthoWork_writes (hWrite : luWrite j (orthoStores o x t) t = (none, u)) :
    orthoWork j o s = endLu j o (noteVoid j o ((sumBlocks t o (x.rows * x.rank)).any Block.poisoned) u) := by
  obtain ⟨write, hw⟩ : ∃ f, f = luWrite := ⟨luWrite, rfl⟩
  rw [orthoWork, ← hw, hLayer]
  rw [orthoStores, basisColumns, ← hw] at hWrite
  dsimp only at hWrite ⊢
  exact hWrite ▸ rfl

theorem orthoWork_refused {e : LuBad} (hWrite : luWrite j (orthoStores o x t) t = (some e, u)) : orthoWork j o s = failLu j o e u := by
  obtain ⟨write, hw⟩ : ∃ f, f = luWrite := ⟨luWrite, rfl⟩
  rw [orthoWork, ← hw, hLayer]
  rw [orthoStores, basisColumns, ← hw] at hWrite
  dsimp only at hWrite ⊢
  exact hWrite ▸ rfl

/-- A NORM writes its norm word and GNORM2. -/
theorem normWork_writes {v : Nat} {w : State} (hValue : normValue j o x t = (.ok v, u))
    (hWrite : luWrite j [(x.stateAddr + 20, leBytes 4 v), (o.aux, leBytes 4 v ++ leBytes 4 o.step32)] u = (none, w)) :
    normWork j o s = putLu j { o with done := true } w := by
  obtain ⟨value, hv⟩ : ∃ f, f = normValue := ⟨normValue, rfl⟩
  obtain ⟨write, hw⟩ : ∃ f, f = luWrite := ⟨luWrite, rfl⟩
  rw [normWork, ← hv, ← hw, hLayer]
  rw [← hv] at hValue
  rw [← hw] at hWrite
  dsimp only
  rw [hValue]
  dsimp only
  rw [hWrite]
  rfl

section
variable {c : Nat} {st master : List Nat} {t1 t2 : State} (hClip : clipFactor j o t = (.ok c, t1))
  (hRecord : readCodes j 4 x.stateAddr 16 t1 = (.ok st, t2)) (hMaster : readMaster j x t2 = (.ok master, u))
include hClip hRecord hMaster

/-- What an UPDATE does once its record and its master weights are read. -/
theorem updateWork_read : updateWork j o s =
    (let blocks := sumBlocks u o (x.cols * x.rank)
     let flags := lget 0 st 3 / 2 ^ 24
     if blocks.any Block.poisoned || orthoVoid u j o then voidUpdate j o x 1 (topExp blocks) (mainPath u o x) master flags u
     else if !finF32 c then voidUpdate j o x 2 (topExp blocks) (mainPath u o x) master flags u
     else firstPass j o x c (topExp blocks) (mainPath u o x) master st u) := by
  obtain ⟨clip, hc⟩ : ∃ f, f = clipFactor := ⟨clipFactor, rfl⟩
  obtain ⟨codes, hr⟩ : ∃ f, f = readCodes := ⟨readCodes, rfl⟩
  obtain ⟨weights, hm⟩ : ∃ f, f = readMaster := ⟨readMaster, rfl⟩
  rw [updateWork, ← hc, ← hr, ← hm, hLayer]
  rw [← hc] at hClip
  rw [← hr] at hRecord
  rw [← hm] at hMaster
  dsimp only
  rw [hClip]
  dsimp only
  rw [hRecord]
  dsimp only
  rw [hMaster]

end

end

end

/-- Settles O53: the landing queue, the operation reached, its completion, and the work of each kind on its layer. -/
theorem landingQueueRuns : Obligations.LandingQueueRuns := by
  refine ⟨fun s j v hj => ?_, fun s t u j o => ⟨fun x hLayer => ?_, fun x v hLayer hValue w hWrite => normWork_writes hLayer hValue hWrite,
    fun x c st master t1 t2 hLayer hClip hRecord hMaster => ?_, fun e => landing_of_bad_layer⟩⟩
  · intro p
    have wf : decide (j < 16) = true := decide_eq_true hj
    refine ⟨fun hRun hOn hQueue => ⟨fun hFits => forUnit_settled wf (ringLu_takes hRun hOn hQueue hFits),
        fun hPast => forUnit_settled wf (ringLu_stops hRun hOn hQueue hPast)⟩, fun hStopped hq => forUnit_done wf (ringLu_idle hStopped v) hq,
      fun o t u hTaken hWait => ⟨fun h => ?_, fun h => ?_, fun h => ?_, fun h => ?_⟩,
      fun o t u hTaken hWait ht => ⟨fun h => ?_, fun h => ?_, fun h => ?_, fun h => ?_⟩,
      fun u hTaken hu => ⟨fun h => ?_, fun h => ?_, fun h => ?_, fun h => ?_⟩,
      fun hNone hq => forUnit_done wf (completeLu_of_none hNone) hq, fun o hSome => ?_⟩
    iterate 4 exact forUnit_settled wf (runLu_works hTaken h hWait)
    iterate 4 exact forUnit_done wf (runLu_waits hTaken h hWait) ht
    iterate 4 exact forUnit_done wf (runLu_of_none hTaken h) hu
    intro d off u x x' r w
    exact forUnit_settled wf (completeLu_completes hSome)
  · intro blocks void rows cols stores
    refine ⟨fun hWrite => ?_, fun e hWrite => ?_⟩
    · exact orthoWork_writes hLayer hWrite
    · exact orthoWork_refused hLayer hWrite
  · intro blocks flags
    have read := updateWork_read hLayer hClip hRecord hMaster
    exact ⟨fun hVoid => read.trans (if_pos hVoid), fun hGood hClipBad => read.trans ((if_neg (ne_true_of_eq_false hGood)).trans (if_pos (by rw [hClipBad]; rfl))),
      fun hGood hClipGood => read.trans ((if_neg (ne_true_of_eq_false hGood)).trans (if_neg (by rw [hClipGood]; decide)))⟩

end Sys2Proof.Machine
end

section
/-!
PROOFS. JOB_CTRL, the watchdog, and the signed messages of a job (R368, R373, R375 to R378, R387, R390, R403, R569).
-/

namespace Sys2Proof.Machine

/-! ### JOB_CTRL and JOB_KICK -/

section
variable {s t u : State} {j : Nat}

theorem applyJobCtrl_idle (h : s.jobState j = 0) : applyJobCtrl j 2 s = (stOk, s) := by
  rw [applyJobCtrl, if_pos rfl, stopJob, if_pos h]

theorem applyJobCtrl_stop (h : s.jobState j ≠ 0) :
    let u := issueRemotes (closeJob j ((releaseSlots j (stopWork j s)).jobEpoch j) 1 (releaseSlots j (stopWork j s)))
    applyJobCtrl j 2 s = (stOk, mirrorOff j (setJobState j 0 (u.setJob j { u.job j with watchdog := false }))) := by
  rw [applyJobCtrl, if_pos rfl, stopJob, if_neg h]

/-- START and SPARE of an IDLE context. -/
theorem applyJobCtrl_starts (h : s.jobState j = 0) (spare : Bool) :
    applyJobCtrl j (if spare then 3 else 1) s = (stOk, startJob spare j s) := by
  cases spare with
  | true => exact applyJobCtrl_start (.inr rfl) h
  | false => exact applyJobCtrl_start (.inl rfl) h

theorem startJob_unread {o : Nat} (spare : Bool) (hDesc : readDesc j s = (.error o, t)) : startJob spare j s = refuseStart j 1 o t := by
  rw [startJob, startJobAt, hDesc]

section
variable {spare : Bool} {d : Desc} {ps : List Prot} (hDesc : readDesc j s = (.ok (d, ps), t))
include hDesc

theorem startJob_refused {e : Nat × Nat} (hCheck : startChecks spare j
      (t.setJob j { Job.init with desc := d, prots := ps, front := freshFront (t.job j).front }) = (some e, u)) :
    startJob spare j s = refuseStart j e.1 e.2 (u.setJob j (t.job j)) := by
  rw [startJob, startJobAt, hDesc]
  dsimp only
  rw [hCheck]

theorem startJob_enters (hCheck : startChecks spare j
      (t.setJob j { Job.init with desc := d, prots := ps, front := freshFront (t.job j).front }) = (none, u)) :
    startJob spare j s = enterJob spare j u := by
  rw [startJob, startJobAt, hDesc]
  dsimp only
  rw [hCheck]
  rfl

end

/-! ### Signed messages -/

section
variable {code len : Nat} {l : List Byte} (act : State → State) (hActive : s.jobState j ≠ 0) (hCode : fieldOf l 0 1 = code)
include hActive hCode

theorem signedMsg_bad (hSign : signedOk s j l (len - 96) = false) : signedMsg j code len l act s = badSig j code (msgSender l) s := by
  rw [signedMsg, if_neg (by simp [hActive, hCode]), if_pos (by simp [hSign])]

variable (hLen : l.length = len)
include hLen

theorem signedMsg_stale (hSign : signedOk s j l (len - 96) = true) (hEpoch : msgEpoch l ≠ s.jobEpoch j) : signedMsg j code len l act s = s := by
  rw [signedMsg, if_neg (by simp [hActive, hCode]), if_neg (by simp [hLen, hSign]), if_pos (.inl hEpoch)]

section
variable (hSign : signedOk s j l (len - 96) = true) (hEpoch : msgEpoch l = s.jobEpoch j) (hFaulted : s.jobState j ≠ 6) (hSpare : s.jobState j ≠ 7)
include hSign hEpoch hFaulted hSpare

theorem signedMsg_malformed (hClear : ctrlClear l = false) : signedMsg j code len l act s = dropCtrl j s := by
  rw [signedMsg, if_neg (by simp [hActive, hCode]), if_neg (by simp [hLen, hSign]), if_neg (by simp [hEpoch, hFaulted, hSpare]),
    if_pos (by simp [hClear])]

theorem signedMsg_acts (hClear : ctrlClear l = true) : signedMsg j code len l act s = act s := by
  rw [signedMsg, if_neg (by simp [hActive, hCode]), if_neg (by simp [hLen, hSign]), if_neg (by simp [hEpoch, hFaulted, hSpare]),
    if_neg (by simp [hClear])]

end

/-- A signed message of another epoch. -/
theorem signedMsg_other (hEpoch : msgEpoch l ≠ s.jobEpoch j) :
    signedMsg j code len l act s = if signedOk s j l (len - 96) = true then s else badSig j code (msgSender l) s := by
  cases hSign : signedOk s j l (len - 96) with
  | true => exact signedMsg_stale act hActive hCode hLen hSign hEpoch
  | false => exact signedMsg_bad act hActive hCode hSign

/-- A signed message of the current epoch. -/
theorem signedMsg_current (hEpoch : msgEpoch l = s.jobEpoch j) (hFaulted : s.jobState j ≠ 6) (hSpare : s.jobState j ≠ 7) :
    signedMsg j code len l act s =
      if signedOk s j l (len - 96) then (if ctrlClear l then act s else dropCtrl j s) else badSig j code (msgSender l) s := by
  cases hSign : signedOk s j l (len - 96) with
  | false => exact signedMsg_bad act hActive hCode hSign
  | true =>
    cases hClear : ctrlClear l with
    | true => exact signedMsg_acts act hActive hCode hLen hSign hEpoch hFaulted hSpare hClear
    | false => exact signedMsg_malformed act hActive hCode hLen hSign hEpoch hFaulted hSpare hClear

end

/-- An epoch plan that names no epoch accepted before. -/
theorem takePlan_new {m : PlanMessage} (hActive : s.jobState j ≠ 0) (hCode : fieldOf m.payload 0 1 = 0x22) (hLen : m.payload.length = 384)
    (hNew : (s.job j).accepted.find? (fun e => e.1 == fieldOf m.payload 6 2) = none) :
    takePlan j m s = if signedOk s j m.payload 288 then
        (if ctrlClear m.payload then (if planFits s j m.payload then acceptPlan j m s else s) else dropCtrl j s)
      else badSig j 0x22 (msgSender m.payload) s := by
  rw [takePlan, if_neg (by simp [hActive, hCode])]
  cases hSign : signedOk s j m.payload 288 with
  | false => exact if_pos (by simp)
  | true =>
    rw [if_neg (by simp [hLen])]
    cases hClear : ctrlClear m.payload with
    | false => exact if_pos rfl
    | true =>
      rw [if_neg (by simp), hNew]
      rfl

end

/-- Settles O54: JOB_CTRL by the state of the context, messages of another epoch, and the watchdog. -/
theorem jobControl : Obligations.JobControl := by
  intro s j hj
  have wf : decide (j < 16) = true := decide_eq_true hj
  refine ⟨fun hActive => ⟨applyJobCtrl_busy (.inl rfl) hActive, applyJobCtrl_busy (.inr rfl) hActive, applyJobCtrl_stop hActive⟩,
    fun hIdle => ⟨applyJobCtrl_idle hIdle, fun spare o t hDesc => ?_, fun spare d ps t e u hDesc hCheck => ?_⟩,
    fun hActive l p a b ts hp hLen c hc hCode hEpoch => ?_, if_pos rfl, fun hTime => ⟨fun hArmed hSet => ?_, fun hq hOff => ?_⟩⟩
  · rw [applyJobCtrl_starts hIdle, startJob_unread spare hDesc]
  · rw [applyJobCtrl_starts hIdle]
    cases e with
    | some e => rw [startJob_refused hDesc hCheck]
    | none => rw [startJob_enters hDesc hCheck]
  · simp only [List.mem_cons, List.not_mem_nil, or_false] at hc
    rcases hc with rfl | rfl | rfl | rfl
    · exact forUnit_settled wf (signedMsg_other _ hActive hCode hLen hEpoch)
    · exact forUnit_settled wf (signedMsg_other _ hActive hCode hLen hEpoch)
    · exact forUnit_settled wf (signedMsg_other _ hActive hCode hLen hEpoch)
    · exact forUnit_settled (by simp [Instr.wf, hj, hp]) (signedMsg_other _ hActive hCode hLen hEpoch)
  · exact forUnit_settled wf ((if_pos hTime).trans (if_pos ⟨hArmed, hSet⟩))
  · exact forUnit_done wf ((if_pos hTime).trans (if_neg fun h => Bool.false_ne_true (hOff ▸ h.1))) hq

/-- Settles O55: each signed message of the current epoch, by its signature and its reserved fields. -/
theorem signedMessages : Obligations.SignedMessages := by
  intro s j l hj hActive hFaulted hSpare hEpoch
  have wf : decide (j < 16) = true := decide_eq_true hj
  refine ⟨fun hCode hLen => ?_, fun hCode hLen => ?_, fun hCode hLen => ?_, fun a b ts p hp hCode hLen => ?_, fun hCode hLen hNew m dg => ?_,
    fun hStart => if_pos hStart, fun code sender => rfl⟩
  · exact forUnit_settled wf (signedMsg_current _ hActive hCode hLen hEpoch hFaulted hSpare)
  · exact forUnit_settled wf (signedMsg_current _ hActive hCode hLen hEpoch hFaulted hSpare)
  · exact forUnit_settled wf (signedMsg_current _ hActive hCode hLen hEpoch hFaulted hSpare)
  · exact forUnit_settled (by simp [Instr.wf, hj, hp]) (signedMsg_current _ hActive hCode hLen hEpoch hFaulted hSpare)
  · exact forUnit_settled wf (takePlan_new (m := ⟨l, m, dg⟩) hActive hCode hLen hNew)

end Sys2Proof.Machine
end

section
/-!
PROOFS. What the coordinator of a job hears and takes, and the member lists and timers of a job (R338 to R344, R360, R376, R379, R391, R397 to
R401, R558).
-/

namespace Sys2Proof.Machine

/-! ### Control messages and update records -/

section
variable {s : State} {j code : Nat} {l : List Byte} {mine : Bool} (act : State → State)

theorem taskMsg_acts (hMine : mine = true) (hCode : fieldOf l 0 1 = code) (hEpoch : msgEpoch l = s.jobEpoch j) (hClear : ctrlClear l = true) :
    taskMsg mine j code l act s = act s := by
  rw [taskMsg, if_pos ⟨hMine, hCode, hEpoch⟩, if_pos hClear]

theorem taskMsg_malformed (hMine : mine = true) (hCode : fieldOf l 0 1 = code) (hEpoch : msgEpoch l = s.jobEpoch j)
    (hClear : ctrlClear l = false) : taskMsg mine j code l act s = dropCtrl j s := by
  rw [taskMsg, if_pos ⟨hMine, hCode, hEpoch⟩, if_neg (ne_true_of_eq_false hClear)]

theorem taskMsg_elsewhere (hMine : mine = false) : taskMsg mine j code l act s = s :=
  if_neg fun h => ne_true_of_eq_false hMine h.1

theorem updateMsg_acts (hCoord : isCoord s j = true) (hCode : fieldOf l 0 1 = code) (hEpoch : fieldOf l 4 2 = s.jobEpoch j)
    (hClear : updateClear l = true) : updateMsg j code l act s = act s := by
  rw [updateMsg, if_pos ⟨hCoord, hCode, hEpoch⟩, if_pos hClear]

theorem updateMsg_malformed (hCoord : isCoord s j = true) (hCode : fieldOf l 0 1 = code) (hEpoch : fieldOf l 4 2 = s.jobEpoch j)
    (hClear : updateClear l = false) : updateMsg j code l act s = dropCtrl j s := by
  rw [updateMsg, if_pos ⟨hCoord, hCode, hEpoch⟩, if_neg (ne_true_of_eq_false hClear)]

theorem updateMsg_elsewhere (hCoord : isCoord s j = false) : updateMsg j code l act s = s :=
  if_neg fun h => ne_true_of_eq_false hCoord h.1

end

/-- A stem of a member that is the first of its step, before any list. -/
theorem stemOne_new {s : State} {j step dev : Nat} (a : Nat) (finite : Bool) (hListed : (s.job j).coord.listed = none)
    (hMember : (membersOf s j).contains dev = true) (hNew : (s.job j).coord.stems.any (fun r => r.1 == step && r.2.1 == dev) = false) :
    let stems := (s.job j).coord.stems ++ [(step, dev, finite)]
    let u := setCoord j { (s.job j).coord with stems := stems } s
    stemOne j step dev a finite s = if (stems.filter (·.1 == step)).length = (membersOf s j).length then issueList j step a u else u := by
  rw [stemOne]
  exact (if_neg (by simp [hListed])).trans (if_neg (by rw [hMember, hNew]; simp))

/-- Settles O56: each record by its code, for the coordinator task and the standby. -/
theorem coordinatorTakesRecords : Obligations.CoordinatorTakesRecords := by
  intro s j l hj
  have wf : decide (j < 16) = true := decide_eq_true hj
  refine ⟨fun hHears hEpoch hClear => ⟨fun hCode => ?_, fun hCode => ?_⟩,
    fun hCoord hEpoch hClear => ⟨fun hCode => ?_, fun hCode plans => ?_, fun hCode => ?_⟩,
    fun hCoord hEpoch hClear => ⟨fun hCode a => ?_, fun hCode => ?_⟩,
    fun hEpoch hClear => ⟨fun hHears c hc hCode => ?_, fun hCoord plans c hc hCode => ?_⟩,
    fun hCoord hEpoch hClear a c hc hCode => ?_,
    fun hq => ⟨fun hHears i hi => ?_, fun hCoord plans a i hi => ?_⟩,
    fun step dev a finite hListed hMember hNew => stemOne_new a finite hListed hMember hNew⟩
  · exact forUnit_settled wf (taskMsg_acts _ hHears hCode hEpoch hClear)
  · exact forUnit_settled wf (taskMsg_acts _ hHears hCode hEpoch hClear)
  · exact forUnit_settled wf (taskMsg_acts _ hCoord hCode hEpoch hClear)
  · exact forUnit_settled wf (taskMsg_acts _ hCoord hCode hEpoch hClear)
  · exact forUnit_settled wf (taskMsg_acts _ hCoord hCode hEpoch hClear)
  · exact forUnit_settled wf (updateMsg_acts _ hCoord hCode hEpoch hClear)
  · exact forUnit_settled wf (updateMsg_acts _ hCoord hCode hEpoch hClear)
  · simp only [List.mem_cons, List.not_mem_nil, or_false] at hc
    rcases hc with rfl | rfl
    · exact forUnit_settled wf (taskMsg_malformed _ hHears hCode hEpoch hClear)
    · exact forUnit_settled wf (taskMsg_malformed _ hHears hCode hEpoch hClear)
  · simp only [List.mem_cons, List.not_mem_nil, or_false] at hc
    rcases hc with rfl | rfl | rfl
    · exact forUnit_settled wf (taskMsg_malformed _ hCoord hCode hEpoch hClear)
    · exact forUnit_settled wf (taskMsg_malformed _ hCoord hCode hEpoch hClear)
    · exact forUnit_settled wf (taskMsg_malformed _ hCoord hCode hEpoch hClear)
  · simp only [List.mem_cons, List.not_mem_nil, or_false] at hc
    rcases hc with rfl | rfl
    · exact forUnit_settled wf (updateMsg_malformed _ hCoord hCode hEpoch hClear)
    · exact forUnit_settled wf (updateMsg_malformed _ hCoord hCode hEpoch hClear)
  · simp only [List.mem_cons, List.not_mem_nil, or_false] at hi
    rcases hi with rfl | rfl
    · exact forUnit_done wf (taskMsg_elsewhere _ hHears) hq
    · exact forUnit_done wf (taskMsg_elsewhere _ hHears) hq
  · simp only [List.mem_cons, List.not_mem_nil, or_false] at hi
    rcases hi with rfl | rfl | rfl | rfl | rfl
    · exact forUnit_done wf (taskMsg_elsewhere _ hCoord) hq
    · exact forUnit_done wf (taskMsg_elsewhere _ hCoord) hq
    · exact forUnit_done wf (taskMsg_elsewhere _ hCoord) hq
    · exact forUnit_done wf (updateMsg_elsewhere _ hCoord) hq
    · exact forUnit_done wf (updateMsg_elsewhere _ hCoord) hq

/-! ### Member lists, clip records and the timers -/

section
variable {s : State} {j : Nat}

section
variable (hWorks : takesWork s j = true) {l : List Byte} {step : Nat}
include hWorks

theorem takeList_rejected {o : Nat} (hBad : listBad s j l step = some o) : takeList j l step s = rejectList j step o s := by
  rw [takeList, if_neg (by simp [hWorks]), hBad]

theorem takeList_good (hGood : listBad s j l step = none) :
    takeList j l step s =
      if fieldOf l 10 1 = 1 then skipStep j step s
      else if bit (leNat (l.drop 64)) (s.topo j).ownRank then s
      else post 0x380B (src 9 j) j [(1, j), (8, step), (1, s.num 0x380F (j + 1))] (count 0x587B (j + 1) 1 s) := by
  rw [takeList, if_neg (by simp [hWorks]), hGood]

end

/-- A clip record of the epoch at a package whose job works, by its checks. -/
theorem takeClip_works (hWorks : takesWork s j = true) {l : List Byte} (hCode : fieldOf l 0 1 = 3) (hEpoch : fieldOf l 4 2 = s.jobEpoch j)
    (step a : Nat) :
    takeClip j l step a s =
      if signedOk s j l 64 = false then rejectList j step 64 s
      else if fieldOf l 8 8 ≠ step then rejectList j step 8 s
      else if updateClear l = false then rejectList j step 24 s
      else (tryWrite (a + 4) (leBytes 4 step) (tryWrite a (sliceOf l 16 4) s).2).2 := by
  rw [takeClip, if_neg (by simp [hWorks, hCode, hEpoch])]
  simp only [Bool.not_eq_true']

theorem takeList_idle (hIdle : takesWork s j = false) (l : List Byte) (step : Nat) : takeList j l step s = s :=
  if_pos (by rw [hIdle]; rfl)

theorem takeClip_idle (hIdle : takesWork s j = false) (l : List Byte) (step a : Nat) : takeClip j l step a s = s :=
  if_pos (.inl (by rw [hIdle]; rfl))

theorem releaseStragglers_first {step : Nat} (hCoord : isCoord s j = true) (hListed : (s.job j).coord.listed = none)
    (hOne : 1 ≤ ((s.job j).coord.stems.filter (·.1 == step)).length)
    (hMin : s.num 0x380C (j + 1) ≤ ((s.job j).coord.stems.filter (·.1 == step)).length) (a : Nat) :
    releaseStragglers j step a s = issueList j step a s := by
  rw [releaseStragglers, hListed]
  exact if_pos ⟨hCoord, rfl, hOne, hMin⟩

/-- A heartbeat of a working member that is not the coordinator. -/
theorem sendBeat_member (hRuns : 1 ≤ s.jobState j) (hHealthy : s.jobState j ≤ 5) (hCoord : isCoord s j = false) :
    sendBeat j s = sendBoth j (ctrlMsg s j 0x20 64 ([0, 0] ++ leBytes 8
      (if (s.job j).desc.kind = 0 then (s.job j).front.nextDeliver - 1 else (s.job j).lastStep))) s :=
  (if_pos ⟨hRuns, hHealthy⟩).trans (if_neg (ne_true_of_eq_false hCoord))

/-- What a heartbeat carries on, where no switch is due. -/
theorem beat_carries {u : State} (hU : orphanSwitch j (mayCheckpoint j (tryPlan j (tryPart j (postLists j (s.job j).coord.listsDue.length
      (postAllHearts j (stepFour j (sendBeat j s))))))) = u) (hDue : (u.job j).coord.switchDue = false) : beat j s = u := by
  rw [beat]
  rw [hU]
  exact if_neg fun h => ne_true_of_eq_false hDue h.2.2.1

theorem deadOut_judged {dev : Nat} (hCoord : isCoord s j = true) (hOther : dev ≠ (s.job j).desc.device)
    (hMember : (membersOf s j).contains dev = true) (hNew : (s.job j).coord.dead.contains dev = false) :
    deadOut j dev s = actOnReports true j (setCoord j { (s.job j).coord with dead := (s.job j).coord.dead ++ [dev] } s) := by
  rw [deadOut, if_neg (by rw [hMember, hNew]; simp [hOther]), if_pos hCoord]

theorem restartOut_late (hCoord : isCoord s j = true) (hRestarts : s.jobState j = 5) (hStopped : (s.job j).coord.stopped = false) :
    restartOut j s = issuePlan j (setCoord j { (s.job j).coord with planned := false } s) :=
  if_pos ⟨hCoord, hRestarts, by rw [hStopped]; rfl⟩

end

/-- Settles O57: lists and clip records at a member, and the timers of a job, each by its guard. -/
theorem listsAndTimers : Obligations.ListsAndTimers := by
  intro s j hj
  have wf : decide (j < 16) = true := decide_eq_true hj
  refine ⟨fun l step hWorks => ?_, fun l step a hWorks hCode hEpoch => ?_, fun hIdle hq => ⟨fun l step => ?_, fun l step a => ?_⟩,
    fun hTime => ⟨?_, ?_, fun dev hCoord hOther hMember hNew => ?_, fun hCoord hRestarts hStopped => ?_⟩⟩
  · cases hBad : listBad s j l step with
    | some o => exact forUnit_settled wf (takeList_rejected hWorks hBad)
    | none => exact forUnit_settled wf (takeList_good hWorks hBad)
  · exact forUnit_settled wf (takeClip_works hWorks hCode hEpoch step a)
  · exact forUnit_done wf (takeList_idle hIdle l step) hq
  · exact forUnit_done wf (takeClip_idle hIdle l step a) hq
  · intro step hCoord hListed n hOne hMin a
    exact forUnit_settled wf ((if_pos hTime).trans (releaseStragglers_first hCoord hListed hOne hMin a))
  · intro hRuns hHealthy hCoord v w u hDue
    have hBeat : beat j s = u := beat_carries (by rw [sendBeat_member hRuns hHealthy hCoord]) hDue
    exact forUnit_settled wf ((if_pos hTime).trans hBeat)
  · exact forUnit_settled wf ((if_pos hTime).trans (deadOut_judged hCoord hOther hMember hNew))
  · exact forUnit_settled wf ((if_pos hTime).trans (restartOut_late hCoord hRestarts hStopped))

end Sys2Proof.Machine
end

section
/-!
PROOFS. The front end: replay, acceptance of requests, results and their delivery (R19, R20, R22, R28, R152 to R155, R396, R399, R452, R568).
-/

namespace Sys2Proof.Machine

section
variable {s t u v : State} {j seq : Nat}

/-! ### Replay -/

theorem replayNext_idle (need : KvNeed)
    (h : (s.jobState j ≠ 2 ∧ s.jobState j ≠ 3) ∨ replayDone s j = true ∨ s.num (jobIx j 8) 3 = 2) : replayNext j need s = s :=
  if_pos h

/-- A replay goes on: the job runs or switches, a record is left, and its mirror is not being rebuilt. -/
def Replays (s : State) (j : Nat) : Prop := (s.jobState j = 2 ∨ s.jobState j = 3) ∧ replayDone s j = false ∧ s.num (jobIx j 8) 3 ≠ 2

theorem Replays.not_idle (h : Replays s j) :
    ¬ ((s.jobState j ≠ 2 ∧ s.jobState j ≠ 3) ∨ replayDone s j = true ∨ s.num (jobIx j 8) 3 = 2) := by
  obtain ⟨hState, hLeft, hMirror⟩ := h
  simp only [hLeft, hMirror, Bool.false_eq_true, or_false, not_and_or, not_not, ne_eq]
  exact hState

theorem replayNext_unread (need : KvNeed) (h : Replays s j)
    (hRec : sourceRec j ((s.job j).replaySeq + (s.job j).replayed) s = (none, t)) :
    replayNext j need s = jobFault j 0x1C ((s.job j).replaySeq + (s.job j).replayed) noSubject t := by
  rw [replayNext, hRec]
  exact if_neg h.not_idle

/-- The record of a replay that has run is counted. -/
def replayRan (j k : Nat) (u : State) : State := putLogLast j (count 0x5882 (j + 1) 1 (u.setJob j { u.job j with replayed := k + 1 }))

section
variable {off : Nat} {l : List Byte} (need : KvNeed) (h : Replays s j)
  (hRec : sourceRec j ((s.job j).replaySeq + (s.job j).replayed) s = (some (off, l), t))
include h hRec

theorem replayNext_other (hKind : fieldOf l 15 1 ≠ 1) : replayNext j need s = replayRan j (s.job j).replayed t := by
  rw [replayNext, hRec]
  exact (if_neg h.not_idle).trans (if_neg hKind)

theorem replayNext_request (hKind : fieldOf l 15 1 = 1) {e : Seat} (hSeat : reserve j need t = (some e, u)) :
    replayNext j need s = replayRan j (s.job j).replayed
      (seat j ((s.job j).replaySeq + (s.job j).replayed) (fieldOf l 16 8 / 2 ^ 50) need e u) := by
  rw [replayNext, hRec]
  refine (if_neg h.not_idle).trans ((if_pos hKind).trans ?_)
  rw [hSeat]
  rfl

end

/-! ### Acceptance -/

section
variable (b : List Byte) (source : Nat) (need : KvNeed)

theorem offerRequest_closed (h : s.jobState j ≠ 2 ∨ (s.job j).front.closed = true) : offerRequest j b source need s = s :=
  if_pos (h.elim .inl fun h => .inr (.inl h))

variable (hRuns : s.jobState j = 2) (hOpen : (s.job j).front.closed = false) (hReplayed : replayDone s j = true)
include hRuns hOpen hReplayed

theorem offerRequest_noLog (hKind : (s.job j).desc.kind = 0) (hLog : logRoom (noteRoom j s) j = false) :
    offerRequest j b source need s = noteRoom j s := by
  rw [offerRequest, if_neg (by simp [hRuns, hOpen, hReplayed])]
  simp [hKind, hLog]

theorem offerRequest_noJournal (hKind : (s.job j).desc.kind = 0) (hLog : logRoom (noteRoom j s) j = true)
    (hFits : journalFits (noteRoom j s) j (recLen b.length) = false) :
    offerRequest j b source need s = stopForJournal j (noteRoom j s) := by
  rw [offerRequest, if_neg (by simp [hRuns, hOpen, hReplayed])]
  simp [hKind, hLog, hFits]

/-- The job may take a request again, and the front end forgets that the journal was full. -/
def journalOpen (j : Nat) (u : State) : State := u.setJob j { u.job j with front := { (u.job j).front with fullJournal := false } }

section
variable (hKind : (s.job j).desc.kind = 0) (hLog : logRoom (noteRoom j s) j = true)
  (hFits : journalFits (noteRoom j s) j (recLen b.length) = true)
include hKind hLog hFits

theorem offerRequest_seated {e : Seat} (hSeat : reserve j need (journalOpen j (noteRoom j s)) = (some e, t)) :
    offerRequest j b source need s = journalRequest j 1 source b (some (need, e)) t := by
  rw [offerRequest, if_neg (by simp [hRuns, hOpen, hReplayed])]
  rw [journalOpen] at hSeat
  simp [hKind, hLog, hFits, hSeat]

theorem offerRequest_unseated (hSeat : reserve j need (journalOpen j (noteRoom j s)) = (none, t)) :
    offerRequest j b source need s = t := by
  rw [offerRequest, if_neg (by simp [hRuns, hOpen, hReplayed])]
  rw [journalOpen] at hSeat
  simp [hKind, hLog, hFits, hSeat]

end

theorem offerRequest_trainFull (hKind : (s.job j).desc.kind ≠ 0) (hFits : journalFits s j (recLen b.length) = false) :
    offerRequest j b source need s = stopForJournal j s := by
  rw [offerRequest, if_neg (by simp [hRuns, hOpen, hReplayed])]
  simp [hKind, hFits]

theorem offerRequest_train (hKind : (s.job j).desc.kind ≠ 0) (hFits : journalFits s j (recLen b.length) = true) :
    offerRequest j b source need s = journalRequest j 2 source b none (journalOpen j s) := by
  rw [offerRequest, if_neg (by simp [hRuns, hOpen, hReplayed])]
  simp [hKind, hFits, journalOpen]

end

theorem noteRoom_noLog (h : logRoom s j = false) : noteRoom j s = stopForLog j s := if_neg (ne_true_of_eq_false h)

/-! ### Results -/

section
variable {slot source : Nat} (b : List Byte) (hOpened : (s.job j).front.opened.find? (fun e => e.1 == seq) = some (seq, slot, source))
include hOpened

theorem takeResult_unlogged (hLog : dlogCtrl s j = 0) : takeResult j seq b s = putLogLast j (closeRequest j seq s) := by
  rw [takeResult, hOpened]
  exact if_pos (.inl hLog)

theorem takeResult_new (hLog : dlogCtrl s j ≠ 0) (hAcked : ackedSeq s j < seq) (hLogged : (s.job j).front.logged.any (·.1 == seq) = false)
    (hWaits : (s.job j).front.results.any (·.1 == seq) = false) :
    takeResult j seq b s = settleLog j (s.setJob j { s.job j with front := { (s.job j).front with
      results := (s.job j).front.results ++ [(seq, recBytes seq 1 source b)] } }) := by
  rw [takeResult, hOpened]
  exact (if_neg (by rw [hLogged]; simp [hLog, Nat.not_le.2 hAcked])).trans (if_neg (ne_true_of_eq_false hWaits))

end

/-! ### Delivery -/

theorem deliverNext_idle (c : Nat) (h : s.jobState j = 0) : deliverNext j c s = s := if_pos (.inl h)

section
variable {l : List Byte} (c : Nat) (hActive : t.jobState j ≠ 0) (hLog : dlogCtrl t j ≠ 0)
include hActive hLog

theorem deliverNext_host (hLink : t.num 0x2C21 (j + 1) < 2) : deliverNext j c t = deliverHost j (t.num 0x2C21 (j + 1)) t :=
  (if_neg (by simp [hActive, hLog])).trans (if_pos hLink)

theorem deliverNext_gateway (hLink : t.num 0x2C21 (j + 1) = 2) : deliverNext j c t = deliverGateway j c t :=
  (if_neg (by simp [hActive, hLog])).trans ((if_neg (by omega)).trans (if_pos hLink))

end

theorem deliverHost_places {k base size : Nat} {l : List Byte} (hOn : (t.job j).front.delivering = true)
    (hFlush : (t.job j).front.flushing = none) (hLink : linkAttached t k = true) (hSame : sameAttach j k t = (true, u))
    (hRec : nextRecord j u = (some (seq, l), v)) (hRing : hostRing u j = some (base, size)) :
    deliverHost j k t = placeRecord j base size seq l v := by
  rw [deliverHost, hSame]
  dsimp only
  rw [hRec, hRing]
  exact if_neg (by simp [hOn, hFlush, hLink])

theorem deliverGateway_sends {l : List Byte} (c : Nat) (hRec : nextRecord j t = (some (seq, l), v)) :
    deliverGateway j c t =
      let dst := fieldOf l 16 8 / 2 ^ 50
      let w := if dst = noSubject then v else (pieces (l.length / 4224 + 1) 4224 l).foldl (fun s p => sendData j c dst p s) v
      w.setJob j { w.job j with front := { (w.job j).front with nextDeliver := seq + 1 } } := by
  rw [deliverGateway, hRec]

end

/-- Settles O58: replay, acceptance, results and delivery, each by what its guards find. -/
theorem frontEnd : Obligations.FrontEnd := by
  intro s j hj
  have wf : decide (j < 16) = true := decide_eq_true hj
  refine ⟨?_, fun hq hIdle need => forUnit_done wf (replayNext_idle need hIdle) hq, ?_,
    fun hq hClosed b source need => forUnit_done wf (offerRequest_closed b source _ hClosed) hq,
    fun seq b slot source hOpened => ⟨takeResult_unlogged b hOpened, takeResult_new b hOpened⟩, ?_,
    fun hq hIdle c hc => forUnit_done (by simp [Instr.wf, hj, hc]) (deliverNext_idle c hIdle) hq⟩
  · intro hState hLeft hMirror seq ran
    have hReplays : Replays s j := ⟨hState, hLeft, hMirror⟩
    refine ⟨fun need t hRec => ?_, fun need off l t hRec => ⟨fun hKind => ?_, fun hKind e u hSeat => ?_⟩⟩
    · exact forUnit_settled wf (replayNext_unread need hReplays hRec)
    · exact forUnit_settled wf (replayNext_other need hReplays hRec hKind)
    · exact forUnit_settled wf (replayNext_request need hReplays hRec hKind hSeat)
  · intro b source need hRuns hOpen hReplayed c open_
    refine ⟨?_, fun hKind => ⟨fun hFits => ?_, fun hFits => ?_⟩⟩
    · intro hKind t
      refine ⟨noteRoom_noLog, fun hLog => ?_, fun hLog hFits => ?_, fun hLog hFits o x hSeat => ?_⟩
      · exact forUnit_settled wf (offerRequest_noLog b source need hRuns hOpen hReplayed hKind hLog)
      · exact forUnit_settled wf (offerRequest_noJournal b source need hRuns hOpen hReplayed hKind hLog hFits)
      · cases o with
        | some e => exact forUnit_settled wf (offerRequest_seated b source need hRuns hOpen hReplayed hKind hLog hFits hSeat)
        | none => exact forUnit_settled wf (offerRequest_unseated b source need hRuns hOpen hReplayed hKind hLog hFits hSeat)
    · exact forUnit_settled wf (offerRequest_trainFull b source need hRuns hOpen hReplayed hKind hFits)
    · exact forUnit_settled wf (offerRequest_train b source need hRuns hOpen hReplayed hKind hFits)
  · intro res c t hc hTaken hActive hLog k
    have hwf : Instr.wf (.resultDelivery ⟨j, res, c⟩) = true := by simp [Instr.wf, hj, hc]
    have hExec : exec (.resultDelivery ⟨j, res, c⟩) s = forUnit (Instr.wf (.resultDelivery ⟨j, res, c⟩)) (deliverNext j c t) := by
      subst hTaken
      cases res <;> rfl
    refine ⟨fun hLink hOn hFlush hUp u hSame seq l v hRec base size hRing => ?_, ?_⟩
    · exact hExec.trans (forUnit_settled hwf ((deliverNext_host c hActive hLog hLink).trans
        (deliverHost_places hOn hFlush hUp hSame hRec hRing)))
    · intro hLink seq l v hRec dst w
      exact hExec.trans (forUnit_settled hwf ((deliverNext_gateway c hActive hLog hLink).trans (deliverGateway_sends c hRec)))

end Sys2Proof.Machine
end

section
/-!
PROOFS. Host links: coming up, attach, detach, reset and going down (R428, R429, R444 to R448, R454).
-/

namespace Sys2Proof.Machine

section
variable {s : State} {k : Nat}

@[simp] theorem linkState_setHlink (s : State) (i k : Nat) (l : HLink) : linkState (s.setHlink i l) k = linkState s k := rfl

/-! ### A link comes up -/

theorem linkUp_up {speed width : Nat} (hExists : linkExists s k = true) (hDown : linkState s k = 0) (hLow : 1 ≤ speed) (hHigh : speed ≤ 7)
    (hWidth : width = 1 ∨ width = 2 ∨ width = 4) :
    linkUp k speed width s = post 0x2C01 (src 8 k) 0x1F [(1, k), (1, speed), (1, width)]
      (((s.setNum 0x2C01 (k + 1) 1).setNum 0x2C02 (k + 1) speed).setNum 0x2C03 (k + 1) width) := by
  have hIn : (if s.num 0x2C00 1 = 0 then [1, 2, 4, 8] else [1, 2, 4]).contains width = true := by
    split <;> rcases hWidth with rfl | rfl | rfl <;> rfl
  exact if_pos ⟨hExists, hDown, hLow, hHigh, hIn⟩

theorem linkUp_of_up (speed width : Nat) (hUp : linkState s k ≠ 0) : linkUp k speed width s = s := if_neg fun h => hUp h.2.1

/-! ### Attach -/

section
variable (v : Nat) (hExists : linkExists s k = true) (hReach : linkState s k = 0 ∨ barReach s k = true)
include hExists hReach

theorem doAttach_taken (hReady : packageReady s = true) (hId : v % 2 ^ 32 ≠ 0) (hDetached : linkState s k = 1) :
    doAttach k v s =
      let u := (List.range 16).foldl (fun u j => attachJob k j u) s
      let u := u.setHlink k { u.hlink k with inErrPages := [] }
      let u := (u.setNum 0x2C01 (k + 1) 2).setNum 0x2C05 (k + 1) (v % 2 ^ 32)
      flushMsix k (deliverAll (post 0x2C03 (src 8 k) 0x1F [(1, k), (4, v % 2 ^ 32), (4, u.num 0x2C04 (k + 1))] u)) := by
  rw [doAttach, if_neg (by rcases hReach with h | h <;> simp [hExists, h])]
  exact if_neg (by simpa [hReady, hDetached] using hId)

theorem doAttach_refused (h : packageReady s = false ∨ v % 2 ^ 32 = 0 ∨ linkState s k ≠ 1) : doAttach k v s = count 0x58A3 (k + 1) 1 s := by
  rw [doAttach, if_neg (by rcases hReach with h | h <;> simp [hExists, h])]
  exact if_pos (by simpa using h)

end

/-! ### Detach, reset and link down -/

theorem detachLink_attached (cause state : Nat) (h : linkState s k = 2) :
    detachLink k cause state s = detachWork k cause (s.setNum 0x2C01 (k + 1) state) := if_pos h

theorem detachLink_detached (cause : Nat) {state : Nat} (h : linkState s k = 1) (hState : state ≤ 1) :
    detachLink k cause state s = s.setNum 0x2C01 (k + 1) state := by
  rw [detachLink, if_neg (by simp [h]), h, Nat.min_eq_right hState]

theorem doDetach_attached (h : linkState s k = 2) : doDetach k s = detachWork k 3 (s.setNum 0x2C01 (k + 1) 1) :=
  (if_pos h).trans (detachLink_attached 3 1 h)

theorem masterOff_attached (h : linkState s k = 2) :
    masterOff k s = detachWork k 2 ((s.setHlink k { s.hlink k with busMaster := false }).setNum 0x2C01 (k + 1) 1) :=
  (if_pos h).trans (detachLink_attached 2 1 h)

theorem masterOff_detached (h : linkState s k ≠ 2) : masterOff k s = s.setHlink k { s.hlink k with busMaster := false } := if_neg h

theorem resetLink_attached (h : linkState s k = 2) :
    resetLink k s = resetFunction k (detachWork k 1 (s.setNum 0x2C01 (k + 1) 1)) := by
  rw [resetLink, if_neg (by simp [h]), detachLink_attached 1 1 h]

theorem resetLink_detached (h : linkState s k = 1) : resetLink k s = resetFunction k (s.setNum 0x2C01 (k + 1) 1) := by
  rw [resetLink, if_neg (by simp [h]), detachLink_detached 1 h le_rfl]

theorem linkDown_attached (h : linkState s k = 2) :
    linkDown k s = resetFunction k (((detachWork k 0 (s.setNum 0x2C01 (k + 1) 0)).setNum 0x2C02 (k + 1) 0).setNum 0x2C03 (k + 1) 0) := by
  rw [linkDown, if_neg (by simp [h]), detachLink_attached 0 0 h]

theorem linkDown_detached (h : linkState s k = 1) :
    linkDown k s = resetFunction k (((s.setNum 0x2C01 (k + 1) 0).setNum 0x2C02 (k + 1) 0).setNum 0x2C03 (k + 1) 0) := by
  rw [linkDown, if_neg (by simp [h]), detachLink_detached 0 h (Nat.zero_le 1)]

end

/-- Settles O59: what moves a host link, by the state that it is in. -/
theorem hostLinks : Obligations.HostLinks := by
  intro s k hq hk
  have wf : decide (k < 2) = true := decide_eq_true hk
  refine ⟨fun hExists hDown speed width hLow hHigh hWidth => ?_, fun hUp speed width => ?_, ?_, fun hAttached => ⟨?_, ?_, fun kind => ?_, ?_⟩,
    fun hDetached => ⟨?_, ?_, fun kind => ?_, ?_⟩, fun hDown => ⟨?_, ?_, ?_, fun kind => ?_⟩⟩
  · exact forUnit_settled wf (linkUp_up hExists hDown hLow hHigh hWidth)
  · exact forUnit_done wf (linkUp_of_up speed width hUp) hq
  · intro hExists hReach v id
    exact ⟨fun hReady hId hDetached => forUnit_settled wf (doAttach_taken v hExists hReach hReady hId hDetached),
      fun h => forUnit_settled wf (doAttach_refused v hExists hReach h)⟩
  · exact forUnit_settled wf (doDetach_attached hAttached)
  · exact forUnit_settled wf (masterOff_attached hAttached)
  · exact forUnit_settled wf (resetLink_attached hAttached)
  · exact forUnit_settled wf (linkDown_attached hAttached)
  · exact forUnit_done wf (if_neg (by simp [hDetached])) hq
  · exact forUnit_done wf (masterOff_detached (by simp [hDetached])) hq
  · exact forUnit_settled wf (resetLink_detached hDetached)
  · exact forUnit_settled wf (linkDown_detached hDetached)
  · exact forUnit_done wf (if_neg (by simp [hDown])) hq
  · exact forUnit_done wf (if_pos hDown) hq
  · exact forUnit_done wf (masterOff_detached (by simp [hDown])) hq
  · exact forUnit_settled wf (if_pos hDown)

end Sys2Proof.Machine
end

section
/-!
PROOFS. Accesses of a host to BAR0 and BAR2, page bias, completions of outbound reads, and acknowledgements (R427, R430 to R436, R440, R442,
R451, R452).
-/

namespace Sys2Proof.Machine

section
variable {s : State} {k off n : Nat}

theorem barReach_exists (h : barReach s k = true) : linkExists s k = true ∧ linkState s k ≠ 0 := by
  simp only [barReach, Bool.and_eq_true, bne_iff_ne, ne_eq] at h
  exact ⟨h.1.1.1, h.1.1.2⟩

/-! ### Reads -/

theorem readBar_hit (hReady : packageReady s = true) (hReach : barReach s k = true) (hHit : barHit s k off n = true)
    (hOk : barOk s k off n = true) :
    readBar k off n s =
      let a := s.num 0x2C07 (k + 1) + off
      let r := if deviceBias s k off then directRead k a n s else readMem a n s
      (readBack k r.2).emit (.pcieCpl k (if r.1.2 then 2 else 0) r.1.1) := by
  rw [readBar, if_neg (by simp [hHit]), if_neg (by simp [hReach]), if_neg (by simp [hReady])]
  exact if_neg (by simp [hOk])

theorem readBar_hole (hReady : packageReady s = true) (hReach : barReach s k = true) (hHit : barHit s k off n = true)
    (hHole : barOk s k off n = false) : readBar k off n s = (holeErr k off s).emit (.pcieCpl k 1 []) := by
  rw [readBar, if_neg (by simp [hHit]), if_neg (by simp [hReach]), if_neg (by simp [hReady])]
  exact if_pos (by simp [hHole])

theorem readBar_unreached (hReach : barReach s k = false) (hHit : barHit s k off n = true) :
    readBar k off n s = s.emit (.pcieCpl k 1 []) := by
  rw [readBar, if_neg (by simp [hHit])]
  exact if_pos (by simp [hReach])

section
variable (hLen : n ≠ 0) (hEnd : off + n ≤ 0x4000000)
include hLen hEnd

theorem readBar0_unreached (hReach : barReach s k = false) (hExists : linkExists s k = true) (hUp : linkState s k ≠ 0) :
    readBar0 k off n s = s.emit (.pcieCpl k 1 []) := by
  rw [readBar0, if_neg (by simp [hExists, hUp, hLen, hEnd])]
  exact if_pos (by simp [hReach])

variable (hReady : packageReady s = true) (hReach : barReach s k = true)
include hReady hReach

theorem readBar0_unassigned (h : barAssigned off = false ∨ off % n ≠ 0) :
    readBar0 k off n s = (readBack k s).emit (.pcieCpl k 0 (List.replicate n 0)) := by
  obtain ⟨hExists, hUp⟩ := barReach_exists hReach
  rw [readBar0, if_neg (by simp [hExists, hUp, hLen, hEnd]), if_neg (by simp [hReach]), if_neg (by simp [hReady])]
  exact if_pos (by simpa using h)

theorem readBar0_assigned (hAssigned : barAssigned off = true) (hAlign : off % n = 0) :
    readBar0 k off n s = (readBack k (barLoad k off n s).2).emit (.pcieCpl k 0 (barLoad k off n s).1) := by
  obtain ⟨hExists, hUp⟩ := barReach_exists hReach
  rw [readBar0, if_neg (by simp [hExists, hUp, hLen, hEnd]), if_neg (by simp [hReach]), if_neg (by simp [hReady])]
  exact if_neg (by simp [hAssigned, hAlign])

end

theorem barLoad_linkInfo (s : State) (k n : Nat) : barLoad k 0x100000 n s =
    (if n = 8 then leBytes 8 (s.num 0x2C04 (k + 1) * 2 ^ 32 + linkState s k) else List.replicate n 0, s) := rfl

theorem barLoad_biasDone (s : State) (k : Nat) : barLoad k 0x100020 8 s = (leBytes 8 (s.num 0x2C0C (k + 1)), s) := rfl

/-! ### Writes and atomics -/

theorem writeBar_unreached (l : List Byte) (bad : Bool) (hReach : barReach s k = false) : writeBar k off l bad s = s :=
  if_pos (.inr (by simp [hReach]))

section
variable {l : List Byte} (hReach : barReach s k = true) (hHit : barHit s k off l.length = true)
include hReach hHit

theorem writeBar_poisoned : writeBar k off l true s =
    let u := count 0x58A3 (k + 1) 1 s
    u.setHlink k { u.hlink k with aer := setBit (u.hlink k).aer 12 true } := by
  rw [writeBar, if_neg (by simp [hReach, hHit])]
  rfl

theorem writeBar_hole (hReady : packageReady s = true) (hHole : barOk s k off l.length = false) :
    writeBar k off l false s = holeErr k off s := by
  rw [writeBar, if_neg (by simp [hReach, hHit]), if_neg Bool.false_ne_true, if_neg (by simp [hReady])]
  exact if_pos (by simp [hHole])

theorem writeBar_hit (hReady : packageReady s = true) (hOk : barOk s k off l.length = true) :
    writeBar k off l false s =
      if deviceBias s k off then directWrite k (l.length / 64 + 2) (s.num 0x2C07 (k + 1) + off) l s
      else writeMem (s.num 0x2C07 (k + 1) + off) l s := by
  rw [writeBar, if_neg (by simp [hReach, hHit]), if_neg Bool.false_ne_true, if_neg (by simp [hReady])]
  exact if_neg (by simp [hOk])

end

section
variable {w : Nat} {op : AtomicOp} (x : Nat) (hReady : packageReady s = true) (hReach : barReach s k = true)
  (hHit : barHit s k off w = true) (hOk : barOk s k off w = true)
include hReady hReach hHit hOk

theorem atomicBar_done (hOp : barAtomic op = true) (hWide : w ≠ 16) (hAlign : (s.num 0x2C07 (k + 1) + off) % w = 0) :
    atomicBar k off w op x s =
      let a := s.num 0x2C07 (k + 1) + off
      let r := if deviceBias s k off then directAtomic k op a w x s else atomicAt op a w x s
      r.2.emit (.pcieCpl k (if r.1.2 then 2 else 0) (leBytes w r.1.1)) := by
  rw [atomicBar, if_neg (by simp [hHit]), if_neg (by simp [hReach]), if_neg (by simp [hReady]), if_neg (by simp [hOk])]
  exact if_neg (by simp [hOp, hWide, barAddr, hAlign])

theorem atomicBar_refused (h : barAtomic op = false ∨ w = 16 ∨ (s.num 0x2C07 (k + 1) + off) % w ≠ 0) :
    atomicBar k off w op x s = s.emit (.pcieCpl k 1 []) := by
  rw [atomicBar, if_neg (by simp [hHit]), if_neg (by simp [hReach]), if_neg (by simp [hReady]), if_neg (by simp [hOk])]
  exact if_pos (by simpa [barAddr] using h)

end

theorem barAtomic_offered {op : AtomicOp} (h : op = .add ∨ op = .swap ∨ ∃ c, op = .cas c) : barAtomic op = true := by
  rcases h with rfl | rfl | ⟨c, rfl⟩ <;> rfl

/-! ### Page bias -/

/-- The fields of a bias command whose row fixes its op. -/
theorem biasWord_fields {op w : Nat} (hOp : op < 4) (hw : w < 2 ^ 62) :
    bits (op * 2 ^ 62 + w % 2 ^ 62) 63 62 = op ∧ bits (op * 2 ^ 62 + w % 2 ^ 62) 61 19 = w / 2 ^ 19
      ∧ (op * 2 ^ 62 + w % 2 ^ 62) % 2 ^ 19 = w % 2 ^ 19 := by
  simp only [bits]
  omega

/-- A bias command has been carried out: BIAS_DONE counts it. -/
def biasDone (k : Nat) (u : State) : State := u.setNum 0x2C0C (k + 1) (add32 (u.num 0x2C0C (k + 1)) 1)

section
variable {op w p : Nat} (hExists : linkExists s k = true) (hReady : packageReady s = true) (hOp : 1 ≤ op ∧ op < 4)
include hExists hReady

theorem biasRow_cmd : biasRow k op w s = biasCmd k (op * 2 ^ 62 + w % 2 ^ 62) s := by
  rw [biasRow, if_neg (by simp [hExists]), if_pos hReady]

include hOp

theorem biasRow_bad (hw : w < 2 ^ 62) (h : w / 2 ^ 19 ≠ 0 ∨ 2 ^ (20 + (s.hlink k).barCode) ≤ w % 2 ^ 19 * 0x200000) :
    biasRow k op w s = count 0x58A3 (k + 1) 1 s := by
  obtain ⟨hField, hZero, hPage⟩ := biasWord_fields hOp.2 hw
  rw [biasRow_cmd hExists hReady, biasCmd, hField, hZero, hPage]
  exact if_pos (.inr h)

/-- A good command of a page, by its op. -/
theorem biasRow_good (hp : p < 2 ^ 19) (hSize : p * 0x200000 < 2 ^ (20 + (s.hlink k).barCode)) :
    biasRow k op p s = biasDone k
      (if op = 3 then forgetOurs k (barAddr s k (p * 0x200000)) ((pageLines s (barAddr s k (p * 0x200000))).foldl flushLine s)
       else s.setHlink k { s.hlink k with bias := tset false p (op == 2) (s.hlink k).bias }) := by
  obtain ⟨hField, hZero, hPage⟩ := biasWord_fields (w := p) hOp.2 (by omega)
  rw [Nat.div_eq_of_lt hp] at hZero
  rw [Nat.mod_eq_of_lt hp] at hPage
  rw [biasRow_cmd hExists hReady, biasCmd, hField, hZero, hPage]
  refine (if_neg ?_).trans (apply_ite (biasDone k) _ _ _).symm
  have hOne : op ≠ 0 := by omega
  simp [hOne, barBytes, hSize]

end

/-! ### Completions of outbound reads -/

section
variable {id : Nat} {r : HRead}

theorem completeRead_none (o : CplOutcome) (h : s.hst.reads.find? (·.id == id) = none) : completeRead id o s = s := by
  rw [completeRead, h]

theorem timeoutRead_none (h : s.hst.reads.find? (·.id == id) = none) : timeoutRead id s = s := by
  rw [timeoutRead, h]

variable (hRead : s.hst.reads.find? (·.id == id) = some r)
include hRead

theorem completeRead_op {i : Nat} (l : List Byte) (hOwner : r.owner = .op n i) :
    completeRead id (.data l) s = hostDeliver r.addr (sliceOf l 0 r.length) (leaveRead r true s) := by
  rw [completeRead, hRead]
  dsimp only
  rw [hOwner]

theorem completeRead_front {i : Nat} (l : List Byte) (hOwner : r.owner = .front i) :
    completeRead id (.data l) s = flushedRecord i (leaveRead r true s) := by
  rw [completeRead, hRead]
  dsimp only
  rw [hOwner]

theorem completeRead_poisoned : completeRead id .poisoned s = endRead r 3 (leaveRead r true s) := by
  rw [completeRead, hRead]

theorem completeRead_refused : completeRead id .refused s = endRead r 2 (leaveRead r true s) := by
  rw [completeRead, hRead]

theorem timeoutRead_some : timeoutRead id s = endRead r 7 (post 0x2C04 (src 8 r.link) 0x1F [(1, r.link), (8, hostPhys r.addr)]
    (count 0x58A2 (r.link + 1) 1 (leaveRead r false s))) := by
  rw [timeoutRead, hRead]

end

theorem endRead_front {r : HRead} {i : Nat} (status : Nat) (hOwner : r.owner = .front i) : endRead r status s = stopDelivery i s := by
  rw [endRead, hOwner]

end

/-! ### Acknowledgements -/

section
variable {s t : State} {j v last : Nat}

theorem acknowledge_old (h : v ≤ ackedSeq s j) : acknowledge j v s = s := if_pos h

theorem acknowledge_beyond (hNew : ackedSeq s j < v) (hLast : ctrlField j 0 8 s = (last, t)) (hBeyond : last < v) :
    acknowledge j v s = post 0x2C06 (src 9 j) j [(1, j), (8, v), (8, last)] (count 0x58A5 (j + 1) 1 t) := by
  rw [acknowledge, if_neg (Nat.not_le.2 hNew), hLast]
  exact if_pos hBeyond

theorem acknowledge_new (hNew : ackedSeq s j < v) (hLast : ctrlField j 0 8 s = (last, t)) (hWithin : v ≤ last) :
    acknowledge j v s =
      let u := (tryWrite (dlogCtrl t j + 8) (leBytes 8 v) t).2.setNum (jobIx j 6) 4 v
      let u := settleLog j (u.setJob j { u.job j with front := { (u.job j).front with
        logged := (u.job j).front.logged.filter fun e => decide (v < e.1) } })
      if u.jobState j = 0 then u else putJournalShadow j (trimJournal j u) := by
  rw [acknowledge, if_neg (Nat.not_le.2 hNew), hLast]
  exact if_neg (Nat.not_lt.2 hWithin)

end

/-! ### Settled -/

section
variable {s : State} {k off : Nat} (hk : k < 2) (hReady : packageReady s = true)
include hk hReady

theorem inboundReads_reached (hReach : barReach s k = true) {n : Nat} (hLen : n ≠ 0) (hEnd : off + n ≤ 0x4000000)
    (hAssigned : barAssigned off = true) (hAlign : off % n = 0) :
    exec (.inboundRead k (.bar0 off) n) s =
      .next (settle ((readBack k (barLoad k off n s).2).emit (.pcieCpl k 0 (barLoad k off n s).1))) :=
  forUnit_settled (decide_eq_true hk) (readBar0_assigned hLen hEnd hReady hReach hAssigned hAlign)

theorem inboundWrites_reached (hReach : barReach s k = true) (l : List Byte) (bad : Bool) (hHit : barHit s k off l.length = true) :
    (bad = true → exec (.inboundWrite k off l bad) s = .next (settle (
        let u := count 0x58A3 (k + 1) 1 s
        u.setHlink k { u.hlink k with aer := setBit (u.hlink k).aer 12 true })))
    ∧ (bad = false → barOk s k off l.length = false → exec (.inboundWrite k off l bad) s = .next (settle (holeErr k off s)))
    ∧ (bad = false → barOk s k off l.length = true → exec (.inboundWrite k off l bad) s = .next (settle
        (if deviceBias s k off then directWrite k (l.length / 64 + 2) (s.num 0x2C07 (k + 1) + off) l s
         else writeMem (s.num 0x2C07 (k + 1) + off) l s))) := by
  have wf : decide (k < 2) = true := decide_eq_true hk
  refine ⟨?_, ?_, ?_⟩ <;> rintro rfl
  · exact forUnit_settled wf (writeBar_poisoned hReach hHit)
  · exact fun hHole => forUnit_settled wf (writeBar_hole hReach hHit hReady hHole)
  · exact fun hOk => forUnit_settled wf (writeBar_hit hReach hHit hReady hOk)

end

/-- Settles O60: each access by its place and the state of its link, completions by who waits, and acknowledgements. -/
theorem hostAccesses : Obligations.HostAccesses := by
  refine ⟨?_, ?_⟩
  · intro s k off hk hReady a
    have wf : decide (k < 2) = true := decide_eq_true hk
    refine ⟨fun hReach n hHit => ⟨fun hOk => ?_, fun hHole => ?_⟩, fun hReach n hLen hEnd => ⟨fun h => ?_, fun hAssigned hAlign => ?_⟩,
      fun hReach hExists hUp => ⟨fun n hLen hEnd => ?_, fun n hHit => ?_, fun hq l bad => ?_⟩, fun hReach => ⟨fun n hLow hHigh hAlign => ?_, ?_⟩,
      fun hReach l bad hHit => inboundWrites_reached hk hReady hReach l bad hHit,
      fun hReach w op x hWidth hHit hOk => ⟨fun hOp hWide hAlign => ?_, fun h => ?_⟩, ?_, fun hExists w hw h i hi => ?_⟩
    · exact forUnit_settled wf (readBar_hit hReady hReach hHit hOk)
    · exact forUnit_settled wf (readBar_hole hReady hReach hHit hHole)
    · exact forUnit_settled wf (readBar0_unassigned hLen hEnd hReady hReach h)
    · exact inboundReads_reached hk hReady hReach hLen hEnd hAssigned hAlign
    · exact forUnit_settled wf (readBar0_unreached hLen hEnd hReach hExists hUp)
    · exact forUnit_settled wf (readBar_unreached hReach hHit)
    · exact forUnit_done wf (writeBar_unreached l bad hReach) hq
    · refine (inboundReads_reached hk hReady hReach (by omega) (by omega) rfl hAlign).trans ?_
      rw [barLoad_linkInfo]
    · refine (inboundReads_reached hk hReady hReach (by decide) (by decide) rfl rfl).trans ?_
      rw [barLoad_biasDone]
    · have hwf : Instr.wf (.inboundAtomicop k off w op x) = true := by simp [Instr.wf, hk, hWidth]
      exact forUnit_settled hwf (atomicBar_done x hReady hReach hHit hOk (barAtomic_offered hOp) hWide hAlign)
    · have hwf : Instr.wf (.inboundAtomicop k off w op x) = true := by simp [Instr.wf, hk, hWidth]
      exact forUnit_settled hwf (atomicBar_refused x hReady hReach hHit hOk h)
    · intro hExists p hp hSize done
      exact ⟨forUnit_settled wf (biasRow_good hExists hReady (op := 1) (by decide) hp hSize),
        forUnit_settled wf (biasRow_good hExists hReady (op := 2) (by decide) hp hSize),
        forUnit_settled wf (biasRow_good hExists hReady (op := 3) (by decide) hp hSize)⟩
    · simp only [List.mem_cons, List.not_mem_nil, or_false] at hi
      rcases hi with rfl | rfl | rfl
      · exact forUnit_settled wf (biasRow_bad hExists hReady (op := 1) (by decide) hw h)
      · exact forUnit_settled wf (biasRow_bad hExists hReady (op := 2) (by decide) hw h)
      · exact forUnit_settled wf (biasRow_bad hExists hReady (op := 3) (by decide) hw h)
  · intro s id j hj
    have wf : decide (j < 16) = true := decide_eq_true hj
    refine ⟨?_, fun hq h => ?_, fun hq hNone o => forUnit_done rfl (completeRead_none o hNone) hq, fun v hv => ⟨fun hq hOld => ?_, ?_⟩⟩
    · intro r hRead u
      refine ⟨fun n i l hOwner => ?_, fun i l hOwner => ?_, fun i o hOwner ho => ?_, ?_, ?_, fun hClock => ?_⟩
      · exact forUnit_settled rfl (completeRead_op hRead l hOwner)
      · exact forUnit_settled rfl (completeRead_front hRead l hOwner)
      · rcases ho with rfl | rfl
        · exact forUnit_settled rfl ((completeRead_poisoned hRead).trans (endRead_front 3 hOwner))
        · exact forUnit_settled rfl ((completeRead_refused hRead).trans (endRead_front 2 hOwner))
      · exact forUnit_settled rfl (completeRead_poisoned hRead)
      · exact forUnit_settled rfl (completeRead_refused hRead)
      · exact forUnit_settled rfl ((if_pos hClock).trans (timeoutRead_some hRead))
    · have hStill : (if s.tim.refclk then timeoutRead id s else s) = s := by
        rcases h with hNone | hStop
        · rw [timeoutRead_none hNone, ite_self]
        · exact if_neg (ne_true_of_eq_false hStop)
      exact forUnit_done rfl hStill hq
    · exact forUnit_done wf (by rw [Nat.mod_eq_of_lt hv]; exact acknowledge_old hOld) hq
    · intro hNew last t hLast
      refine ⟨fun hBeyond => forUnit_settled wf ?_, ?_⟩
      · rw [Nat.mod_eq_of_lt hv, acknowledge_beyond hNew hLast hBeyond]
      · intro hWithin u u'
        exact forUnit_settled wf (by rw [Nat.mod_eq_of_lt hv]; exact acknowledge_new hNew hLast hWithin)

end Sys2Proof.Machine
end

section
/-!
PROOFS. What every step keeps, and the rules to prove it: the canonical form of device memory, the queue of waiting commands and the count of
free values, and, below the commands that change them, the power state, the time base and the fuses.
-/

namespace Sys2Proof.Machine

/-- What the work of a command keeps of the state that it started from; with `b` the power state, the time base and the fuses too. -/
structure Kept (b : Bool) (s t : State) : Prop where
  mem : Memory.wf s.mem = true → Memory.wf t.mem = true
  pending : t.pending = s.pending
  free : s.free ≤ t.free
  board : b = true → t.pwr = s.pwr ∧ t.tim = s.tim ∧ t.fuses = s.fuses

namespace Kept
variable {b : Bool} {s t u : State}

theorem refl (b : Bool) (s : State) : Kept b s s := ⟨id, rfl, le_rfl, fun _ => ⟨rfl, rfl, rfl⟩⟩

theorem ite {p : Prop} [Decidable p] (ht : Kept b s t) (hu : Kept b s u) : Kept b s (if p then t else u) := by
  split <;> assumption

section
variable {α β : Type}

theorem ite_snd {p : Prop} [Decidable p] {x y : α × State} (hx : Kept b s x.2) (hy : Kept b s y.2) : Kept b s (if p then x else y).2 := by
  split <;> assumption

/-- The state that a match binds is the one of its discriminant. -/
theorem of_snd {x : α × State} {a : α} (hx : x = (a, t)) (h : Kept b s x.2) : Kept b s t := by
  subst hx
  exact h

theorem foldl {f : State → α → State} {l : List α} (hf : ∀ u x, Kept b s u → Kept b s (f u x)) (h : Kept b s t) :
    Kept b s (l.foldl f t) := by
  induction l generalizing t with
  | nil => exact h
  | cons x l ih => exact ih (hf _ _ h)

theorem foldl_snd {f : β × State → α → β × State} {l : List α} {p : β × State} (hf : ∀ p x, Kept b s p.2 → Kept b s (f p x).2)
    (h : Kept b s p.2) : Kept b s (l.foldl f p).2 := by
  induction l generalizing p with
  | nil => exact h
  | cons x l ih => exact ih (hf _ _ h)

end

/-! An update of a record that leaves alone what is kept, that draws free values, and that changes the power state, the time base or the
fuses. -/

section
variable {obj : Tab Val} {merr : MemErr} {dict : Dict} {rings : Tab Ring} {dies : List Die} {queues : Tab DQ} {coh : Coh} {harts : Tab Hart}
  {fab : Fab} {staging : List (Tab Byte)} {stageResults : List (Nat × Nat × Nat × Nat)} {jobs : Tab Job} {hst : Hst} {ctl : Tab Nat}
  {out : List Out} {evq : List Ev}

theorem record (h : Kept b s t) :
    Kept b s { t with
      obj := obj, merr := merr, dict := dict, rings := rings, dies := dies, queues := queues, coh := coh, harts := harts, fab := fab,
      staging := staging, stageResults := stageResults, jobs := jobs, hst := hst, ctl := ctl, out := out, evq := evq } :=
  ⟨h.mem, h.pending, h.free, h.board⟩

theorem drawn {k : Nat} (h : Kept b s t) :
    Kept b s { t with
      free := t.free + k, obj := obj, merr := merr, dict := dict, rings := rings, dies := dies, queues := queues, coh := coh,
      harts := harts, fab := fab, staging := staging, stageResults := stageResults, jobs := jobs, hst := hst, ctl := ctl, out := out,
      evq := evq } :=
  ⟨h.mem, h.pending, h.free.trans (Nat.le_add_right _ k), h.board⟩

theorem recordPwr {pwr : Pwr} {tim : Tim} {fuses : Fuses} (h : Kept false s t) :
    Kept false s { t with
      pwr := pwr, tim := tim, fuses := fuses, obj := obj, merr := merr, dict := dict, rings := rings, dies := dies, queues := queues,
      coh := coh, harts := harts, fab := fab, staging := staging, stageResults := stageResults, jobs := jobs, hst := hst, ctl := ctl,
      out := out, evq := evq } :=
  ⟨h.mem, h.pending, h.free, nofun⟩

end

end Kept

/-- A command either names a unit that there is not, or does work that keeps what every step keeps. -/
def Works (s : State) (o : Host.Outcome State Fault Refusal) : Prop := ∃ ok u, o = forUnit ok u ∧ Kept false s u

theorem Works.next {s t : State} {o : Host.Outcome State Fault Refusal} (h : Works s o) (ht : o = .next t) :
    ∃ u, t = settle u ∧ Kept false s u := by
  obtain ⟨ok, u, hu, hKept⟩ := h
  exact ⟨u, (forUnit_next (hu.symm.trans ht)).2, hKept⟩

end Sys2Proof.Machine
end

section
/-! PROOFS. What the functions of Machine/Ops.lean keep. -/

namespace Sys2Proof.Machine
variable {b : Bool} {s t : State}

theorem kept_setVal {i j : Nat} {v : Val} (h : Kept b s t) : Kept b s (State.setVal t i j v) := by
  rw [State.setVal]
  exact .record h

theorem kept_setNum {i j n : Nat} (h : Kept b s t) : Kept b s (State.setNum t i j n) := by
  rw [State.setNum]
  exact kept_setVal h

theorem kept_setOct {i j : Nat} {l : List Byte} (h : Kept b s t) : Kept b s (State.setOct t i j l) := by
  rw [State.setOct]
  exact kept_setVal h

theorem kept_draw (h : Kept b s t) : Kept b s t.draw.2 := Kept.drawn h

theorem kept_postSev {code source sev job : Nat} {fields : List (Nat × Nat)} (h : Kept b s t) :
    Kept b s (postSev code source sev job fields t) := by
  rw [postSev]
  exact .record h

theorem kept_post {code source job : Nat} {fields : List (Nat × Nat)} (h : Kept b s t) : Kept b s (post code source job fields t) := by
  rw [post]
  exact kept_postSev h

theorem kept_count {i j n : Nat} (h : Kept b s t) : Kept b s (count i j n t) := by
  rw [count]
  exact .ite (kept_setNum h) (.ite (kept_post (kept_setNum (kept_setNum h))) (kept_setNum h))

theorem kept_setDie {n : Nat} {d : Die} (h : Kept b s t) : Kept b s (State.setDie t n d) := by
  rw [State.setDie]
  exact .record h

theorem kept_setJob {j : Nat} {x : Job} (h : Kept b s t) : Kept b s (State.setJob t j x) := by
  rw [State.setJob]
  exact .record h

theorem kept_setQueue {n q : Nat} {x : DQ} (h : Kept b s t) : Kept b s (State.setQueue t n q x) := by
  rw [State.setQueue]
  exact .record h

theorem kept_setPort {p : Nat} {x : Port} (h : Kept b s t) : Kept b s (State.setPort t p x) := by
  rw [State.setPort]
  exact .record h

theorem kept_setHart {h' : Nat} {x : Hart} (h : Kept b s t) : Kept b s (State.setHart t h' x) := by
  rw [State.setHart]
  exact .record h

theorem kept_setHlink {k : Nat} {x : HLink} (h : Kept b s t) : Kept b s (State.setHlink t k x) := by
  rw [State.setHlink]
  exact .record h

theorem kept_emit {o : Out} (h : Kept b s t) : Kept b s (State.emit t o) := by
  rw [State.emit]
  exact .record h

theorem kept_setDomain {d v : Nat} (h : Kept b s t) : Kept b s (State.setDomain t d v) := by
  rw [State.setDomain]
  exact kept_setNum h

end Sys2Proof.Machine
end

section
/-! PROOFS. What the functions of Machine/Memory.lean keep. -/

namespace Sys2Proof.Machine
variable {b : Bool} {s t : State}

theorem kept_putBytes {a : Nat} {l : List Byte} (h : Kept b s t) : Kept b s (putBytes t a l) :=
  ⟨fun hs => twf_putMem _ _ _ (h.mem hs), h.pending, h.free, h.board⟩

theorem kept_setPoison {u : Nat} {p : Bool} (h : Kept b s t) : Kept b s (setPoison t u p) := by
  rw [setPoison]
  exact .record h

theorem kept_clearLatent {u : Nat} (h : Kept b s t) : Kept b s (clearLatent t u) := by
  rw [clearLatent]
  exact .record h

theorem kept_dramCe {n o : Nat} (h : Kept b s t) : Kept b s (dramCe n o t) := by
  rw [dramCe]
  exact .ite (kept_post (.record (kept_count (.record h)))) (kept_count (.record h))

theorem kept_dramUe {line n o : Nat} {scrub : Bool} (h : Kept b s t) : Kept b s (dramUe line n o scrub t) := by
  rw [dramUe]
  exact kept_post (kept_setNum (kept_count (kept_setPoison h)))

theorem kept_canopyUe {u n o : Nat} (h : Kept b s t) : Kept b s (canopyUe u n o t) := by
  rw [canopyUe]
  exact kept_post (kept_count (kept_setPoison h))

theorem kept_readUnit {scrub : Bool} {u : Nat} (h : Kept b s t) : Kept b s (readUnit scrub u t) := by
  rw [readUnit]
  split
  · exact h
  · refine .ite (kept_clearLatent h) ?_
    split
    · exact kept_dramCe (kept_clearLatent h)
    · exact kept_dramUe (kept_clearLatent h)
    · exact kept_count (kept_clearLatent h)
    · exact kept_canopyUe (kept_clearLatent h)
    · exact kept_clearLatent h

theorem kept_readUnits {scrub : Bool} {l : List Nat} (h : Kept b s t) : Kept b s (readUnits scrub l t) := by
  rw [readUnits]
  exact .foldl (fun _ _ hu => kept_readUnit hu) h

theorem kept_memReadLine {line : Nat} (h : Kept b s t) : Kept b s (memReadLine line t).2 := by
  rw [memReadLine]
  exact kept_readUnits h

theorem kept_writeUnit {line mask whole u : Nat} (h : Kept b s t) : Kept b s (writeUnit line mask whole u t) := by
  rw [writeUnit]
  exact .ite h (.ite (kept_clearLatent (kept_setPoison h)) (kept_clearLatent (kept_readUnit h)))

theorem kept_memMergeLine {line mask whole : Nat} {data : List Byte} (h : Kept b s t) :
    Kept b s (memMergeLine line mask whole data t) := by
  rw [memMergeLine]
  refine kept_putBytes ?_
  split
  · exact .ite (.foldl (fun _ _ hu => kept_writeUnit hu) h) (kept_count (.foldl (fun _ _ hu => kept_writeUnit hu) h))
  · exact .foldl (fun _ _ hu => kept_writeUnit hu) h

theorem kept_memWriteLine {line mask : Nat} {data : List Byte} (h : Kept b s t) : Kept b s (memWriteLine line mask data t) := by
  rw [memWriteLine]
  exact kept_memMergeLine h

theorem kept_memWriteBack {line : Nat} {data : List Byte} {p : Bool} (h : Kept b s t) : Kept b s (memWriteBack line data p t) := by
  rw [memWriteBack]
  exact .ite (.foldl (fun _ _ hu => kept_setPoison hu) (kept_memWriteLine h)) (kept_memWriteLine h)

theorem kept_putDrawn {u k : Nat} {l : List Byte} (h : Kept b s t) : Kept b s { putBytes t u l with free := t.free + k } :=
  ⟨(kept_putBytes h).mem, h.pending, h.free.trans (Nat.le_add_right _ k), h.board⟩

theorem kept_scramble {u : Nat} (h : Kept b s t) : Kept b s (scramble u t) := by
  rw [scramble]
  exact kept_putDrawn h

theorem kept_setCacheLine {c line : Nat} {x : Option CLine} (h : Kept b s t) : Kept b s (setCacheLine c line x t) := by
  unfold setCacheLine
  exact .record h

theorem kept_setDir {line : Nat} {e : DirEntry} (h : Kept b s t) : Kept b s (setDir line e t) := by
  rw [setDir]
  exact .record h

theorem kept_notifyWatchers {line : Nat} (h : Kept b s t) : Kept b s (notifyWatchers line t) := by
  rw [notifyWatchers]
  exact kept_setDir (.record h)

theorem kept_clearResv {line : Nat} (h : Kept b s t) : Kept b s (clearResv line t) := by
  rw [clearResv]
  exact .record h

theorem kept_loseResv {c line : Nat} (h : Kept b s t) : Kept b s (loseResv c line t) := by
  rw [loseResv]
  exact .record h

theorem kept_noteLost {c line : Nat} (h : Kept b s t) : Kept b s (noteLost c line t) := by
  rw [noteLost]
  exact .record h

theorem kept_loseCopy {c line : Nat} {x : Option CLine} (h : Kept b s t) : Kept b s (loseCopy c line x t) := by
  rw [loseCopy]
  exact kept_setCacheLine (kept_loseResv (kept_noteLost h))

theorem kept_dropCopy {c line : Nat} (h : Kept b s t) : Kept b s (dropCopy c line t) := by
  rw [dropCopy]
  exact kept_loseCopy h

theorem kept_sramRead {n block key unit : Nat} (h : Kept b s t) : Kept b s (sramRead n block key unit t).2 := by
  rw [sramRead]
  split
  · exact h
  · exact kept_count (kept_setDie h)
  · exact kept_post (kept_count (kept_setDie h))

theorem kept_sramClear {n block key : Nat} (h : Kept b s t) : Kept b s (sramClear n block key t) := by
  rw [sramClear]
  exact kept_setDie h

theorem kept_streamError {n l : Nat} (h : Kept b s t) : Kept b s (streamError n l t) := by
  rw [streamError]
  refine .ite h ?_
  split
  · exact .of_snd ‹_› (kept_sramRead h)
  · have hu := Kept.of_snd ‹_› (kept_sramRead h)
    split
    · exact .ite (kept_setCacheLine hu) (.ite (kept_setCacheLine hu) hu)
    · exact hu

theorem kept_streamErrors {n a len : Nat} (h : Kept b s t) : Kept b s (streamErrors n a len t) := by
  rw [streamErrors]
  exact .foldl (fun _ _ hu => kept_streamError hu) h

theorem kept_agentError {c l : Nat} (h : Kept b s t) : Kept b s (agentError c l t) := by
  rw [agentError]
  exact .ite (kept_streamError h) h

theorem kept_scrambleAll {line : Nat} (h : Kept b s t) : Kept b s (scrambleAll line t) := by
  rw [scrambleAll]
  refine .foldl ?_ (kept_scramble h)
  intro _ _ hu
  split
  · exact .ite hu (kept_setCacheLine (.drawn hu))
  · exact hu

theorem kept_touch {line : Nat} (h : Kept b s t) : Kept b s (touch line t) := by
  rw [touch]
  exact .ite h (.foldl (fun _ _ hu => kept_setHlink hu) (.ite (kept_scrambleAll h) h))

theorem kept_takeEvs {line : Nat} (h : Kept b s t) : Kept b s (takeEvs line t) := by
  rw [takeEvs]
  refine .foldl ?_ h
  intro _ _ hu
  split
  · exact .ite (.ite (kept_memWriteBack (kept_setDir (.record hu))) (kept_setDir (.record hu))) hu
  · exact hu

theorem kept_killCopy {c line : Nat} (h : Kept b s t) : Kept b s (killCopy c line t) := by
  rw [killCopy]
  split
  · split
    · exact kept_dropCopy h
    · exact kept_dropCopy h
    · exact kept_dropCopy h
    · exact kept_loseCopy h
    · exact h
  · exact h

theorem kept_killCopies {line : Nat} {keep : Bool} (h : Kept b s t) : Kept b s (killCopies line keep t) := by
  unfold killCopies
  refine kept_setDir ?_
  refine .foldl (fun _ _ hu => kept_killCopy hu) ?_
  split
  · exact kept_memWriteBack (.foldl (fun _ _ hu => kept_agentError hu) (kept_takeEvs h))
  · exact .foldl (fun _ _ hu => kept_agentError hu) (kept_takeEvs h)

theorem kept_backInvalidate {line : Nat} (h : Kept b s t) : Kept b s (backInvalidate line t) := by
  rw [backInvalidate]
  split
  · exact kept_count (kept_setDir (kept_notifyWatchers (kept_killCopies h)))
  · exact kept_setDir (kept_notifyWatchers (kept_killCopies h))

theorem kept_makeRoom {line : Nat} (h : Kept b s t) : Kept b s (makeRoom line t) := by
  rw [makeRoom]
  refine .ite ?_ h
  refine .ite h ?_
  refine .ite h ?_
  dsimp only
  split
  · exact kept_backInvalidate (kept_draw h)
  · exact kept_draw h

theorem kept_keepBytes {p : Nat → Bool} {e : MemErr} (h : Kept b s t) : Kept b s { t with mem := tkeep p t.mem, merr := e } :=
  ⟨fun hs => twf_tkeep 0 p t.mem (h.mem hs), h.pending, h.free, h.board⟩

theorem kept_forgetGroup {n : Nat} (h : Kept b s t) : Kept b s (forgetGroup n t) := kept_keepBytes h

theorem kept_forgetCanopy {n : Nat} (h : Kept b s t) : Kept b s (forgetCanopy n t) := kept_keepBytes h

end Sys2Proof.Machine
end

section
/-! PROOFS. What the functions of Machine/Harts.lean keep. -/

namespace Sys2Proof.Machine
variable {b : Bool} {s t : State}

theorem kept_trapHart {h' cause a : Nat} (h : Kept b s t) : Kept b s (trapHart h' cause a t) := by
  rw [trapHart]
  exact kept_setHart h

theorem kept_coreTake {own : Bool} {h' line : Nat} (h : Kept b s t) : Kept b s (coreTake own h' line t) := by
  rw [coreTake]
  exact .drawn h

theorem kept_coreFetch {h' line : Nat} (h : Kept b s t) : Kept b s (coreFetch h' line t) := by
  rw [coreFetch]
  exact .ite (.record (kept_draw h)) h

theorem kept_clusterOut {d c : Nat} (h : Kept b s t) : Kept b s (clusterOut d c t) := by
  rw [clusterOut]
  exact .record h

end Sys2Proof.Machine
end

section
/-! PROOFS. What the functions of Machine/Home.lean keep. -/

namespace Sys2Proof.Machine
variable {b : Bool} {s t : State}

theorem kept_sendMsg {m : Msg} (h : Kept b s t) : Kept b s (sendMsg m t) := by
  rw [sendMsg]
  exact .record h

theorem kept_takeMsg {p : Msg → Bool} {m : Msg} {u : State} (hm : takeMsg p t = some (m, u)) (h : Kept b s t) : Kept b s u := by
  unfold takeMsg at hm
  split at hm
  · cases hm
    exact Kept.record h
  · cases hm

theorem kept_setTxn {line : Nat} {t' : Txn} (h : Kept b s t) : Kept b s (setTxn line t' t) := by
  rw [setTxn]
  exact .record h

theorem kept_dropHolder {c line : Nat} (h : Kept b s t) : Kept b s (dropHolder c line t) := by
  rw [dropHolder]
  exact kept_setDir h

theorem kept_grantDir {c line : Nat} {sole : Bool} (h : Kept b s t) : Kept b s (grantDir c line sole t) := by
  rw [grantDir]
  exact kept_setDir h

theorem kept_evict {c line : Nat} (h : Kept b s t) : Kept b s (evict c line t) := by
  rw [evict]
  split
  · exact .ite (kept_sendMsg (kept_loseResv (kept_setCacheLine (kept_agentError h)))) (.ite (kept_sendMsg (kept_loseResv (kept_setCacheLine
      (kept_agentError h)))) (.ite (kept_loseResv (kept_setCacheLine (kept_agentError h))) (kept_agentError h)))
  · exact kept_agentError h

theorem kept_makeWay {c line : Nat} (h : Kept b s t) : Kept b s (makeWay c line t) := by
  rw [makeWay]
  refine .ite h ?_
  refine .ite h ?_
  dsimp only
  split
  · exact kept_evict (kept_draw h)
  · exact kept_draw h

theorem kept_trimL3 {d : Nat} (h : Kept b s t) : Kept b s (trimL3 d t) := by
  rw [trimL3]
  refine .ite h ?_
  refine .ite h ?_
  dsimp only
  split
  · exact kept_evict (kept_draw h)
  · exact kept_draw h

theorem kept_coreGets {own : Bool} {h' line : Nat} (h : Kept b s t) : Kept b s (coreGets own h' line t) := by
  rw [coreGets]
  exact kept_trimL3 (kept_coreTake h)

theorem kept_landLine {c line : Nat} (h : Kept b s t) : Kept b s (landLine c line t) := by
  rw [landLine]
  refine .ite ?_ h
  dsimp only
  split
  · exact .ite (kept_coreFetch (kept_draw (kept_coreGets (kept_draw h)))) (kept_draw (kept_coreGets (kept_draw h)))
  · exact h

theorem kept_giveHart {h' v : Nat} (h : Kept b s t) : Kept b s (giveHart h' v t) := by
  rw [giveHart]
  exact .record h

theorem kept_nearNow {w : CoreWait} {x : CLine} (h : Kept b s t) : Kept b s (nearNow w x t) := by
  rw [nearNow]
  exact .ite (kept_trapHart h) (.ite (kept_giveHart (.record (kept_coreGets (kept_setCacheLine h)))) (kept_giveHart (kept_notifyWatchers
    (kept_coreGets (kept_setCacheLine (kept_clearResv h))))))

theorem kept_dropWaits {c line : Nat} (h : Kept b s t) : Kept b s (dropWaits c line t) := by
  rw [dropWaits]
  exact .record h

theorem kept_runWaits {c line : Nat} (h : Kept b s t) : Kept b s (runWaits c line t) := by
  rw [runWaits]
  refine .foldl ?_ (kept_dropWaits h)
  intro _ _ hu
  split
  · exact kept_nearNow hu
  · exact hu

theorem kept_openTarget {c line : Nat} (h : Kept b s t) : Kept b s (openTarget c line t) := by
  rw [openTarget]
  exact .record (kept_takeEvs h)

theorem kept_placeLine {line : Nat} {data : List Byte} {target : Option Nat} {up : Bool} (h : Kept b s t) :
    Kept b s (placeLine line data target up t) := by
  unfold placeLine
  split
  · exact .ite (kept_memWriteLine h) (.ite (kept_count (kept_memWriteLine h)) (kept_runWaits (kept_count (kept_setDir (kept_setCacheLine
      (kept_openTarget (kept_makeWay (kept_makeRoom h))))))))
  · exact kept_memWriteLine h

theorem kept_endTxn {line : Nat} (h : Kept b s t) : Kept b s (endTxn line t) := by
  rw [endTxn]
  split
  · exact .ite (.ite (.ite (.record h) (kept_backInvalidate (.record h))) (kept_setNum (.ite (.record h) (kept_backInvalidate (.record
      h))))) (.record h)
  · exact .record h

theorem kept_txnData {line : Nat} {t' : Txn} (h : Kept b s t) : Kept b s (txnData line t' t).2 := by
  rw [txnData]
  split
  · exact h
  · exact kept_memReadLine h

theorem kept_keepGot {line : Nat} {t' : Txn} (h : Kept b s t) : Kept b s (keepGot line t' t) := by
  rw [keepGot]
  split
  · exact kept_memWriteBack h
  · exact h

theorem kept_grantLine {line c : Nat} {g : CacheSt} {sole : Bool} {t' : Txn} (h : Kept b s t) :
    Kept b s (grantLine line c g sole t' t) := by
  rw [grantLine]
  exact kept_setTxn (.ite (kept_grantDir (.ite (.ite h (kept_keepGot h)) (kept_sendMsg (kept_txnData h)))) (.ite (.ite h (kept_keepGot h))
    (kept_sendMsg (kept_txnData h))))

theorem kept_countFar {line : Nat} (h : Kept b s t) : Kept b s (countFar line t) := by
  rw [countFar]
  split
  · exact .ite h (kept_count h)
  · exact h

theorem kept_finish {line : Nat} {t' : Txn} (h : Kept b s t) : Kept b s (finish line t' t) := by
  rw [finish]
  refine .ite (kept_endTxn (kept_keepGot h)) ?_
  split
  · split
    · exact kept_grantLine h
    · exact kept_endTxn h
  · split
    · exact kept_grantLine h
    · exact kept_endTxn h
  · split
    · exact .ite (kept_setTxn (kept_grantDir (kept_sendMsg h))) (kept_setTxn (kept_dropHolder (kept_sendMsg h)))
    · exact kept_endTxn h
  · exact kept_setTxn (.ite h (kept_sendMsg (kept_txnData h)))
  · exact kept_setTxn (.ite h (kept_sendMsg (kept_txnData h)))
  · exact kept_endTxn (.ite (kept_notifyWatchers (kept_placeLine (kept_clearResv h))) (kept_sendMsg (kept_notifyWatchers (kept_placeLine
      (kept_clearResv h)))))
  · exact kept_endTxn (.ite (kept_notifyWatchers (kept_placeLine (kept_clearResv h))) (kept_sendMsg (kept_notifyWatchers (kept_placeLine
      (kept_clearResv h)))))
  · exact kept_endTxn (.ite (kept_notifyWatchers (kept_memWriteLine (kept_clearResv (kept_keepGot h)))) (kept_sendMsg (kept_notifyWatchers
      (kept_memWriteLine (kept_clearResv (kept_keepGot h))))))
  · exact kept_setTxn (.ite (.ite (kept_memReadLine (kept_keepGot h)) (kept_countFar (kept_notifyWatchers (kept_memWriteLine
      (kept_clearResv (kept_memReadLine (kept_keepGot h))))))) (kept_sendMsg (.ite (kept_memReadLine (kept_keepGot h)) (kept_countFar
        (kept_notifyWatchers (kept_memWriteLine (kept_clearResv (kept_memReadLine (kept_keepGot h)))))))))
  · exact kept_endTxn h

theorem kept_progress {line : Nat} (h : Kept b s t) : Kept b s (progress line t) := by
  rw [progress]
  split
  · refine .ite ?_ ?_
    · refine kept_endTxn ?_
      split
      · exact .ite (kept_finish h) h
      · exact h
    · split
      · exact .ite (kept_finish h) h
      · exact h
  · split
    · exact .ite (kept_finish h) h
    · exact h

theorem kept_admitReq {line : Nat} {r : Req} (h : Kept b s t) : Kept b s (admitReq line r t) := by
  rw [admitReq]
  refine kept_progress ?_
  refine kept_setTxn ?_
  split
  · exact .ite (kept_setDir (.ite (kept_makeRoom h) h)) (.ite (kept_makeRoom h) h)
  · exact .ite (kept_makeRoom h) h

theorem kept_directAccess {line : Nat} {r : Req} (h : Kept b s t) : Kept b s (directAccess line r t) := by
  rw [directAccess]
  split
  · exact kept_sendMsg (kept_notifyWatchers (kept_memWriteLine (kept_clearResv h)))
  · exact kept_sendMsg (kept_notifyWatchers (kept_memWriteLine (kept_clearResv h)))
  · exact kept_sendMsg (kept_notifyWatchers (kept_memWriteLine (kept_clearResv h)))
  · exact kept_sendMsg (.ite (kept_memReadLine h) (kept_notifyWatchers (kept_memWriteLine (kept_clearResv (kept_memReadLine h)))))
  · exact h
  · exact kept_sendMsg (kept_memReadLine h)

theorem kept_atomicFails {k : ReqKind} {agent : Agent} (h : Kept b s t) : Kept b s (atomicFails k agent t) := by
  unfold atomicFails
  split
  · exact kept_trapHart h
  · exact h

theorem kept_deny {r : Req} {line : Nat} (h : Kept b s t) : Kept b s (deny r line t) := by
  rw [deny]
  exact kept_atomicFails (.record h)

theorem kept_forgetLines {gone : Nat → Bool} (h : Kept b s t) : Kept b s (forgetLines gone t) := by
  rw [forgetLines]
  exact .foldl (fun _ _ hu => kept_trapHart hu) (.foldl (fun _ _ hu => kept_trapHart hu) (.foldl (fun _ _ hu => kept_deny hu) (.record h)))

theorem kept_admitWaiting {f line : Nat} (h : Kept b s t) : Kept b s (admitWaiting f line t) := by
  induction f generalizing line t with
  | zero => exact h
  | succ f ih =>
    rw [admitWaiting]
    split
    · exact h
    · exact .ite (ih (kept_deny (.record h))) (.ite h (ih (.ite (kept_admitReq (.record h)) (kept_directAccess (.record h)))))

theorem kept_admitAll (h : Kept b s t) : Kept b s (admitAll t) := by
  rw [admitAll]
  exact .foldl (fun _ _ hu => kept_admitWaiting hu) h

theorem kept_advance {line : Nat} (h : Kept b s t) : Kept b s (advance line t) := by
  rw [advance]
  exact kept_admitAll (kept_progress h)

theorem kept_request {line : Nat} {r : Req} (h : Kept b s t) : Kept b s (request line r t) := by
  rw [request]
  refine .ite (kept_deny h) ?_
  split
  · exact h
  · exact .ite (kept_directAccess (kept_touch h)) (.ite (kept_advance (kept_admitReq (kept_touch h))) (.record (kept_touch h)))

theorem kept_readRequest {agent : Agent} {line : Nat} {kind : ReqKind} {st : CacheSt} (h : Kept b s t) :
    Kept b s (readRequest agent line kind st t) := by
  rw [readRequest]
  split
  · exact h
  · refine .ite h ?_
    refine .ite (kept_request h) ?_
    split
    · split
      · exact .ite (kept_request (kept_setCacheLine h)) h
      · exact h
      · exact h
      · exact kept_request (.ite h (kept_setCacheLine (kept_makeWay h)))
    · split
      · exact .ite (kept_request (kept_setCacheLine h)) h
      · exact h
      · exact h
      · exact kept_request (.ite h (kept_setCacheLine (kept_makeWay h)))

theorem kept_plainRequest {agent : Agent} {line : Nat} {kind : ReqKind} {data : List Byte} (h : Kept b s t) :
    Kept b s (plainRequest agent line kind data t) := by
  rw [plainRequest]
  exact kept_request h

theorem kept_answerSnoop {c line : Nat} {k : SnpKind} {t' : Txn} (h : Kept b s t) : Kept b s (answerSnoop c line k t' t) := by
  rw [answerSnoop]
  split
  · exact kept_sendMsg (kept_setTxn (kept_agentError h))
  · refine kept_sendMsg ?_
    split
    · exact kept_setCacheLine (.ite (kept_sendMsg (kept_setTxn (kept_agentError h))) (kept_setTxn (kept_agentError h)))
    · exact kept_setCacheLine (kept_loseResv (.ite (kept_sendMsg (kept_setTxn (kept_agentError h))) (kept_setTxn (kept_agentError h))))
    · exact kept_loseCopy (.ite (kept_sendMsg (kept_setTxn (kept_agentError h))) (kept_setTxn (kept_agentError h)))

theorem kept_takeSnoop {agent : Agent} {line : Nat} {k : SnpKind} (h : Kept b s t) : Kept b s (takeSnoop agent line k t) := by
  rw [takeSnoop]
  split
  · exact .ite (kept_answerSnoop h) h
  · exact h

theorem kept_homeResponse {kind : Nat} {agent : Agent} {line : Nat} (h : Kept b s t) : Kept b s (homeResponse kind agent line t) := by
  rw [homeResponse]
  split
  · exact h
  · split
    · have hu := kept_takeMsg ‹_› h
      split
      · exact hu
      · refine kept_advance ?_
        refine .ite (.ite hu (kept_dropHolder hu)) ?_
        refine .ite ?_ ?_
        · refine kept_setTxn ?_
          split
          · have hv := hu
            exact kept_memWriteBack (.ite hv (kept_setDir hv))
          · have hv := hu
            exact .ite hv (kept_setDir hv)
        · refine .ite (kept_setTxn (kept_dropHolder hu)) ?_
          refine .ite ?_ ?_
          · refine kept_setTxn ?_
            split
            · exact kept_count hu
            · exact hu
          · split
            · exact kept_count hu
            · exact hu
    · exact h

theorem kept_homeWriteback {dirty : Bool} {agent : Agent} {line : Nat} (h : Kept b s t) :
    Kept b s (homeWriteback dirty agent line t) := by
  rw [homeWriteback]
  split
  · exact h
  · split
    · have hu := kept_takeMsg ‹_› h
      refine kept_advance ?_
      split
      · exact .ite (kept_setTxn (kept_sendMsg (kept_dropHolder (.ite (kept_memWriteBack hu) hu)))) (kept_sendMsg (kept_dropHolder (.ite
          (kept_memWriteBack hu) hu)))
      · exact kept_sendMsg (kept_dropHolder (.ite (kept_memWriteBack hu) hu))
    · exact h

theorem kept_predMove {h' a : Nat} {up : Bool} (h : Kept b s t) : Kept b s (predMove h' a up t) := by
  rw [predMove]
  exact .record h

theorem kept_homeLr {h' addr w : Nat} {d : List Byte × Bool} (h : Kept b s t) : Kept b s (homeLr h' addr w d t) := by
  rw [homeLr]
  exact .ite (kept_trapHart h) (kept_giveHart (.record h))

theorem kept_passWaits {c line : Nat} {d : List Byte × Bool} (h : Kept b s t) : Kept b s (passWaits c line d t) := by
  rw [passWaits]
  exact .foldl (fun _ _ hu => .ite (kept_homeLr hu) (kept_plainRequest hu)) (kept_dropWaits h)

theorem kept_handOver {agent : Agent} {line : Nat} {data : Option (List Byte × Bool)} (h : Kept b s t) :
    Kept b s (handOver agent line data t) := by
  unfold handOver
  split
  · exact .record h
  · exact h

theorem kept_takeOld {agent : Agent} {line h' addr v : Nat} {cont poisoned : Bool} (h : Kept b s t) :
    Kept b s (takeOld agent line h' addr v cont poisoned t) := by
  unfold takeOld
  split
  · split
    · split
      · exact .ite (kept_trapHart (kept_predMove (kept_sendMsg h))) (kept_giveHart (kept_predMove (kept_sendMsg h)))
      · exact .ite (kept_sendMsg h) (kept_giveHart (kept_sendMsg h))
    · split
      · exact .ite (kept_trapHart (kept_predMove h)) (kept_giveHart (kept_predMove h))
      · exact .ite h (kept_giveHart h)
  · split
    · exact .ite (kept_trapHart (kept_predMove h)) (kept_giveHart (kept_predMove h))
    · exact .ite h (kept_giveHart h)

theorem kept_askOwner {c line : Nat} (h : Kept b s t) : Kept b s (askOwner c line t) := by
  rw [askOwner]
  refine .ite h ?_
  split <;> exact kept_readRequest h

theorem kept_fillWay {c line : Nat} (h : Kept b s t) : Kept b s (fillWay c line t) := by
  rw [fillWay]
  refine .ite h ?_
  refine .ite h ?_
  dsimp only
  split
  · exact kept_evict (kept_draw h)
  · exact kept_draw h

theorem kept_takeDat {agent : Agent} {line : Nat} (h : Kept b s t) : Kept b s (takeDat agent line t) := by
  rw [takeDat]
  split
  · have hu := kept_takeMsg ‹_› h
    split
    · split
      · exact kept_handOver (kept_sendMsg hu)
      · split
        · have hv := hu
          exact .ite (kept_askOwner (.ite (kept_landLine (kept_setCacheLine (kept_fillWay (kept_sendMsg hv)))) (kept_setCacheLine
            (kept_fillWay (kept_sendMsg hv))))) (kept_runWaits (.ite (kept_landLine (kept_setCacheLine (kept_fillWay (kept_sendMsg hv))))
              (kept_setCacheLine (kept_fillWay (kept_sendMsg hv)))))
        · have hv := hu
          refine .ite (kept_handOver (kept_sendMsg hv)) ?_
          split
          · exact .ite (kept_passWaits (kept_setCacheLine (kept_handOver (kept_sendMsg hv)))) (kept_handOver (kept_sendMsg hv))
          · exact kept_passWaits (kept_handOver (kept_sendMsg hv))
    · split
      · exact kept_handOver hu
      · split
        · have hv := hu
          exact .ite (kept_askOwner (.ite (kept_landLine (kept_setCacheLine (kept_fillWay hv))) (kept_setCacheLine (kept_fillWay hv))))
            (kept_runWaits (.ite (kept_landLine (kept_setCacheLine (kept_fillWay hv))) (kept_setCacheLine (kept_fillWay hv))))
        · have hv := hu
          refine .ite (kept_handOver hv) ?_
          split
          · exact .ite (kept_passWaits (kept_setCacheLine (kept_handOver hv))) (kept_handOver hv)
          · exact kept_passWaits (kept_handOver hv)
  · split
    · exact kept_takeOld (kept_takeMsg ‹_› h)
    · exact h

theorem kept_takeAckGrant {agent : Agent} {line : Nat} (h : Kept b s t) : Kept b s (takeAckGrant agent line t) := by
  rw [takeAckGrant]
  split
  · have hu := kept_takeMsg ‹_› h
    split
    · exact .ite (kept_advance (kept_setTxn hu)) hu
    · exact hu
  · exact h

theorem kept_takeAckEv {agent : Agent} {line : Nat} (h : Kept b s t) : Kept b s (takeAckEv agent line t) := by
  rw [takeAckEv]
  split
  · split
    · have hu := kept_takeMsg ‹_› h
      split
      · exact .ite (kept_askOwner (kept_setCacheLine hu)) hu
      · exact hu
    · exact h
  · exact h

theorem kept_lineStep {line : Nat} (h : Kept b s t) : Kept b s (lineStep line t) := by
  rw [lineStep]
  split
  · exact kept_homeWriteback h
  · split
    · exact kept_homeResponse h
    · exact kept_takeDat h
    · exact kept_takeDat h
    · exact kept_takeAckGrant h
    · exact kept_takeAckEv h
    · split
      · split
        · exact kept_answerSnoop h
        · exact kept_advance h
      · exact h

theorem kept_calmStep {line : Nat} (h : Kept b s t) : Kept b s (calmStep line t) := by
  rw [calmStep]
  refine .ite (kept_lineStep h) ?_
  split
  · refine .ite (kept_admitAll h) ?_
    split
    · exact kept_lineStep h
    · exact kept_admitAll h
  · split
    · exact kept_lineStep h
    · exact kept_admitAll h

theorem kept_calmRun {f : Nat} {room : Bool} {line : Nat} (h : Kept b s t) : Kept b s (calmRun f room line t) := by
  induction f generalizing room line t with
  | zero => exact h
  | succ f ih =>
    rw [calmRun]
    exact .ite h (ih (kept_calmStep h))

theorem kept_calmLine {line : Nat} (h : Kept b s t) : Kept b s (calmLine line t) := by
  rw [calmLine]
  exact kept_calmRun h

theorem kept_calmPlace {line : Nat} (h : Kept b s t) : Kept b s (calmPlace line t) := by
  rw [calmPlace]
  exact kept_calmRun h

theorem kept_forwarderError {line : Nat} (h : Kept b s t) : Kept b s (forwarderError line t) := by
  rw [forwarderError]
  split
  · exact kept_agentError h
  · exact h

theorem kept_readCalm {line : Nat} (h : Kept b s t) : Kept b s (readCalm line t).2 := by
  rw [readCalm]
  split
  · exact .ite (kept_forwarderError (kept_touch h)) (kept_touch h)
  · exact kept_memReadLine (.ite (kept_forwarderError (kept_touch h)) (kept_touch h))

theorem kept_cohReadLine {line : Nat} (h : Kept b s t) : Kept b s (cohReadLine line t).2 := by
  rw [cohReadLine]
  exact kept_readCalm (kept_calmLine h)

theorem kept_shareAll {line : Nat} (h : Kept b s t) : Kept b s (shareAll line t) := by
  rw [shareAll]
  refine .foldl ?_ h
  intro _ _ hu
  split
  · exact .ite (kept_setCacheLine hu) hu
  · exact hu

theorem kept_shareMiss {n line : Nat} (h : Kept b s t) : Kept b s (shareMiss n line t).2 := by
  rw [shareMiss]
  refine kept_setDir ?_
  refine kept_setCacheLine ?_
  refine kept_shareAll ?_
  split
  · exact kept_memWriteBack (kept_forwarderError (kept_makeWay (kept_makeRoom (kept_touch h))))
  · exact kept_memReadLine (kept_forwarderError (kept_makeWay (kept_makeRoom (kept_touch h))))

theorem kept_shareReadLine {n line : Nat} (h : Kept b s t) : Kept b s (shareReadLine n line t).2 := by
  rw [shareReadLine]
  refine .ite_snd (kept_cohReadLine h) ?_
  dsimp only
  split
  · exact .ite_snd (kept_touch (kept_calmPlace h)) (kept_cohReadLine (kept_touch (kept_calmPlace h)))
  · exact .ite_snd (kept_shareMiss (kept_touch (kept_calmPlace h))) (kept_cohReadLine (kept_touch (kept_calmPlace h)))

theorem kept_mergeCalm {line mask whole : Nat} {data : List Byte} (h : Kept b s t) : Kept b s (mergeCalm line mask whole data t) := by
  rw [mergeCalm]
  exact kept_notifyWatchers (.ite (kept_placeLine (kept_killCopies (kept_clearResv (kept_touch h)))) (kept_memMergeLine (kept_killCopies
    (kept_clearResv (kept_touch h)))))

theorem kept_writeCalm {line mask : Nat} {data : List Byte} (h : Kept b s t) : Kept b s (writeCalm line mask data t) := by
  rw [writeCalm]
  exact kept_mergeCalm h

theorem kept_cohMergeLine {line mask whole : Nat} {data : List Byte} (h : Kept b s t) :
    Kept b s (cohMergeLine line mask whole data t) := by
  rw [cohMergeLine]
  exact kept_mergeCalm (.ite (kept_calmPlace h) (kept_calmLine h))

theorem kept_cohWriteLine {line mask : Nat} {data : List Byte} (h : Kept b s t) : Kept b s (cohWriteLine line mask data t) := by
  rw [cohWriteLine]
  exact kept_cohMergeLine h

theorem kept_atomicAt {op : AtomicOp} {addr w x : Nat} (h : Kept b s t) : Kept b s (atomicAt op addr w x t).2 := by
  rw [atomicAt]
  exact .ite_snd (kept_cohReadLine h) (kept_countFar (kept_writeCalm (kept_cohReadLine h)))

theorem kept_readLines {k line : Nat} (h : Kept b s t) : Kept b s (readLines k line t).2 := by
  induction k generalizing line t with
  | zero => exact h
  | succ k ih =>
    rw [readLines]
    exact ih (kept_cohReadLine h)

theorem kept_readMem {a n : Nat} (h : Kept b s t) : Kept b s (readMem a n t).2 := by
  rw [readMem]
  exact .ite_snd h (kept_readLines h)

theorem kept_mergeLines {lo hi k a : Nat} {l : List Byte} (h : Kept b s t) : Kept b s (mergeLines lo hi k a l t) := by
  induction k generalizing lo hi a l t with
  | zero => exact h
  | succ k ih =>
    rw [mergeLines]
    exact .ite h (ih (kept_cohMergeLine h))

theorem kept_mergeMem {lo hi a : Nat} {l : List Byte} (h : Kept b s t) : Kept b s (mergeMem lo hi a l t) := by
  rw [mergeMem]
  exact kept_mergeLines h

theorem kept_writeMem {a : Nat} {l : List Byte} (h : Kept b s t) : Kept b s (writeMem a l t) := by
  rw [writeMem]
  exact kept_mergeMem h

theorem kept_shareLines {n k line : Nat} (h : Kept b s t) : Kept b s (shareLines n k line t).2 := by
  induction k generalizing n line t with
  | zero => exact h
  | succ k ih =>
    rw [shareLines]
    exact ih (kept_shareReadLine h)

theorem kept_readStream {die : Nat} {alloc : Bool} {a n : Nat} (h : Kept b s t) : Kept b s (readStream die alloc a n t).2 := by
  rw [readStream]
  exact .ite_snd h (.ite_snd (kept_shareLines h) (kept_readMem h))

theorem kept_tryWrite {a : Nat} {l : List Byte} (h : Kept b s t) : Kept b s (tryWrite a l t).2 := by
  rw [tryWrite]
  exact .ite_snd (kept_writeMem h) h

theorem kept_tryRead {a n : Nat} (h : Kept b s t) : Kept b s (tryRead a n t).2 := by
  rw [tryRead]
  exact .ite_snd (kept_readMem h) h

end Sys2Proof.Machine
end

section
/-! PROOFS. What the functions of Machine/Events.lean keep. -/

namespace Sys2Proof.Machine
variable {b : Bool} {s t : State}

theorem kept_setRing {k : Nat} {r : Ring} (h : Kept b s t) : Kept b s (State.setRing t k r) := by
  rw [State.setRing]
  exact .record h

theorem kept_disableRing {k : Nat} (h : Kept b s t) : Kept b s (disableRing k t) := by
  rw [disableRing]
  exact kept_setRing (kept_setNum (kept_setNum h))

theorem kept_sendImsic {h' file id : Nat} (h : Kept b s t) : Kept b s (sendImsic h' file id t) := by
  rw [sendImsic]
  exact kept_emit (kept_setHart h)

theorem kept_sendMsix {link entry : Nat} (h : Kept b s t) : Kept b s (sendMsix link entry t) := by
  rw [sendMsix]
  exact .ite (kept_setHlink h) (kept_emit h)

theorem kept_flushMsix {link : Nat} (h : Kept b s t) : Kept b s (flushMsix link t) := by
  rw [flushMsix]
  exact .ite (.foldl (fun _ _ hu => kept_emit hu) (kept_setHlink h)) h

theorem kept_refreshCamip {p : Nat} (h : Kept b s t) : Kept b s (refreshCamip p t) := by
  rw [refreshCamip]
  exact kept_setNum h

theorem kept_plcaLost {p : Nat} (h : Kept b s t) : Kept b s (plcaLost p t) := by
  rw [plcaLost]
  exact .ite (.ite (kept_refreshCamip (.record h)) (kept_post (kept_refreshCamip (.record h)))) h

theorem kept_camipSend {p : Nat} {o : Out} (h : Kept b s t) : Kept b s (camipSend p o t) := by
  rw [camipSend]
  exact .ite (kept_count (kept_emit h)) (.record h)

theorem kept_setSess {slot : Nat} {x : Sess} (h : Kept b s t) : Kept b s (State.setSess t slot x) := by
  rw [State.setSess]
  exact .record h

theorem kept_closeSession {slot cause : Nat} (h : Kept b s t) : Kept b s (closeSession slot cause t) := by
  rw [closeSession]
  exact .ite h (kept_setSess (kept_setOct (kept_setNum (kept_setNum (kept_post h)))))

theorem kept_sessionSend {slot : Nat} {notice : Bool} {svc trans status : Nat} {body : List Byte} (h : Kept b s t) :
    Kept b s (sessionSend slot notice svc trans status body t) := by
  rw [sessionSend]
  exact .ite (kept_closeSession h) (kept_camipSend (kept_setSess h))

theorem kept_sendNotify {slot k : Nat} (h : Kept b s t) : Kept b s (sendNotify slot k t) := by
  rw [sendNotify]
  exact kept_sessionSend h

theorem kept_deliver {k : Nat} (h : Kept b s t) : Kept b s (deliver k t) := by
  rw [deliver]
  exact .ite (.ite (kept_setNum (.ite (kept_sendNotify (.ite (kept_sendMsix (.ite (kept_sendImsic h) h)) (.ite (kept_sendImsic h) h)))
    (.ite (kept_sendMsix (.ite (kept_sendImsic h) h)) (.ite (kept_sendImsic h) h)))) (.ite (kept_sendNotify (.ite (kept_sendMsix (.ite
      (kept_sendImsic h) h)) (.ite (kept_sendImsic h) h))) (.ite (kept_sendMsix (.ite (kept_sendImsic h) h)) (.ite (kept_sendImsic h) h))))
        h

theorem kept_deliverAll (h : Kept b s t) : Kept b s (deliverAll t) := by
  rw [deliverAll]
  exact .foldl (fun _ _ hu => kept_deliver hu) h

theorem kept_edge {k : Nat} (h : Kept b s t) : Kept b s (edge k t) := by
  rw [edge]
  exact .ite (kept_deliver (kept_setNum h)) (.ite (kept_setNum h) h)

theorem kept_ringFailed {k seq : Nat} (h : Kept b s t) : Kept b s (ringFailed k seq t) := by
  rw [ringFailed]
  exact .record (kept_disableRing (kept_count h))

theorem kept_takeSeq {k : Nat} (h : Kept b s t) : Kept b s (takeSeq k t) := by
  rw [takeSeq]
  exact .ite (kept_setNum h) (.record (kept_disableRing (kept_setNum h)))

theorem kept_writeRecord {k : Nat} {e : Ev} (h : Kept b s t) : Kept b s (writeRecord k e t) := by
  rw [writeRecord]
  exact .ite (.ite (kept_takeSeq (.ite (kept_edge (kept_setRing (kept_count (kept_setNum (kept_tryWrite (kept_tryWrite h))))))
    (kept_setRing (kept_count (kept_setNum (kept_tryWrite (kept_tryWrite h))))))) (kept_ringFailed (kept_takeSeq (kept_tryWrite
      (kept_tryWrite h))))) (kept_ringFailed (kept_takeSeq (kept_tryWrite h)))

theorem kept_loseRecord {k : Nat} (h : Kept b s t) : Kept b s (loseRecord k t) := by
  rw [loseRecord]
  exact kept_takeSeq (kept_tryWrite (kept_count (kept_setRing h)))

theorem kept_lostRecord {k : Nat} (h : Kept b s t) : Kept b s (lostRecord k t) := by
  rw [lostRecord]
  exact .ite (.record (kept_writeRecord (kept_setRing h))) h

theorem kept_offerTo {k : Nat} {e : Ev} (h : Kept b s t) : Kept b s (offerTo k e t) := by
  rw [offerTo]
  exact .ite (kept_loseRecord h) (kept_writeRecord h)

theorem kept_offer {e : Ev} (h : Kept b s t) : Kept b s (offer e t) := by
  rw [offer]
  split
  · exact .ite h (kept_count h)
  · exact .foldl (fun _ _ hu => kept_offerTo hu) h

theorem kept_drainEvents {f : Nat} (h : Kept b s t) : Kept b s (drainEvents f t) := by
  induction f generalizing t with
  | zero => exact Kept.record h
  | succ f ih =>
    rw [drainEvents]
    split
    · exact h
    · exact ih (kept_offer (.record h))

theorem kept_settle (h : Kept b s t) : Kept b s (settle t) := by
  rw [settle]
  exact kept_drainEvents h

end Sys2Proof.Machine
end

section
/-! PROOFS. What the functions of Machine/Attest.lean keep. -/

namespace Sys2Proof.Machine
variable {b : Bool} {s t : State}

theorem kept_spdmReply {l : List Byte} (h : Kept b s t) : Kept b s (spdmReply l t).2 := by
  rw [spdmReply]
  exact h

theorem kept_spdmError {error code : Nat} (h : Kept b s t) : Kept b s (spdmError error code t).2 := by
  rw [spdmError]
  exact kept_spdmReply h

theorem kept_certificate {body : List Byte} (h : Kept b s t) : Kept b s (certificate body t).2 := by
  rw [certificate]
  exact .ite_snd (kept_spdmError h) (kept_spdmReply h)

theorem kept_challenge {body : List Byte} (h : Kept b s t) : Kept b s (challenge body t).2 := by
  rw [challenge]
  exact kept_spdmReply (kept_draw h)

theorem kept_measurements {b' : Nat} (h : Kept b s t) : Kept b s (measurements b' t).2 := by
  rw [measurements]
  exact .ite_snd (kept_spdmError h) (kept_spdmReply (kept_draw h))

theorem kept_keyExchangeReply {slot : Nat} (h : Kept b s t) : Kept b s (keyExchangeReply slot t).2 := by
  rw [keyExchangeReply]
  exact kept_spdmReply (kept_draw h)

theorem kept_finishReply (h : Kept b s t) : Kept b s (finishReply t).2 := by
  rw [finishReply]
  exact kept_spdmReply (kept_draw h)

theorem kept_updateReply (h : Kept b s t) : Kept b s (updateReply t).2 := by
  rw [updateReply]
  exact kept_spdmReply (kept_draw h)

theorem kept_fitted {p room : Nat} {r : Answer} (h : Kept b s r.2) : Kept b s (fitted p room r).2 := by
  rw [fitted]
  exact .ite_snd h (kept_spdmReply (.record (kept_draw h)))

theorem kept_chunkGet {p : Nat} {body : List Byte} (h : Kept b s t) : Kept b s (chunkGet p body t).2 := by
  rw [chunkGet]
  split
  · exact kept_spdmError h
  · exact .ite_snd (kept_spdmError (.record h)) (kept_spdmReply (.record h))

theorem kept_chunkSend {p handle seq : Nat} {last : Bool} {run : State → Answer} (hrun : ∀ u, Kept b s u → Kept b s (run u).2) (h : Kept b
    s t) :
    Kept b s (chunkSend p handle seq last run t).2 := by
  rw [chunkSend]
  exact .ite_snd (kept_spdmError (.record h)) (.ite_snd (kept_spdmReply (hrun _ (.record h))) (kept_spdmReply (.record h)))

theorem kept_attestReply {p code : Nat} {body : List Byte} (h : Kept b s t) : Kept b s (attestReply p code body t).2 := by
  unfold attestReply
  split
  · exact kept_spdmReply h
  · exact kept_spdmReply (kept_draw h)
  · exact kept_spdmReply h
  · exact kept_spdmReply h
  · exact kept_certificate h
  · exact kept_challenge h
  · exact kept_measurements h
  · exact kept_spdmError h
  · exact kept_chunkGet h
  · exact kept_spdmError h

end Sys2Proof.Machine
end

section
/-! PROOFS. What the functions of Machine/Coherence.lean keep. -/

namespace Sys2Proof.Machine
variable {b : Bool} {s t : State}

theorem kept_drainHome {n : Nat} (h : Kept b s t) : Kept b s (drainHome n t) := by
  rw [drainHome]
  exact .ite (.foldl (fun _ _ hu => kept_backInvalidate hu) (kept_setNum h)) (kept_setNum (.foldl (fun _ _ hu => kept_backInvalidate hu)
    (kept_setNum h)))

theorem kept_drainAgent {c : Nat} (h : Kept b s t) : Kept b s (drainAgent c t) := by
  rw [drainAgent]
  refine .foldl ?_ (.foldl (fun _ _ hu => kept_calmLine hu) h)
  intro _ _ hu
  refine kept_dropHolder ?_
  refine kept_loseResv ?_
  refine kept_setCacheLine ?_
  split
  · exact .ite (kept_memWriteBack (kept_agentError hu)) (kept_agentError hu)
  · exact kept_agentError hu

theorem kept_poisonLine {line : Nat} (h : Kept b s t) : Kept b s (poisonLine line t) := by
  rw [poisonLine]
  exact .foldl (fun _ _ hu => kept_setPoison hu) h

theorem kept_agentGone {c : Nat} (h : Kept b s t) : Kept b s (agentGone c t) := by
  rw [agentGone]
  refine kept_post ?_
  refine .foldl ?_ (.record (.foldl (fun _ _ hu => .ite hu (kept_count hu)) (.foldl (fun _ _ hu => kept_dropHolder hu) (.foldl (fun _ _ hu
    => kept_poisonLine hu) h))))
  intro _ _ hu
  split
  · exact kept_advance (kept_setTxn hu)
  · exact hu

theorem kept_takeWatch {die line : Nat} (h : Kept b s t) : Kept b s (takeWatch die line t) := by
  rw [takeWatch]
  split
  · have hu := kept_takeMsg ‹_› h
    exact .ite (kept_plainRequest hu) hu
  · exact h

theorem kept_takeAckWr {agent : Agent} {line : Nat} (h : Kept b s t) : Kept b s (takeAckWr agent line t) := by
  rw [takeAckWr]
  split
  · exact .record (kept_takeMsg ‹_› h)
  · exact h

theorem kept_execRdShare {agent : Agent} {line : Nat} (h : Kept false s t) : Works s (execRdShare agent line t) :=
  ⟨_, _, rfl, kept_readRequest h⟩

theorem kept_execRdUnique {agent : Agent} {line : Nat} (h : Kept false s t) : Works s (execRdUnique agent line t) :=
  ⟨_, _, rfl, kept_readRequest h⟩

theorem kept_execPromote {agent : Agent} {line : Nat} (h : Kept false s t) : Works s (execPromote agent line t) :=
  ⟨_, _, rfl, kept_readRequest h⟩

theorem kept_execRdPeek {agent : Agent} {line : Nat} (h : Kept false s t) : Works s (execRdPeek agent line t) :=
  ⟨_, _, rfl, kept_plainRequest h⟩

theorem kept_execRdPeekWatch {agent : Agent} {line : Nat} (h : Kept false s t) : Works s (execRdPeekWatch agent line t) :=
  ⟨_, _, rfl, kept_plainRequest h⟩

theorem kept_execWrFull {agent : Agent} {line : Nat} {data : List Byte} (h : Kept false s t) : Works s (execWrFull agent line data t) :=
  ⟨_, _, rfl, kept_plainRequest h⟩

theorem kept_execWrHint {agent : Agent} {line : Nat} {data : List Byte} {targetOk : Bool} (h : Kept false s t) :
    Works s (execWrHint agent line data targetOk t) :=
  ⟨_, _, rfl, kept_plainRequest h⟩

theorem kept_execWrMasked {agent : Agent} {line mask : Nat} {data : List Byte} (h : Kept false s t) :
    Works s (execWrMasked agent line mask data t) :=
  ⟨_, _, rfl, kept_plainRequest h⟩

theorem kept_execAtomicHome {agent : Agent} {hart addr width : Nat} {op : AtomicOp} {operand : Nat} (h : Kept false s t) :
    Works s (execAtomicHome agent hart addr width op operand t) :=
  ⟨_, _, rfl, .ite (kept_plainRequest h) h⟩

theorem kept_execSnpShare {agent : Agent} {line : Nat} (h : Kept false s t) : Works s (execSnpShare agent line t) :=
  ⟨_, _, rfl, kept_takeSnoop h⟩

theorem kept_execSnpUnique {agent : Agent} {line : Nat} (h : Kept false s t) : Works s (execSnpUnique agent line t) :=
  ⟨_, _, rfl, kept_takeSnoop h⟩

theorem kept_execSnpKill {agent : Agent} {line : Nat} (h : Kept false s t) : Works s (execSnpKill agent line t) :=
  ⟨_, _, rfl, kept_takeSnoop h⟩

theorem kept_execSnpPeek {agent : Agent} {line : Nat} (h : Kept false s t) : Works s (execSnpPeek agent line t) :=
  ⟨_, _, rfl, kept_takeSnoop h⟩

theorem kept_execWatchNotice {die line : Nat} (h : Kept false s t) : Works s (execWatchNotice die line t) :=
  ⟨_, _, rfl, kept_takeWatch h⟩

theorem kept_execRspNone {agent : Agent} {line : Nat} (h : Kept false s t) : Works s (execRspNone agent line t) :=
  ⟨_, _, rfl, kept_homeResponse h⟩

theorem kept_execRspSentKeep {agent : Agent} {line : Nat} (h : Kept false s t) : Works s (execRspSentKeep agent line t) :=
  ⟨_, _, rfl, kept_homeResponse h⟩

theorem kept_execRspSentGone {agent : Agent} {line : Nat} (h : Kept false s t) : Works s (execRspSentGone agent line t) :=
  ⟨_, _, rfl, kept_homeResponse h⟩

theorem kept_execWbInFlight {agent : Agent} {line : Nat} (h : Kept false s t) : Works s (execWbInFlight agent line t) :=
  ⟨_, _, rfl, kept_homeResponse h⟩

theorem kept_execEvDirty {agent : Agent} {line : Nat} (h : Kept false s t) : Works s (execEvDirty agent line t) :=
  ⟨_, _, rfl, kept_homeWriteback h⟩

theorem kept_execEvClean {agent : Agent} {line : Nat} (h : Kept false s t) : Works s (execEvClean agent line t) :=
  ⟨_, _, rfl, kept_homeWriteback h⟩

theorem kept_execAckGrant {agent : Agent} {line : Nat} (h : Kept false s t) : Works s (execAckGrant agent line t) :=
  ⟨_, _, rfl, kept_takeAckGrant h⟩

theorem kept_execAckEv {agent : Agent} {line : Nat} (h : Kept false s t) : Works s (execAckEv agent line t) :=
  ⟨_, _, rfl, kept_takeAckEv h⟩

theorem kept_execAckWr {agent : Agent} {line : Nat} (h : Kept false s t) : Works s (execAckWr agent line t) :=
  ⟨_, _, rfl, kept_takeAckWr h⟩

theorem kept_execCacheEviction {agent : Agent} {line : Nat} (h : Kept false s t) : Works s (execCacheEviction agent line t) := by
  refine ⟨_, _, rfl, ?_⟩
  split
  · exact kept_evict h
  · exact h

end Sys2Proof.Machine
end

section
/-! PROOFS. What the functions of Machine/Cores.lean keep. -/

namespace Sys2Proof.Machine
variable {b : Bool} {s t : State}

theorem kept_predSaw {h' a : Nat} (h : Kept b s t) : Kept b s (predSaw h' a t) := by
  rw [predSaw]
  exact .record h

theorem kept_addWait {w : CoreWait} (h : Kept b s t) : Kept b s (addWait w t) := by
  rw [addWait]
  exact .record h

theorem kept_nearAtomic {w : CoreWait} (h : Kept b s t) : Kept b s (nearAtomic w t) := by
  rw [nearAtomic]
  split
  · exact .ite (kept_nearNow (kept_predSaw (.ite h (kept_predMove h)))) (.ite (kept_readRequest (kept_addWait (kept_predSaw (.ite
      (kept_predMove h) h)))) (kept_addWait (kept_predSaw (.ite (kept_predMove h) h))))
  · exact kept_readRequest (kept_addWait (kept_predSaw (.ite (kept_predMove h) h)))

theorem kept_doAmo {h' addr w : Nat} {op : AtomicOp} {x : Nat} (h : Kept b s t) : Kept b s (doAmo h' addr w op x t) := by
  rw [doAmo]
  split
  · exact kept_trapHart h
  · exact .ite (.ite (kept_trapHart (kept_atomicAt h)) (kept_giveHart (kept_atomicAt h))) (.ite (kept_plainRequest h) (kept_nearAtomic h))

theorem kept_doLr {h' addr w : Nat} (h : Kept b s t) : Kept b s (doLr h' addr w t) := by
  rw [doLr]
  split
  · exact kept_trapHart h
  · exact .ite (kept_homeLr (kept_cohReadLine h)) (kept_nearAtomic h)

theorem kept_useResv {h' : Nat} (h : Kept b s t) : Kept b s (useResv h' t) := by
  rw [useResv]
  exact .record h

theorem kept_scHome {h' addr w v : Nat} (h : Kept b s t) : Kept b s (scHome h' addr w v t) := by
  rw [scHome]
  exact .ite (kept_giveHart (kept_writeCalm (kept_useResv (kept_calmLine h)))) (kept_giveHart (kept_useResv (kept_calmLine h)))

theorem kept_scNear {h' addr w v : Nat} (h : Kept b s t) : Kept b s (scNear h' addr w v t) := by
  rw [scNear]
  split
  · exact .ite (kept_giveHart (kept_notifyWatchers (kept_coreGets (kept_setCacheLine (kept_clearResv (kept_useResv (kept_predSaw h)))))))
      (kept_giveHart (kept_useResv (kept_predSaw h)))
  · exact kept_giveHart (kept_useResv (kept_predSaw h))

theorem kept_doSc {h' addr w v : Nat} (h : Kept b s t) : Kept b s (doSc h' addr w v t) := by
  rw [doSc]
  split
  · exact kept_trapHart h
  · exact .ite (kept_scHome h) (kept_scNear h)

theorem kept_cboCleanLine {c line : Nat} (h : Kept b s t) : Kept b s (cboCleanLine c line t) := by
  rw [cboCleanLine]
  split
  · exact .ite (kept_setCacheLine (kept_memWriteBack h)) h
  · exact h

theorem kept_cboFlushLine {c line : Nat} (h : Kept b s t) : Kept b s (cboFlushLine c line t) := by
  rw [cboFlushLine]
  split
  · exact .ite (kept_dropHolder (kept_loseResv (kept_setCacheLine (.ite (kept_memWriteBack h) h)))) (.ite (kept_memWriteBack h) h)
  · exact h

theorem kept_cboOn {f : Nat → Nat → State → State} {h' addr : Nat} (hf : ∀ x y u, Kept b s u → Kept b s (f x y u)) (h : Kept b s t) :
    Kept b s (cboOn f h' addr t) := by
  rw [cboOn]
  exact .ite (hf _ _ _ h) (kept_trapHart h)

theorem kept_cacheUe {d level h' addr : Nat} (h : Kept b s t) : Kept b s (cacheUe d level h' addr t) := by
  rw [cacheUe]
  refine .ite h ?_
  split
  · exact .ite (kept_post (kept_count (kept_setCacheLine h))) h
  · exact h

theorem kept_startHart {h' pc a1 : Nat} (h : Kept b s t) : Kept b s (startHart h' pc a1 t) := by
  rw [startHart]
  exact kept_setNum (kept_setHart h)

theorem kept_setSource {v : Nat} (h : Kept b s t) : Kept b s (setSource v t) := by
  rw [setSource]
  exact .ite h (kept_post (kept_setNum (.ite h (kept_count h))))

theorem kept_tick (h : Kept false s t) : Kept false s (tick t) := by
  rw [tick]
  exact .ite (.recordPwr h) h

theorem kept_doTimer {h' : Nat} {level : TimerLevel} (h : Kept false s t) : Kept false s (doTimer h' level t) := by
  unfold doTimer
  split <;> exact .ite (kept_setHart h) h

theorem kept_execDat {agent : Agent} {line : Nat} (h : Kept false s t) : Works s (execDat agent line t) :=
  ⟨_, _, rfl, kept_takeDat h⟩

theorem kept_execAmo {hart addr width : Nat} {op : AtomicOp} {operand : Nat} (h : Kept false s t) :
    Works s (execAmo hart addr width op operand t) :=
  ⟨_, _, rfl, kept_doAmo h⟩

theorem kept_execLr {hart addr width : Nat} (h : Kept false s t) : Works s (execLr hart addr width t) :=
  ⟨_, _, rfl, kept_doLr h⟩

theorem kept_execSc {hart addr width value : Nat} (h : Kept false s t) : Works s (execSc hart addr width value t) :=
  ⟨_, _, rfl, kept_doSc h⟩

theorem kept_execCboClean {hart addr : Nat} (h : Kept false s t) : Works s (execCboClean hart addr t) :=
  ⟨_, _, rfl, kept_cboOn (fun _ _ _ hu => kept_cboCleanLine hu) h⟩

theorem kept_execCboFlush {hart addr : Nat} (h : Kept false s t) : Works s (execCboFlush hart addr t) :=
  ⟨_, _, rfl, kept_cboOn (fun _ _ _ hu => kept_cboFlushLine hu) h⟩

theorem kept_execCboInval {hart addr : Nat} (h : Kept false s t) : Works s (execCboInval hart addr t) :=
  ⟨_, _, rfl, kept_cboOn (fun _ _ _ hu => kept_cboFlushLine hu) h⟩

theorem kept_execCoreCacheUe {hd : Nat} {error : CacheError} {hart addr : Nat} (h : Kept false s t) :
    Works s (execCoreCacheUe hd error hart addr t) :=
  ⟨_, _, rfl, kept_cacheUe (.ite h (kept_count h))⟩

theorem kept_execHartStartPc {hart pc : Nat} (h : Kept false s t) : Works s (execHartStartPc hart pc t) :=
  ⟨_, _, rfl, .ite (kept_startHart h) h⟩

theorem kept_execHartStop {hart : Nat} (h : Kept false s t) : Works s (execHartStop hart t) :=
  ⟨_, _, rfl, .ite (kept_setNum h) h⟩

theorem kept_execTimerInterrupt {hart : Nat} {level : TimerLevel} (h : Kept false s t) : Works s (execTimerInterrupt hart level t) :=
  ⟨_, _, rfl, .ite (kept_doTimer h) h⟩

theorem kept_execTimeReferenceStart {timeref refclk : Bool} (h : Kept false s t) : Works s (execTimeReferenceStart timeref refclk t) :=
  ⟨_, _, rfl, .ite (kept_setNum (.recordPwr h)) h⟩

theorem kept_execTimerefLoss (h : Kept false s t) : Works s (execTimerefLoss t) :=
  ⟨_, _, rfl, .ite (.ite (kept_setSource (.recordPwr h)) (.recordPwr h)) h⟩

theorem kept_execReferenceLoss (h : Kept false s t) : Works s (execReferenceLoss t) :=
  ⟨_, _, rfl, .ite (kept_setSource (.recordPwr h)) h⟩

theorem kept_execTimeReferenceReturn {timeref : Bool} (h : Kept false s t) : Works s (execTimeReferenceReturn timeref t) :=
  ⟨_, _, rfl, .ite (.ite (kept_setSource (.recordPwr h)) (.recordPwr h)) h⟩

end Sys2Proof.Machine
end

section
/-! PROOFS. What the functions of Machine/Access.lean keep. -/

namespace Sys2Proof.Machine
variable {b : Bool} {s t : State}

theorem kept_jobRead {j a n : Nat} (h : Kept b s t) : Kept b s (jobRead j a n t).2 := by
  rw [jobRead]
  refine .ite_snd ?_ h
  split <;> exact .of_snd ‹_› (kept_tryRead h)

theorem kept_plainRead {a n : Nat} (h : Kept b s t) : Kept b s (plainRead a n t).2 := by
  rw [plainRead]
  split <;> exact .of_snd ‹_› (kept_tryRead h)

theorem kept_postPart {h' : Nat} {data : List Byte} {op : Option (Nat × Nat)} {relaxed : Bool} {p : Nat × Nat × Nat} (h : Kept b s t) :
    Kept b s (postPart h' data op relaxed t p) := by
  rw [postPart]
  exact kept_emit (kept_setHlink h)

theorem kept_postHost {h' : Nat} {data : List Byte} {op : Option (Nat × Nat)} {relaxed : Bool} (h : Kept b s t) :
    Kept b s (postHost h' data op relaxed t).2 := by
  rw [postHost]
  exact .ite_snd (.foldl (fun _ _ hu => kept_postPart hu) h) h

theorem kept_postEach {core : Bool} {h' : Nat} {data : List Byte} (h : Kept b s t) : Kept b s (postEach core h' data t) := by
  rw [postEach]
  exact .foldl (fun _ _ hu => .ite (kept_postPart hu) (.ite (kept_count hu) hu)) h

theorem kept_askPart {o : RdOwner} {p : Nat × Nat × Nat} (h : Kept b s t) : Kept b s (askPart o t p) := by
  rw [askPart]
  exact kept_emit (.record h)

theorem kept_askHost {o : RdOwner} {h' n : Nat} (h : Kept b s t) : Kept b s (askHost o h' n t) := by
  rw [askHost]
  exact .foldl (fun _ _ hu => kept_askPart hu) h

theorem kept_putStruct {j a : Nat} {l : List Byte} (h : Kept b s t) : Kept b s (putStruct j a l t).2 := by
  rw [putStruct]
  refine .ite_snd ?_ h
  split
  · exact kept_postEach h
  · exact kept_writeMem h

theorem kept_emitLink {p word vl : Nat} {frame : Option Frame} (h : Kept b s t) : Kept b s (emitLink p word vl frame t) := by
  rw [emitLink]
  exact kept_emit h

theorem kept_sendBare {p : Nat} {nak : Bool} {crVl crUnits : Nat} (h : Kept b s t) : Kept b s (sendBare p nak crVl crUnits t) := by
  rw [sendBare]
  exact kept_emitLink h

theorem kept_returnCredits {p vl : Nat} {f : Frame} (h : Kept b s t) : Kept b s (returnCredits p vl f t) := by
  rw [returnCredits]
  exact .ite (kept_sendBare h) h

theorem kept_sendFrame {j : Nat} {f : Frame} (h : Kept b s t) : Kept b s (sendFrame j f t) := by
  rw [sendFrame]
  exact .ite h (.record h)

theorem kept_sendCtrl {j dst : Nat} {payload : List Byte} (h : Kept b s t) : Kept b s (sendCtrl j dst payload t) := by
  rw [sendCtrl]
  exact kept_sendFrame h

theorem kept_sendData {j ch dst : Nat} {payload : List Byte} (h : Kept b s t) : Kept b s (sendData j ch dst payload t) := by
  rw [sendData]
  exact kept_sendFrame (kept_setJob h)

theorem kept_routeOf {j dst : Nat} (h : Kept b s t) : Kept b s (routeOf j dst t).2 := by
  rw [routeOf]
  split <;> exact .of_snd ‹_› (kept_plainRead h)

end Sys2Proof.Machine
end

section
/-! PROOFS. What the functions of Machine/Faults.lean keep. -/

namespace Sys2Proof.Machine
variable {b : Bool} {s t : State}

theorem kept_putDqState {n q v : Nat} (h : Kept b s t) : Kept b s (putDqState n q v t) := by
  rw [putDqState]
  exact kept_putStruct (kept_setNum h)

theorem kept_stopQueue {n q status isn : Nat} (h : Kept b s t) : Kept b s (stopQueue n q status isn t) := by
  rw [stopQueue]
  exact .ite (kept_post (kept_putDqState h)) h

theorem kept_abortOps {n : Nat} {p : Op → Bool} (h : Kept b s t) : Kept b s (abortOps n p t) := by
  rw [abortOps]
  exact kept_setDie h

theorem kept_stopDqs {j : Nat} (h : Kept b s t) : Kept b s (stopDqs j t) := by
  rw [stopDqs]
  exact .foldl (fun _ _ hu => kept_abortOps hu) (.foldl (fun _ _ hu => .ite (kept_stopQueue hu) hu) h)

theorem kept_stopPaths {j mask : Nat} (h : Kept b s t) : Kept b s (stopPaths j mask t) := by
  rw [stopPaths]
  exact .ite (kept_setNum h) (kept_putStruct (kept_setNum h))

theorem kept_putLuState {j v : Nat} (h : Kept b s t) : Kept b s (putLuState j v t) := by
  rw [putLuState]
  exact kept_putStruct (kept_setNum h)

theorem kept_stopLanding {j status : Nat} (h : Kept b s t) : Kept b s (stopLanding j status t) := by
  rw [stopLanding]
  exact .ite (kept_putLuState h) h

theorem kept_abortLanding {j : Nat} (h : Kept b s t) : Kept b s (abortLanding j t) := by
  rw [abortLanding]
  exact kept_setJob h

theorem kept_stopWork {j : Nat} (h : Kept b s t) : Kept b s (stopWork j t) := by
  rw [stopWork]
  exact .record (kept_setJob (kept_abortLanding (kept_stopLanding (.ite (kept_stopDqs h) (kept_stopPaths (kept_stopDqs h))))))

theorem kept_releaseSlot {k : Nat} (h : Kept b s t) : Kept b s (releaseSlot k t) := by
  rw [releaseSlot]
  exact .ite (kept_setNum h) h

theorem kept_releaseSlots {j : Nat} (h : Kept b s t) : Kept b s (releaseSlots j t) := by
  rw [releaseSlots]
  exact .foldl (fun _ _ hu => .ite (kept_releaseSlot hu) hu) h

theorem kept_setJobState {j v : Nat} (h : Kept b s t) : Kept b s (setJobState j v t) := by
  rw [setJobState]
  exact kept_setNum h

theorem kept_setJobStatus {j code detail : Nat} (h : Kept b s t) : Kept b s (setJobStatus j code detail t) := by
  rw [setJobStatus]
  exact kept_setNum h

theorem kept_sendBoth {j : Nat} {payload : List Byte} (h : Kept b s t) : Kept b s (sendBoth j payload t) := by
  rw [sendBoth]
  exact .ite (kept_sendCtrl h) (kept_sendCtrl (kept_sendCtrl h))

theorem kept_jobFaultWith {report : Bool} {j code detail subject : Nat} (h : Kept b s t) :
    Kept b s (jobFaultWith report j code detail subject t) := by
  rw [jobFaultWith]
  exact .ite (.ite (kept_sendBoth (kept_setJobState (.record (kept_post (kept_count (kept_setJobStatus (kept_stopWork h)))))))
    (kept_setJobState (.record (kept_post (kept_count (kept_setJobStatus (kept_stopWork h))))))) h

theorem kept_jobFault {j code detail subject : Nat} (h : Kept b s t) : Kept b s (jobFault j code detail subject t) := by
  rw [jobFault]
  exact kept_jobFaultWith h

theorem kept_accessFault {j : Nat} {a : Acc} {addr : Nat} (h : Kept b s t) : Kept b s (accessFault j a addr t) := by
  rw [accessFault]
  exact kept_jobFault h

theorem kept_orFault {j a n : Nat} {f : State → State} (hf : ∀ u, Kept b s u → Kept b s (f u)) (h : Kept b s t) :
    Kept b s (orFault j a n f t) := by
  rw [orFault]
  exact .ite (hf _ h) (kept_accessFault (hf _ h))

theorem kept_putDqOr {n q v : Nat} (h : Kept b s t) : Kept b s (putDqOr n q v t) := by
  rw [putDqOr]
  exact .ite (kept_putDqState h) (kept_accessFault (kept_putDqState h))

theorem kept_stopQueueOr {n q status isn : Nat} (h : Kept b s t) : Kept b s (stopQueueOr n q status isn t) := by
  rw [stopQueueOr]
  exact .ite (kept_orFault (fun _ hu => kept_stopQueue hu) h) h

theorem kept_faultJobs {p : State → Nat → Bool} {code detail : Nat} (h : Kept b s t) : Kept b s (faultJobs p code detail t) := by
  rw [faultJobs]
  exact .foldl (fun _ _ hu => kept_jobFault hu) h

theorem kept_loseAgent {a : Agent} (h : Kept b s t) : Kept b s (loseAgent a t) := by
  unfold loseAgent
  split
  · exact .ite h (kept_faultJobs (kept_agentGone h))
  · exact .ite h (kept_agentGone h)
  · exact h

theorem kept_dropRx {gone : Frame → Bool} {p : Nat} (h : Kept b s t) : Kept b s (dropRx gone p t) := by
  rw [dropRx]
  exact .foldl (fun _ _ hu => .foldl (fun _ _ hv => kept_returnCredits hv) hu) (kept_setPort h)

theorem kept_closeJob {j epoch cause : Nat} (h : Kept b s t) : Kept b s (closeJob j epoch cause t) := by
  rw [closeJob]
  exact kept_post (kept_setJob (.foldl (fun _ _ hu => kept_dropRx hu) (.record (.ite h (kept_count h)))))

theorem kept_execAgentLost {agent : Agent} (h : Kept false s t) : Works s (execAgentLost agent t) :=
  ⟨_, _, rfl, kept_loseAgent h⟩

end Sys2Proof.Machine
end

section
/-! PROOFS. What the functions of Machine/Operands.lean keep. -/

namespace Sys2Proof.Machine
variable {b : Bool} {s t : State}

theorem kept_mapRes {α β : Type} {f : α → State → Res β} {l : List α} (hf : ∀ x u, Kept b s u → Kept b s (f x u).2) (h : Kept b s t) :
    Kept b s (mapRes f l t).2 := by
  induction l generalizing f t with
  | nil => exact h
  | cons x l ih =>
    rw [mapRes]
    split
    · exact .of_snd ‹_› (hf _ _ h)
    · have hu := Kept.of_snd ‹_› (hf _ _ h)
      split <;> exact .of_snd ‹_› (ih (fun _ _ hv => hf _ _ hv) hu)

theorem kept_thenRes {α β : Type} {r : Res α} {f : α → State → Res β} (h : Kept b s r.2) (hf : ∀ x u, Kept b s u → Kept b s (f x u).2) :
    Kept b s (thenRes r f).2 := by
  unfold thenRes
  split
  · exact h
  · exact hf _ _ h

theorem kept_fetchDevice {x : Ctx} {n : Nat} {alloc : Bool} {a len : Nat} (h : Kept b s t) :
    Kept b s (fetchDevice x n alloc a len t).2 := by
  rw [fetchDevice]
  split
  · exact h
  · exact .ite_snd (kept_readStream (kept_streamErrors h)) (kept_readStream (kept_streamErrors h))

theorem kept_fetchHost {x : Ctx} {a h' len : Nat} (h : Kept b s t) : Kept b s (fetchHost x a h' len t).2 := by
  rw [fetchHost]
  exact .ite_snd h h

theorem kept_fetchRemote {x : Ctx} {dev a len : Nat} (h : Kept b s t) : Kept b s (fetchRemote x dev a len t).2 := by
  rw [fetchRemote]
  split <;> exact h

theorem kept_fetch {x : Ctx} {n : Nat} {t' : TRef} {a len : Nat} (h : Kept b s t) : Kept b s (fetch x n t' a len t).2 := by
  rw [fetch]
  refine .ite_snd h ?_
  refine .ite_snd (kept_fetchRemote h) ?_
  split
  · exact kept_fetchHost h
  · exact kept_fetchDevice h

theorem kept_readElems {x : Ctx} {n : Nat} {t' : TRef} {r c0 len : Nat} (h : Kept b s t) : Kept b s (readElems x n t' r c0 len t).2 := by
  rw [readElems]
  exact kept_thenRes (kept_fetch h) (fun _ _ hu => kept_thenRes (kept_fetch hu) (fun _ _ hv => hv))

theorem kept_issueOne {i : Nat} (h : Kept b s t) : Kept b s (issueOne t i) := by
  rw [issueOne]
  split
  · exact h
  · split
    · exact h
    · exact .ite h (kept_sendFrame (.record h))

theorem kept_issueRemotes (h : Kept b s t) : Kept b s (issueRemotes t) := by
  rw [issueRemotes]
  exact .foldl (fun _ _ hu => kept_issueOne hu) h

theorem kept_sendRemote {owner : RemOwner} {j dev type addr len : Nat} {payload : List Byte} (h : Kept b s t) :
    Kept b s (sendRemote owner j dev type addr len payload t) := by
  rw [sendRemote]
  exact kept_issueRemotes (.record h)

theorem kept_askRange {x : Ctx} {r : TRef × Nat × Nat} (h : Kept b s t) : Kept b s (askRange x r t).2 := by
  rw [askRange]
  refine .ite_snd (.foldl (fun _ _ hu => .ite hu (kept_sendRemote hu)) h) ?_
  split
  · exact h
  · exact .ite_snd h (.ite_snd (kept_askHost h) h)

theorem kept_askRanges {x : Ctx} {l : List (TRef × Nat × Nat)} (h : Kept b s t) : Kept b s (askRanges x l t).2 := by
  induction l generalizing x t with
  | nil => exact h
  | cons x l ih =>
    rw [askRanges]
    exact .ite_snd h (kept_thenRes (kept_askRange h) (fun _ _ hu => kept_thenRes (ih hu) (fun _ _ hv => hv)))

theorem kept_calmMerges {o : Op} (h : Kept b s t) : Kept b s (calmMerges o t) := by
  rw [calmMerges]
  exact .foldl (fun _ _ hu => .ite hu (.foldl (fun _ _ hv => kept_calmLine hv) hu)) h

theorem kept_storeRemote {x : Ctx} {dev a : Nat} {l : List Byte} (h : Kept b s t) : Kept b s (storeRemote x dev a l t) := by
  rw [storeRemote]
  exact .foldl (fun _ _ hu => .ite (kept_sendRemote hu) (kept_sendRemote hu)) h

theorem kept_storeOne {x : Ctx} {t' : TRef} {w : Put} (h : Kept b s t) : Kept b s (storeOne x t' w t).2 := by
  rw [storeOne]
  refine .ite_snd (kept_storeRemote h) ?_
  split
  · exact .ite_snd (kept_postHost h) (kept_postHost h)
  · exact kept_mergeMem h

theorem kept_storeAll {x : Ctx} {t' : TRef} {l : List Put} (h : Kept b s t) : Kept b s (storeAll x t' l t).2 := by
  rw [storeAll]
  split
  · exact h
  · exact .ite_snd h (kept_thenRes (kept_mapRes (fun _ _ hu => kept_storeOne hu) h) (fun _ _ hu => hu))

theorem kept_spoilLine {j a n l : Nat} (h : Kept b s t) : Kept b s (spoilLine j a n t l) := by
  rw [spoilLine]
  exact .ite (kept_writeMem (.drawn h)) h

theorem kept_spoil {j : Nat} {l : List (Nat × Nat)} (h : Kept b s t) : Kept b s (spoil j l t) := by
  rw [spoil]
  exact .foldl (fun _ _ hu => .ite hu (.foldl (fun _ _ hv => kept_spoilLine hv) hu)) h

theorem kept_orSpoil {α : Type} {j : Nat} {l : List (Nat × Nat)} {r : Res α} (h : Kept b s r.2) : Kept b s (orSpoil j l r).2 := by
  unfold orSpoil
  split
  · exact .ite h (kept_spoil h)
  · exact h

end Sys2Proof.Machine
end

section
/-! PROOFS. What the functions of Machine/Queues.lean keep. -/

namespace Sys2Proof.Machine
variable {b : Bool} {s t : State}

theorem kept_queueFail {n q : Nat} {a : Acc} {addr : Nat} (h : Kept b s t) : Kept b s (queueFail n q a addr t) := by
  rw [queueFail]
  exact kept_accessFault (kept_stopQueue h)

theorem kept_queuePut {n q a : Nat} {l : List Byte} (h : Kept b s t) : Kept b s (queuePut n q a l t) := by
  rw [queuePut]
  split
  · exact .of_snd ‹_› (kept_putStruct h)
  · exact kept_queueFail (.of_snd ‹_› (kept_putStruct h))

theorem kept_noteSlot {k : Nat} (h : Kept b s t) : Kept b s (noteSlot k t) := by
  rw [noteSlot]
  exact kept_setNum h

theorem kept_ringDq {n q value : Nat} (h : Kept b s t) : Kept b s (ringDq n q value t) := by
  rw [ringDq]
  exact .ite (kept_count h) (.ite (kept_stopQueueOr h) (kept_setQueue h))

theorem kept_takeOp {n q : Nat} {raw : List Byte} (h : Kept b s t) : Kept b s (takeOp n q raw t) := by
  rw [takeOp]
  exact kept_queuePut (kept_noteSlot (.foldl (fun _ _ hu => kept_setDie hu) (.ite (kept_setQueue (kept_setDie h)) (kept_setJob
    (kept_setQueue (kept_setDie h))))))

theorem kept_queueRead {n q a len : Nat} (h : Kept b s t) : Kept b s (queueRead n q a len t).2 := by
  rw [queueRead]
  split
  · exact kept_jobRead h
  · exact .ite_snd h h

theorem kept_takeRead {n q : Nat} (h : Kept b s t) : Kept b s (takeRead n q t) := by
  rw [takeRead]
  split
  · have hu := Kept.of_snd ‹_› (kept_queueRead h)
    refine .ite ?_ (kept_setQueue hu)
    dsimp only
    split
    · exact kept_takeOp (.of_snd ‹_› (kept_queueRead (kept_sramRead hu)))
    · exact kept_queueFail (.of_snd ‹_› (kept_queueRead (kept_sramRead hu)))
  · exact kept_queueFail (.of_snd ‹_› (kept_queueRead h))

theorem kept_takeTurn {n : Nat} (h : Kept b s t) : Kept b s (takeTurn n t) := by
  rw [takeTurn]
  refine .ite h ?_
  split
  · exact h
  · exact .ite (.ite h (.ite (.foldl (fun _ _ hu => kept_askHost hu) (kept_setQueue h)) (kept_queueFail h))) (kept_takeRead h)

theorem kept_acceptPart {root isn n : Nat} (h : Kept b s t) : Kept b s (acceptPart root isn n t) := by
  rw [acceptPart]
  split
  · exact h
  · exact .ite (kept_setDie h) h

theorem kept_putOp {n : Nat} {o : Op} (h : Kept b s t) : Kept b s (putOp n o t) := by
  rw [putOp]
  exact kept_setDie h

theorem kept_mapParts {n isn : Nat} {f : Op → Op} (h : Kept b s t) : Kept b s (mapParts n isn f t) := by
  rw [mapParts]
  exact .record h

theorem kept_endOp {n : Nat} {o : Op} (h : Kept b s t) : Kept b s (endOp n o t) := by
  rw [endOp]
  exact .record (kept_mapParts (kept_putOp h))

theorem kept_writeTile {n key : Nat} {l : List Nat} (h : Kept b s t) : Kept b s (writeTile n key l t) := by
  rw [writeTile]
  exact kept_sramClear (kept_setDie h)

theorem kept_freeTile {n key : Nat} (h : Kept b s t) : Kept b s (freeTile n key t) := by
  rw [freeTile]
  exact kept_writeTile (.drawn h)

theorem kept_spoilTiles {x : Ctx} (h : Kept b s t) : Kept b s (spoilTiles x t) := by
  rw [spoilTiles]
  exact .foldl (fun _ _ hu => .ite (kept_freeTile hu) hu) h

theorem kept_spoilOp {x : Ctx} (h : Kept b s t) : Kept b s (spoilOp x t) := by
  rw [spoilOp]
  exact kept_spoil (kept_spoilTiles h)

theorem kept_failOp {n : Nat} {o : Op} {e : Bad} (h : Kept b s t) : Kept b s (failOp n o e t) := by
  rw [failOp]
  exact kept_endOp (.ite h (.ite (kept_spoilTiles h) (kept_spoilOp h)))

theorem kept_pruneWatch {n : Nat} (h : Kept b s t) : Kept b s (pruneWatch n t) := by
  rw [pruneWatch]
  exact .record h

theorem kept_watchLine {n line : Nat} (h : Kept b s t) : Kept b s (watchLine n line t) := by
  rw [watchLine]
  exact .ite (.record h) (.ite (kept_setDir (kept_makeRoom (.record h))) (.ite (.record h) (kept_plainRequest (.record h))))

theorem kept_waitRead {j a want : Nat} (h : Kept b s t) : Kept b s (waitRead j a want t).2 := by
  rw [waitRead]
  refine .ite_snd h ?_
  split <;> exact .of_snd ‹_› (kept_jobRead h)

theorem kept_countWaits {n : Nat} {o : Op} (h : Kept b s t) : Kept b s (countWaits n o t) := by
  rw [countWaits]
  refine .foldl ?_ h
  intro _ _ hu
  split
  · exact .ite (kept_count hu) hu
  · exact hu

theorem kept_startOp {n isn : Nat} (h : Kept b s t) : Kept b s (startOp n isn t) := by
  rw [startOp]
  split
  · exact h
  · refine .ite h ?_
    split
    · exact kept_failOp (.of_snd ‹_› (kept_waitRead h))
    · have hu := Kept.of_snd ‹_› (kept_waitRead h)
      exact .ite (kept_pruneWatch (kept_mapParts (kept_putOp (kept_countWaits hu)))) (.ite (kept_watchLine hu) hu)

theorem kept_advanceRetired {n q isn : Nat} (h : Kept b s t) : Kept b s (advanceRetired n q isn t) := by
  rw [advanceRetired]
  exact .ite (kept_setQueue h) (kept_queuePut (kept_setQueue h))

theorem kept_statusEffect {n : Nat} {o : Op} {j : Nat} (h : Kept b s t) : Kept b s (statusEffect n o j t) := by
  rw [statusEffect]
  split
  · exact kept_jobFault (kept_stopQueue h)
  · exact kept_jobFault (kept_stopQueue h)
  · exact kept_jobFault h
  · exact kept_jobFault h
  · exact kept_jobFault h
  · exact h

theorem kept_flagEvent {n : Nat} {o : Op} {j : Nat} (h : Kept b s t) : Kept b s (flagEvent n o j t) := by
  rw [flagEvent]
  exact .ite h (kept_post h)

theorem kept_completeOp {n : Nat} {o : Op} (h : Kept b s t) : Kept b s (completeOp n o t) := by
  rw [completeOp]
  exact .ite (kept_statusEffect (kept_flagEvent (kept_noteSlot (.ite (kept_count (kept_pruneWatch (.record (kept_setDie (.record
    (kept_advanceRetired (kept_putStruct h))))))) (kept_count (kept_count (kept_pruneWatch (.record (kept_setDie (.record
      (kept_advanceRetired (kept_putStruct h)))))))))))) (kept_queueFail (kept_statusEffect (kept_flagEvent (kept_noteSlot (.ite
        (kept_count (kept_pruneWatch (.record (kept_setDie (.record (kept_advanceRetired (kept_putStruct h))))))) (kept_count (kept_count
          (kept_pruneWatch (.record (kept_setDie (.record (kept_advanceRetired (kept_putStruct h)))))))))))))

theorem kept_finishOp {n isn : Nat} (h : Kept b s t) : Kept b s (finishOp n isn t) := by
  rw [finishOp]
  split
  · exact h
  · refine .ite h ?_
    refine .ite h ?_
    refine .ite ?_ ?_
    · refine .ite ?_ ?_
      · refine .ite_snd ?_ ?_
        · refine kept_spoilOp ?_
          split
          · exact kept_spoilOp h
          · exact h
        · split
          · exact kept_spoilOp h
          · exact h
      · refine .foldl (fun _ _ hu => kept_count (kept_askHost hu)) ?_
        refine kept_putOp ?_
        refine .ite_snd ?_ ?_
        · refine kept_spoilOp ?_
          split
          · exact kept_spoilOp h
          · exact h
        · split
          · exact kept_spoilOp h
          · exact h
    · refine .ite ?_ ?_
      · refine .ite_snd ?_ ?_
        · refine kept_spoilOp ?_
          split
          · exact kept_spoilOp h
          · exact h
        · split
          · exact kept_spoilOp h
          · exact h
      · refine kept_completeOp ?_
        refine .ite_snd ?_ ?_
        · refine kept_spoilOp ?_
          split
          · exact kept_spoilOp h
          · exact h
        · split
          · exact kept_spoilOp h
          · exact h

theorem kept_applyDqCtrl {n q v : Nat} (h : Kept b s t) : Kept b s (applyDqCtrl n q v t).2 := by
  rw [applyDqCtrl]
  refine .ite_snd h ?_
  refine .ite_snd h ?_
  refine .ite_snd (kept_setNum h) ?_
  refine .ite_snd h ?_
  refine .ite_snd ?_ h
  refine kept_setQueue ?_
  refine kept_setNum ?_
  refine kept_setNum ?_
  split
  · exact kept_postHost h
  · with_reducible exact kept_writeMem h

theorem kept_stopReset {n q : Nat} (h : Kept b s t) : Kept b s (stopReset n q t) := by
  rw [stopReset]
  exact .ite (kept_stopQueue h) (kept_queueFail h)

theorem kept_applyDqReset {v : Nat} (h : Kept b s t) : Kept b s (applyDqReset v t).2 := by
  rw [applyDqReset]
  exact .ite_snd h (.ite_snd h (kept_abortOps (kept_setQueue (.ite (kept_stopReset h) h))))

theorem kept_endReset {n q : Nat} (h : Kept b s t) : Kept b s (endReset n q t) := by
  rw [endReset]
  exact .ite (kept_setQueue (kept_setNum (kept_putDqOr h))) h

theorem kept_applySlotBind {k v : Nat} (h : Kept b s t) : Kept b s (applySlotBind k v t).2 := by
  rw [applySlotBind]
  exact .ite_snd h (.ite_snd (.ite_snd (kept_setNum h) h) (kept_releaseSlot h))

theorem kept_freeSlot {k : Nat} (h : Kept b s t) : Kept b s (freeSlot k t) := by
  rw [freeSlot]
  exact .ite (kept_setNum (kept_setJob h)) h

theorem kept_execTnsDoorbell {die queue value : Nat} (h : Kept false s t) : Works s (execTnsDoorbell die queue value t) :=
  ⟨_, _, rfl, kept_ringDq h⟩

theorem kept_execDescriptorTake {die : Nat} (h : Kept false s t) : Works s (execDescriptorTake die t) :=
  ⟨_, _, rfl, kept_takeTurn h⟩

theorem kept_execSplitNotice {root isn die : Nat} (h : Kept false s t) : Works s (execSplitNotice root isn die t) :=
  ⟨_, _, rfl, kept_acceptPart h⟩

theorem kept_execOperationStart {die isn : Nat} (h : Kept false s t) : Works s (execOperationStart die isn t) :=
  ⟨_, _, rfl, kept_startOp h⟩

theorem kept_execOperationComplete {die isn : Nat} (h : Kept false s t) : Works s (execOperationComplete die isn t) :=
  ⟨_, _, rfl, kept_finishOp h⟩

theorem kept_execDqResetDone {die queue : Nat} (h : Kept false s t) : Works s (execDqResetDone die queue t) :=
  ⟨_, _, rfl, kept_endReset h⟩

theorem kept_execSlotReleaseDone {slot : Nat} (h : Kept false s t) : Works s (execSlotReleaseDone slot t) :=
  ⟨_, _, rfl, kept_freeSlot h⟩

end Sys2Proof.Machine
end

section
/-! PROOFS. What the functions of Machine/Tensor.lean keep. -/

namespace Sys2Proof.Machine
variable {b : Bool} {s t : State}

theorem kept_useTile {n key : Nat} (h : Kept b s t) : Kept b s (useTile n key t).2 := by
  rw [useTile]
  split <;> exact .of_snd ‹_› (kept_sramRead h)

theorem kept_dieDrawn {n k : Nat} {d : Die} (h : Kept b s t) : Kept b s { t.setDie n d with free := t.free + k + 1 } :=
  ⟨h.mem, h.pending, h.free.trans (Nat.le_add_right _ (k + 1)), h.board⟩

theorem kept_fillStaging {n : Nat} (h : Kept b s t) : Kept b s (fillStaging n t) := by
  rw [fillStaging]
  exact kept_dieDrawn h

theorem kept_useStaging {n e : Nat} (h : Kept b s t) : Kept b s (useStaging n e t).2 := by
  rw [useStaging]
  split
  · exact .of_snd ‹_› (kept_sramRead h)
  · exact kept_fillStaging (.of_snd ‹_› (kept_sramRead h))

theorem kept_runOp {n isn opcode : Nat} {work : Ctx → State → Res Op} (hwork : ∀ x u, Kept b s u → Kept b s (work x u).2) (h : Kept b s t) :
    Kept b s (runOp n isn opcode work t) := by
  rw [runOp]
  split
  · exact h
  · refine .ite ?_ ?_
    · refine .ite h ?_
      refine .ite (kept_failOp h) ?_
      split
      · exact kept_putOp (.of_snd ‹_› (kept_askRanges h))
      · exact kept_failOp (.of_snd ‹_› (kept_askRanges h))
    · refine .ite h ?_
      split
      · exact kept_failOp h
      · split
        · exact kept_endOp (.of_snd ‹_› (hwork _ _ h))
        · exact kept_failOp (.of_snd ‹_› (hwork _ _ h))

theorem kept_enginesOn {x : Ctx} (h : Kept b s t) : Kept b s (enginesOn x t).2 := by
  rw [enginesOn]
  split <;> exact h

theorem kept_leafRows {x : Ctx} {d : Nat} {t' : TRef} {first c0 len : Nat} (h : Kept b s t) :
    Kept b s (leafRows x d t' first c0 len t).2 := by
  rw [leafRows]
  refine kept_mapRes ?_ h
  intro _ _ hu
  refine .ite_snd ?_ hu
  split <;> exact .of_snd ‹_› (kept_readElems hu)

theorem kept_leafTile {x : Ctx} {k : Nat} (h : Kept b s t) : Kept b s (leafTile x k t).2 := by
  rw [leafTile]
  exact kept_thenRes (kept_useStaging h) (fun _ _ hu => kept_thenRes (.ite_snd (kept_useTile hu) hu) (fun _ _ hv => kept_thenRes
    (kept_leafRows hv) (fun _ _ hw => kept_thenRes (kept_leafRows hw) (fun _ _ hx => hx))))

theorem kept_productTile {x : Ctx} (h : Kept b s t) : Kept b s (productTile x t).2 := by
  rw [productTile]
  exact kept_thenRes (kept_enginesOn h) (fun _ _ hu => kept_thenRes (kept_mapRes (fun _ _ hv => kept_leafTile hv) hu) (fun _ _ hv => hv))

theorem kept_leaveTiles {x : Ctx} {root : List Nat} (h : Kept b s t) : Kept b s (leaveTiles x root t) := by
  rw [leaveTiles]
  exact kept_writeTile (.foldl (fun _ _ hu => kept_freeTile hu) h)

theorem kept_drainTile {x : Ctx} {tile : List Nat} (h : Kept b s t) : Kept b s (drainTile x tile t).2 := by
  rw [drainTile]
  exact kept_thenRes (kept_storeAll (kept_calmMerges h)) (fun _ _ hu => hu)

theorem kept_fillVector {n : Nat} (h : Kept b s t) : Kept b s (fillVector n t) := by
  rw [fillVector]
  exact kept_dieDrawn h

theorem kept_vectorUnit {x : Ctx} (h : Kept b s t) : Kept b s (vectorUnit x t).2 := by
  rw [vectorUnit]
  refine .ite_snd h ?_
  refine .ite_snd (kept_fillVector h) ?_
  dsimp only
  split
  · exact .of_snd ‹_› (kept_sramRead (kept_draw h))
  · exact kept_fillVector (.of_snd ‹_› (kept_sramRead (kept_draw h)))

theorem kept_mapRow {x : Ctx} {r : Nat} (h : Kept b s t) : Kept b s (mapRow x r t).2 := by
  rw [mapRow]
  exact kept_thenRes (kept_readElems h) (fun _ _ hu => kept_thenRes (.ite_snd (kept_readElems hu) hu) (fun _ _ hv => kept_thenRes (.ite_snd
    (kept_readElems hv) hv) (fun _ _ hw => hw)))

theorem kept_redRow {x : Ctx} {r : Nat} (h : Kept b s t) : Kept b s (redRow x r t).2 := by
  rw [redRow]
  exact kept_thenRes (kept_readElems h) (fun _ _ hu => hu)

theorem kept_storeRows {x : Ctx} {l : List (List VR)} (h : Kept b s t) : Kept b s (storeRows x l t).2 := by
  rw [storeRows]
  exact kept_thenRes (kept_storeAll h) (fun _ _ hu => hu)

theorem kept_vectorWork {row : Ctx → Nat → State → Res (List VR)} {x : Ctx} (hrow : ∀ x y u, Kept b s u → Kept b s (row x y u).2) (h : Kept
    b s t) :
    Kept b s (vectorWork row x t).2 := by
  rw [vectorWork]
  exact kept_thenRes (kept_vectorUnit h) (fun _ _ hu => kept_thenRes (kept_mapRes (fun _ _ hv => hrow _ _ _ hv) hu) (fun _ _ hv =>
    kept_storeRows hv))

theorem kept_convertWork {x : Ctx} (h : Kept b s t) : Kept b s (convertWork x t).2 := by
  rw [convertWork]
  exact kept_thenRes (kept_vectorUnit h) (fun _ _ hu => kept_thenRes (kept_mapRes (fun _ _ hv => kept_readElems hv) hu) (fun _ _ hv =>
    kept_thenRes (kept_storeAll hv) (fun _ _ hw => hw)))

theorem kept_mapWork {x : Ctx} (h : Kept b s t) : Kept b s (mapWork x t).2 := by
  rw [mapWork]
  exact .ite_snd (kept_convertWork h) (kept_vectorWork (fun _ _ _ hu => kept_mapRow hu) h)

theorem kept_execNop {die isn : Nat} (h : Kept false s t) : Works s (execNop die isn t) :=
  ⟨_, _, rfl, kept_runOp (fun _ _ hu => hu) h⟩

theorem kept_execMma {die isn : Nat} (h : Kept false s t) : Works s (execMma die isn t) :=
  ⟨_, _, rfl, kept_runOp (fun _ _ hu => kept_thenRes (kept_productTile hu) (fun _ _ hv => kept_leaveTiles hv)) h⟩

theorem kept_execMmaDrain {die isn : Nat} (h : Kept false s t) : Works s (execMmaDrain die isn t) :=
  ⟨_, _, rfl, kept_runOp (fun _ _ hu => kept_thenRes (kept_productTile hu) (fun _ _ hv => kept_thenRes (kept_drainTile hv) (fun _ _ hw =>
    kept_leaveTiles hw))) h⟩

theorem kept_execDrain {die isn : Nat} (h : Kept false s t) : Works s (execDrain die isn t) :=
  ⟨_, _, rfl, kept_runOp (fun _ _ hu => kept_thenRes (kept_enginesOn hu) (fun _ _ hv => kept_thenRes (kept_useTile hv) (fun _ _ hw =>
    kept_drainTile hw))) h⟩

theorem kept_execTileRestore {die isn : Nat} (h : Kept false s t) : Works s (execTileRestore die isn t) :=
  ⟨_, _, rfl, kept_runOp (fun _ _ hu => kept_thenRes (kept_enginesOn hu) (fun _ _ hv => kept_thenRes (kept_leafRows hv) (fun _ _ hw =>
    kept_writeTile hw))) h⟩

theorem kept_execVecMap {die isn : Nat} (h : Kept false s t) : Works s (execVecMap die isn t) :=
  ⟨_, _, rfl, kept_runOp (fun _ _ hu => kept_mapWork hu) h⟩

theorem kept_execVecReduce {die isn : Nat} (h : Kept false s t) : Works s (execVecReduce die isn t) :=
  ⟨_, _, rfl, kept_runOp (fun _ _ hu => kept_vectorWork (fun _ _ _ hv => kept_redRow hv) hu) h⟩

end Sys2Proof.Machine
end

section
/-! PROOFS. What the functions of Machine/Stash.lean keep. -/

namespace Sys2Proof.Machine
variable {b : Bool} {s t : State}

theorem kept_stashRead {x : Ctx} {a n : Nat} (h : Kept b s t) : Kept b s (stashRead x a n t).2 := by
  rw [stashRead]
  exact kept_fetchDevice h

theorem kept_stashWrite {x : Ctx} {l : List (Nat × List Byte)} (h : Kept b s t) : Kept b s (stashWrite x l t).2 := by
  rw [stashWrite]
  split <;> exact .of_snd ‹_› (kept_storeAll h)

theorem kept_stashCtx {x : Ctx} (h : Kept b s t) : Kept b s (stashCtx x t).2 := by
  rw [stashCtx]
  refine .ite_snd h ?_
  refine kept_thenRes (kept_stashRead h) ?_
  intro _ _ hu
  refine kept_thenRes (kept_stashRead hu) ?_
  intro _ _ hv
  split <;> exact hv

theorem kept_slotIn {x : Ctx} {r : Region} (h : Kept b s t) : Kept b s (slotIn x r t).2 := by
  rw [slotIn]
  exact .ite_snd h h

theorem kept_partsAllowed {x : Ctx} {r : Region} (h : Kept b s t) : Kept b s (partsAllowed x r t).2 := by
  rw [partsAllowed]
  split <;> exact h

theorem kept_addChain {n j slot a : Nat} (h : Kept b s t) : Kept b s (addChain n j slot a t) := by
  rw [addChain]
  exact kept_setDie h

theorem kept_beginWork {x : Ctx} (h : Kept b s t) : Kept b s (beginWork x t).2 := by
  rw [beginWork]
  refine kept_thenRes (kept_vectorUnit h) ?_
  intro _ _ hu
  refine kept_thenRes (kept_stashCtx hu) ?_
  intro _ _ hv
  refine kept_thenRes (kept_stashRead hv) ?_
  intro _ _ hw
  refine .ite_snd hw ?_
  split
  · exact hw
  · exact kept_thenRes (kept_partsAllowed hw) (fun _ _ hx => kept_thenRes (kept_slotIn hx) (fun _ _ hy => kept_thenRes (kept_stashWrite hy)
      (fun _ _ hz => kept_addChain hz)))

theorem kept_notePool {n j : Nat} (h : Kept b s t) : Kept b s (notePool n j t) := by
  rw [notePool]
  exact .ite (kept_setNum (kept_setNum h)) (kept_setNum h)

theorem kept_allocRun {n : Nat} {r : PoolRun} (h : Kept b s t) : Kept b s (allocRun n r t) := by
  rw [allocRun]
  exact kept_notePool (kept_setDie h)

theorem kept_freeRuns {n j : Nat} {l : List Nat} (h : Kept b s t) : Kept b s (freeRuns n j l t) := by
  rw [freeRuns]
  exact kept_notePool (kept_setDie h)

theorem kept_readAll {x : Ctx} (h : Kept b s t) : Kept b s (readAll x t).2 := by
  rw [readAll]
  exact kept_mapRes (fun _ _ hu => kept_readElems hu) h

theorem kept_noCkpt {x : Ctx} {h' : Chain} (h : Kept b s t) : Kept b s (noCkpt x h' t).2 := by
  rw [noCkpt]
  exact kept_jobFault (kept_post h)

theorem kept_putEntry {x : Ctx} {r : Region} {chain : Nat} {h' : Chain} {rc : LRec} {ck : Bool} {run : Option Nat} (h : Kept b s t) :
    Kept b s (putEntry x r chain h' rc ck run t).2 := by
  unfold putEntry
  refine kept_orSpoil ?_
  refine kept_thenRes (kept_readAll h) ?_
  intro _ _ hu
  split
  · split
    · exact kept_thenRes (kept_stashWrite hu) (fun _ _ hv => kept_count (kept_allocRun hv))
    · exact kept_thenRes (kept_stashWrite hu) (fun _ _ hv => .ite (kept_post (kept_count (kept_count hv))) (kept_count hv))
  · split
    · exact kept_thenRes (kept_stashWrite hu) (fun _ _ hv => kept_count (kept_allocRun hv))
    · exact kept_thenRes (kept_stashWrite hu) (fun _ _ hv => .ite (kept_post (kept_count (kept_count hv))) (kept_count hv))

theorem kept_putWork {x : Ctx} (h : Kept b s t) : Kept b s (putWork x t).2 := by
  rw [putWork]
  refine kept_thenRes (kept_vectorUnit h) ?_
  intro _ _ hu
  refine kept_thenRes (kept_stashCtx hu) ?_
  intro _ _ hv
  refine kept_thenRes (kept_slotIn hv) ?_
  intro _ _ hw
  refine kept_thenRes (kept_stashRead hw) ?_
  intro _ _ hx
  refine .ite_snd hx ?_
  refine .ite_snd hx ?_
  split
  · exact hx
  · exact kept_thenRes (kept_stashRead hx) (fun _ _ hy => kept_thenRes (kept_stashRead hy) (fun _ _ hz => .ite_snd (kept_noCkpt hz)
      (.ite_snd hz (kept_putEntry hz))))

theorem kept_regrowWork {x : Ctx} (h : Kept b s t) : Kept b s (regrowWork x t).2 := by
  rw [regrowWork]
  refine kept_thenRes (kept_vectorUnit h) ?_
  intro _ _ hu
  refine kept_thenRes (kept_stashCtx hu) ?_
  intro _ _ hv
  refine kept_thenRes (kept_slotIn hv) ?_
  intro _ _ hw
  refine kept_thenRes (kept_stashRead hw) ?_
  intro _ _ hx
  refine .ite_snd hx ?_
  refine kept_thenRes (kept_stashRead hx) ?_
  intro _ _ hy
  refine .ite_snd hy ?_
  refine .ite_snd hy ?_
  split
  · exact hy
  · exact .ite_snd hy (kept_orSpoil (kept_thenRes (kept_readAll hy) (fun _ _ hz => kept_thenRes (kept_stashWrite hz) (fun _ _ hu1 =>
      kept_count hu1))))

theorem kept_freeWork {x : Ctx} (h : Kept b s t) : Kept b s (freeWork x t).2 := by
  rw [freeWork]
  exact kept_thenRes (kept_vectorUnit h) (fun _ _ hu => kept_thenRes (kept_stashCtx hu) (fun _ _ hv => kept_thenRes (kept_slotIn hv) (fun _
    _ hw => .ite_snd hw (kept_thenRes (kept_stashRead hw) (fun _ _ hx => kept_thenRes (kept_stashWrite hx) (fun _ _ hy => .ite (kept_setDie
      (kept_freeRuns hy)) (kept_freeRuns hy)))))))

theorem kept_freeChainsOn {j n : Nat} (h : Kept b s t) : Kept b s (freeChainsOn j n t) := by
  rw [freeChainsOn]
  exact kept_notePool (kept_setDie (.foldl (fun _ _ hu => .ite (kept_writeMem hu) hu) h))

theorem kept_freeChains {j : Nat} (h : Kept b s t) : Kept b s (freeChains j t) := by
  rw [freeChains]
  exact .foldl (fun _ _ hu => kept_freeChainsOn hu) h

theorem kept_applyPoolPeak {n j v : Nat} (h : Kept b s t) : Kept b s (applyPoolPeak n j v t).2 := by
  rw [applyPoolPeak]
  exact .ite_snd (kept_setNum h) h

theorem kept_execStashBegin {die isn : Nat} (h : Kept false s t) : Works s (execStashBegin die isn t) :=
  ⟨_, _, rfl, kept_runOp (fun _ _ hu => kept_beginWork hu) h⟩

theorem kept_execStashPut {die isn : Nat} (h : Kept false s t) : Works s (execStashPut die isn t) :=
  ⟨_, _, rfl, kept_runOp (fun _ _ hu => kept_putWork hu) h⟩

theorem kept_execRegrowPut {die isn : Nat} (h : Kept false s t) : Works s (execRegrowPut die isn t) :=
  ⟨_, _, rfl, kept_runOp (fun _ _ hu => kept_regrowWork hu) h⟩

theorem kept_execStashFree {die isn : Nat} (h : Kept false s t) : Works s (execStashFree die isn t) :=
  ⟨_, _, rfl, kept_runOp (fun _ _ hu => kept_freeWork hu) h⟩

end Sys2Proof.Machine
end

section
/-! PROOFS. What the functions of Machine/Domains.lean keep. -/

namespace Sys2Proof.Machine
variable {b : Bool} {s t : State}

theorem kept_rampDomain {d : Nat} (h : Kept b s t) : Kept b s (rampDomain d t) := by
  rw [rampDomain]
  exact .ite (kept_setDomain h) h

theorem kept_rampAll {l : List Nat} (h : Kept b s t) : Kept b s (rampAll l t) := by
  rw [rampAll]
  exact .foldl (fun _ _ hu => kept_rampDomain hu) h

theorem kept_rampStepOf {l : List Nat} (h : Kept b s t) : Kept b s (rampStepOf l t) := by
  rw [rampStepOf]
  exact .ite (.foldl (fun _ _ hu => .ite (kept_rampDomain hu) hu) h) h

theorem kept_execDomainRamp {domains : List Nat} (h : Kept false s t) : Works s (execDomainRamp domains t) :=
  ⟨_, _, rfl, kept_rampStepOf h⟩

end Sys2Proof.Machine
end

section
/-! PROOFS. What the functions of Machine/Fabric.lean keep. -/

namespace Sys2Proof.Machine
variable {b : Bool} {s t : State}

theorem kept_setPortState {p v : Nat} (h : Kept b s t) : Kept b s (setPortState p v t) := by
  rw [setPortState]
  exact kept_setNum h

theorem kept_startTraining {p : Nat} (h : Kept b s t) : Kept b s (startTraining p t) := by
  rw [startTraining]
  exact .ite (kept_setPortState (kept_setPort h)) h

theorem kept_emitUnit {p : Nat} {u : HopUnit} (h : Kept b s t) : Kept b s (emitUnit p u t) := by
  rw [emitUnit]
  exact kept_emitLink h

theorem kept_transmit {p vl : Nat} (h : Kept b s t) : Kept b s (transmit p vl t) := by
  rw [transmit]
  split
  · exact h
  · exact kept_emitUnit (kept_count (kept_setPort h))

theorem kept_pumpSteps {p k : Nat} (h : Kept b s t) : Kept b s (pumpSteps p k t) := by
  induction k generalizing p t with
  | zero => exact h
  | succ k ih =>
    rw [pumpSteps]
    split
    · exact ih (kept_transmit h)
    · exact h

theorem kept_pump {p : Nat} (h : Kept b s t) : Kept b s (pump p t) := by
  rw [pump]
  exact .ite (kept_pumpSteps h) (.ite (kept_transmit h) h)

theorem kept_enqueue {p : Nat} {f : Frame} (h : Kept b s t) : Kept b s (enqueue p f t) := by
  rw [enqueue]
  exact kept_pump (kept_setPort h)

theorem kept_noteSent {f : Frame} (h : Kept b s t) : Kept b s (noteSent f t) := by
  rw [noteSent]
  split
  · exact kept_setJob h
  · exact h

theorem kept_settleSend {j : Nat} (h : Kept b s t) : Kept b s (settleSend j t) := by
  rw [settleSend]
  extract_lets v u
  have hu : Kept b s u := kept_setJob h
  clear_value u v
  refine .ite h ?_
  cases hp : putStruct j (u.num 0x3024 (j + 1)) (leBytes 4 v) u with
  | mk e w =>
    have hw : Kept b s w := .of_snd hp (kept_putStruct hu)
    cases e with
    | ok => exact hw
    | access => exact kept_accessFault (kept_setJob hw)
    | poison => exact kept_accessFault (kept_setJob hw)

theorem kept_settleSends (h : Kept b s t) : Kept b s (settleSends t) := by
  rw [settleSends]
  exact .foldl (fun _ _ hu => kept_settleSend hu) h

theorem kept_portDown {p cause : Nat} (h : Kept b s t) : Kept b s (portDown p cause t) := by
  rw [portDown]
  exact kept_faultJobs (kept_post (kept_setPortState (.record (kept_setPort h))))

theorem kept_takeDown {p cause : Nat} (h : Kept b s t) : Kept b s (takeDown p cause t) := by
  rw [takeDown]
  exact .ite (kept_portDown h) h

theorem kept_disablePort {p : Nat} (h : Kept b s t) : Kept b s (disablePort p t) := by
  rw [disablePort]
  exact kept_setPortState (kept_takeDown h)

theorem kept_takeAck {p ack : Nat} (h : Kept b s t) : Kept b s (takeAck p ack t) := by
  rw [takeAck]
  exact .foldl (fun _ _ hu => kept_noteSent hu) (kept_setPort h)

theorem kept_replay {p : Nat} (h : Kept b s t) : Kept b s (replay p t) := by
  rw [replay]
  exact .ite (kept_portDown h) (.foldl (fun _ _ hu => kept_emitUnit hu) (.ite (kept_setPort h) (kept_count (kept_setPort h))))

theorem kept_takeNak {p ack : Nat} (h : Kept b s t) : Kept b s (takeNak p ack t) := by
  rw [takeNak]
  exact kept_settleSends (kept_replay (kept_takeAck h))

theorem kept_doNak {p ack : Nat} (h : Kept b s t) : Kept b s (doNak p ack t) := by
  rw [doNak]
  exact .ite (kept_pump (kept_takeNak h)) h

theorem kept_doReplayTimeout {p : Nat} (h : Kept b s t) : Kept b s (doReplayTimeout p t) := by
  rw [doReplayTimeout]
  exact .ite (kept_replay h) h

theorem kept_takeIdent {p : Nat} {f : Frame} (h : Kept b s t) : Kept b s (takeIdent p f t) := by
  rw [takeIdent]
  exact .ite (kept_count h) (.ite (kept_post (kept_count h)) (kept_setPort h))

theorem kept_badUnit {p : Nat} (h : Kept b s t) : Kept b s (badUnit p t) := by
  rw [badUnit]
  exact .ite h (kept_sendBare (kept_setPort h))

theorem kept_acceptFrame {p vl : Nat} {f : Frame} (h : Kept b s t) : Kept b s (acceptFrame p vl f t) := by
  rw [acceptFrame]
  exact .ite (kept_sendBare (kept_takeIdent (kept_setPort (kept_count h)))) (kept_sendBare (kept_setPort (kept_count h)))

theorem kept_takeFrame {p seq vl : Nat} {f : Frame} (h : Kept b s t) : Kept b s (takeFrame p seq vl f t) := by
  rw [takeFrame]
  split
  · exact .ite (kept_badUnit h) (kept_acceptFrame h)
  · exact kept_badUnit h
  · exact kept_sendBare h

theorem kept_takePrefix {p w : Nat} (h : Kept b s t) : Kept b s (takePrefix p w t) := by
  rw [takePrefix]
  exact .ite (kept_takeNak (kept_setPort h)) (.ite (kept_settleSends (kept_takeAck (kept_setPort h))) (kept_setPort h))

theorem kept_receiveUnit {p : Nat} {u : LinkUnit} (h : Kept b s t) : Kept b s (receiveUnit p u t) := by
  rw [receiveUnit]
  refine .ite ?_ h
  refine .ite ?_ (kept_badUnit (.ite (kept_count (.ite h (kept_count h))) (.ite h (kept_count h))))
  refine kept_pump ?_
  refine kept_takePrefix ?_
  split
  · exact kept_takeFrame (.ite (kept_count (.ite h (kept_count h))) (.ite h (kept_count h)))
  · exact .ite (kept_count (.ite h (kept_count h))) (.ite h (kept_count h))

theorem kept_setMirror {p state : Nat} {map : List Byte} (h : Kept b s t) : Kept b s (setMirror p state map t) := by
  rw [setMirror]
  exact kept_setOct (kept_setNum h)

theorem kept_mediumKnown {p medium : Nat} (h : Kept b s t) : Kept b s (mediumKnown p medium t) := by
  rw [mediumKnown]
  exact kept_setPort (kept_setNum h)

theorem kept_clearLow {flat : Bool} {p : Nat} (h : Kept b s t) : Kept b s (clearLow flat p t) := by
  rw [clearLow]
  exact .ite h (kept_emit h)

theorem kept_cmisFails {p : Nat} (h : Kept b s t) : Kept b s (cmisFails p t) := by
  rw [cmisFails]
  exact kept_post (kept_setPortState (kept_setNum (kept_setMirror h)))

theorem kept_readCmis {p : Nat} {r : CmisResult} (h : Kept b s t) : Kept b s (readCmis p r t) := by
  unfold readCmis
  refine .ite ?_ h
  refine .ite (kept_mediumKnown (kept_setMirror h)) ?_
  split
  · exact .ite (kept_cmisFails h) (.ite (kept_mediumKnown (kept_setMirror (kept_clearLow h))) (kept_setPortState (kept_setNum
      (kept_setMirror (kept_clearLow h)))))
  · exact .ite (kept_cmisFails h) h

theorem kept_lanesTrained {p : Nat} (h : Kept b s t) : Kept b s (lanesTrained p t) := by
  rw [lanesTrained]
  exact .ite (kept_pump (kept_setPortState (kept_setPort h))) h

theorem kept_trainTimeout {p : Nat} (h : Kept b s t) : Kept b s (trainTimeout p t) := by
  rw [trainTimeout]
  exact .ite (kept_portDown h) h

theorem kept_retryPort {p : Nat} (h : Kept b s t) : Kept b s (retryPort p t) := by
  rw [retryPort]
  exact .ite (kept_startTraining h) h

theorem kept_laneFails {p : Nat} (h : Kept b s t) : Kept b s (laneFails p t) := by
  rw [laneFails]
  exact .ite (kept_portDown h) h

theorem kept_compareIdent {p : Nat} (h : Kept b s t) : Kept b s (compareIdent p t) := by
  rw [compareIdent]
  split
  · exact .ite (kept_post (kept_setPortState (kept_setPort (kept_setOct (kept_setOct (kept_setNum (kept_setNum h))))))) (kept_pump
      (kept_post (kept_setPortState (kept_setPort (kept_setOct (kept_setOct (kept_setNum (kept_setNum h))))))))
  · exact h

theorem kept_applyPortEnable {v : Nat} (h : Kept b s t) : Kept b s (applyPortEnable v t).2 := by
  rw [applyPortEnable]
  exact .ite_snd h (.ite_snd h (.foldl (fun _ _ hu => kept_rampDomain (kept_startTraining hu)) (.foldl (fun _ _ hu => kept_disablePort hu)
    (kept_setNum h))))

theorem kept_applyPortExpect {p : Nat} {portNumber : Bool} {v : Nat} (h : Kept b s t) :
    Kept b s (applyPortExpect p portNumber v t).2 := by
  rw [applyPortExpect]
  exact .ite_snd h (.ite (kept_startTraining (.ite (kept_setNum h) (kept_setNum h))) (.ite (kept_setNum h) (kept_setNum h)))

theorem kept_groupUp {u g : Nat} (h : Kept b s t) : Kept b s (groupUp u g t) := by
  rw [groupUp]
  exact .foldl (fun _ _ hu => .ite (kept_startTraining hu) hu) h

theorem kept_execNak {port ackSeq : Nat} (h : Kept false s t) : Works s (execNak port ackSeq t) :=
  ⟨_, _, rfl, kept_doNak h⟩

theorem kept_execReplayTimeout {port : Nat} (h : Kept false s t) : Works s (execReplayTimeout port t) :=
  ⟨_, _, rfl, kept_doReplayTimeout h⟩

theorem kept_execLinkUnitReceive {port : Nat} {unit : LinkUnit} (h : Kept false s t) : Works s (execLinkUnitReceive port unit t) :=
  ⟨_, _, rfl, kept_receiveUnit h⟩

theorem kept_execCmisRead {port : Nat} {result : CmisResult} (h : Kept false s t) : Works s (execCmisRead port result t) :=
  ⟨_, _, rfl, kept_readCmis h⟩

theorem kept_execPortLaneTrainingDone {port : Nat} (h : Kept false s t) : Works s (execPortLaneTrainingDone port t) :=
  ⟨_, _, rfl, kept_lanesTrained h⟩

theorem kept_execPortTrainTimeout {port : Nat} (h : Kept false s t) : Works s (execPortTrainTimeout port t) :=
  ⟨_, _, rfl, .ite (kept_trainTimeout h) h⟩

theorem kept_execPortRetryTimer {port : Nat} (h : Kept false s t) : Works s (execPortRetryTimer port t) :=
  ⟨_, _, rfl, .ite (kept_retryPort h) h⟩

theorem kept_execLaneFailure {port : Nat} (h : Kept false s t) : Works s (execLaneFailure port t) :=
  ⟨_, _, rfl, kept_laneFails h⟩

theorem kept_execIdentExchange {port : Nat} (h : Kept false s t) : Works s (execIdentExchange port t) :=
  ⟨_, _, rfl, kept_compareIdent h⟩

end Sys2Proof.Machine
end

section
/-! PROOFS. What the functions of Machine/Collectives.lean keep. -/

namespace Sys2Proof.Machine
variable {b : Bool} {s t : State}

theorem kept_stagePut {u off : Nat} {l : List Byte} (h : Kept b s t) : Kept b s (stagePut u off l t) := by
  rw [stagePut]
  exact .record h

theorem kept_colQueueFail {j : Nat} {a : Acc} {addr : Nat} (h : Kept b s t) : Kept b s (colQueueFail j a addr t) := by
  rw [colQueueFail]
  exact kept_accessFault (kept_stopPaths h)

theorem kept_colPut {j off v : Nat} (h : Kept b s t) : Kept b s (colPut j off v t) := by
  rw [colPut]
  split
  · exact .of_snd ‹_› (kept_putStruct h)
  · exact kept_colQueueFail (.of_snd ‹_› (kept_putStruct h))

theorem kept_colMalformed {j p index off : Nat} (h : Kept b s t) : Kept b s (colMalformed j p index off t) := by
  rw [colMalformed]
  exact kept_jobFault (kept_post (kept_stopPaths h))

theorem kept_colAccess {j p addr : Nat} (h : Kept b s t) : Kept b s (colAccess j p addr t) := by
  rw [colAccess]
  exact kept_jobFault (kept_post (kept_stopPaths h))

theorem kept_colShape {j p ch want got : Nat} (h : Kept b s t) : Kept b s (colShape j p ch want got t) := by
  rw [colShape]
  exact kept_jobFault (kept_post (kept_stopPaths h))

theorem kept_ringCol {j value : Nat} (h : Kept b s t) : Kept b s (ringCol j value t) := by
  rw [ringCol]
  exact .ite h (.ite (kept_colMalformed h) (kept_setJob h))

theorem kept_setColls {j p : Nat} {l : List Coll} (h : Kept b s t) : Kept b s (setColls j p l t) := by
  rw [setColls]
  exact kept_setJob h

theorem kept_joinColl {j index : Nat} {raw : List Byte} (h : Kept b s t) : Kept b s (joinColl j index raw t) := by
  rw [joinColl]
  split
  · exact kept_colMalformed (kept_colPut (kept_setNum h))
  · exact kept_setColls (kept_colPut (kept_setNum h))

theorem kept_takeColl {j : Nat} (h : Kept b s t) : Kept b s (takeColl j t) := by
  rw [takeColl]
  refine .ite ?_ h
  dsimp only
  split
  · exact kept_joinColl (.of_snd ‹_› (kept_jobRead h))
  · exact kept_colQueueFail (.of_snd ‹_› (kept_jobRead h))

theorem kept_putColl {j p : Nat} {c : Coll} (h : Kept b s t) : Kept b s (putColl j p c t) := by
  rw [putColl]
  exact kept_setColls h

theorem kept_popInbox {j : Nat} {l : List Nat} (h : Kept b s t) : Kept b s (popInbox j l t) := by
  rw [popInbox]
  exact .foldl (fun _ _ hu => kept_setJob hu) h

theorem kept_memberOf {j : Nat} {c : Coll} (h : Kept b s t) : Kept b s (memberOf j c t).2 := by
  rw [memberOf]
  refine .ite_snd h ?_
  dsimp only
  split <;> exact .of_snd ‹_› (kept_jobRead h)

theorem kept_runColl {kind j p : Nat} {begin work : Coll → State → State} (hbegin : ∀ x u, Kept b s u → Kept b s (begin x u)) (hwork : ∀ x
    u, Kept b s u → Kept b s (work x u)) (h : Kept b s t) :
    Kept b s (runColl kind j p begin work t) := by
  rw [runColl]
  split
  · exact h
  · refine .ite h ?_
    refine .ite (hwork _ _ h) ?_
    split
    · exact kept_colAccess (.of_snd ‹_› (kept_waitRead h))
    · exact .of_snd ‹_› (kept_waitRead h)
    · have hu := Kept.of_snd ‹_› (kept_waitRead h)
      split
      · exact kept_colAccess (.of_snd ‹_› (kept_memberOf hu))
      · exact hbegin _ _ (kept_putColl (.of_snd ‹_› (kept_memberOf hu)))

theorem kept_finishColl {j p : Nat} {c : Coll} (h : Kept b s t) : Kept b s (finishColl j p c t) := by
  rw [finishColl]
  exact kept_putColl h

theorem kept_doColNop {j p : Nat} (h : Kept b s t) : Kept b s (doColNop j p t) := by
  rw [doColNop]
  exact kept_runColl (fun _ _ hu => kept_finishColl hu) (fun _ _ hu => hu) h

theorem kept_sendOn {j : Nat} {l : List Nat} {payload : List Byte} {c : Coll} (h : Kept b s t) : Kept b s (sendOn j l payload c t).2 := by
  rw [sendOn]
  exact .foldl_snd (fun _ _ hu => kept_sendData hu) h

theorem kept_colWrite {j a : Nat} {l : List Byte} (h : Kept b s t) : Kept b s (colWrite j a l t).2 := by
  rw [colWrite]
  exact .ite_snd (kept_writeMem h) h

theorem kept_contribution {j b0 n : Nat} {c : Coll} (h : Kept b s t) : Kept b s (contribution j b0 n c t).2 := by
  rw [contribution]
  refine .ite_snd h ?_
  split <;> exact .of_snd ‹_› (kept_jobRead h)

theorem kept_writeResult {j lu a : Nat} {c : Coll} {l : List Byte} (h : Kept b s t) : Kept b s (writeResult j lu a c l t).2 := by
  rw [writeResult]
  exact .ite_snd (kept_stagePut h) (kept_colWrite h)

theorem kept_reportPoison {j p : Nat} {c : Coll} (h : Kept b s t) : Kept b s (reportPoison j p c t) := by
  rw [reportPoison]
  exact .ite h (kept_post (kept_count h))

theorem kept_hopFrame {j p b0 n : Nat} {c : Coll} {own : List FV} {frames : List (List Byte)} (h : Kept b s t) :
    Kept b s (hopFrame j p b0 n c own frames t) := by
  rw [hopFrame]
  exact .ite (kept_colAccess (.ite_snd (kept_writeResult (.ite (kept_count h) (kept_count (kept_count h)))) (.ite (kept_count h)
    (kept_count (kept_count h))))) (.ite (kept_finishColl (kept_reportPoison (kept_sendOn (.ite_snd (kept_writeResult (.ite (kept_count h)
      (kept_count (kept_count h)))) (.ite (kept_count h) (kept_count (kept_count h))))))) (kept_putColl (kept_sendOn (.ite_snd
        (kept_writeResult (.ite (kept_count h) (kept_count (kept_count h)))) (.ite (kept_count h) (kept_count (kept_count h)))))))

theorem kept_reduceStep {j p : Nat} {c : Coll} (h : Kept b s t) : Kept b s (reduceStep j p c t) := by
  rw [reduceStep]
  split
  · exact kept_colShape h
  · split
    · exact h
    · split
      · exact kept_colAccess (.of_snd ‹_› (kept_contribution (kept_popInbox h)))
      · exact kept_hopFrame (.of_snd ‹_› (kept_contribution (kept_popInbox h)))

theorem kept_noteResult {u j off n : Nat} (h : Kept b s t) : Kept b s (noteResult u j off n t) := by
  rw [noteResult]
  exact .record h

theorem kept_beginReduce {j p : Nat} {c : Coll} (h : Kept b s t) : Kept b s (beginReduce j p c t) := by
  rw [beginReduce]
  exact .ite (kept_noteResult h) h

theorem kept_doReduceHop {j p : Nat} (h : Kept b s t) : Kept b s (doReduceHop j p t) := by
  rw [doReduceHop]
  split
  · exact .ite (kept_reduceStep h) h
  · exact h

theorem kept_jobPlaces {j : Nat} (h : Kept b s t) : Kept b s (jobPlaces j t).2 := by
  rw [jobPlaces]
  refine .ite_snd h ?_
  split <;> exact .of_snd ‹_› (kept_jobRead h)

theorem kept_placeStores {j : Nat} {l : List (Nat × List Byte)} (h : Kept b s t) : Kept b s (placeStores j l t).2 := by
  rw [placeStores]
  split
  · exact h
  · exact .foldl (fun _ _ hu => kept_writeMem hu) h

theorem kept_writeGen {j gen : Nat} {l : List WPlace} (h : Kept b s t) : Kept b s (writeGen j gen l t).2 := by
  rw [writeGen]
  exact kept_placeStores h

theorem kept_placeHeartwood {j : Nat} {c : Coll} {off : Nat} {l : List Byte} (h : Kept b s t) :
    Kept b s (placeHeartwood j c off l t).2 := by
  rw [placeHeartwood]
  split
  · exact .of_snd ‹_› (kept_jobPlaces h)
  · have hu := Kept.of_snd ‹_› (kept_jobPlaces h)
    split
    · dsimp only
      split
      · exact .of_snd ‹_› (kept_placeStores hu)
      · exact kept_writeGen (.of_snd ‹_› (kept_placeStores hu))
    · dsimp only
      split <;> exact .of_snd ‹_› (kept_placeStores hu)

theorem kept_broadcastBytes {j n : Nat} {root : Bool} {inc : List Nat} {c : Coll} (h : Kept b s t) :
    Kept b s (broadcastBytes j n root inc c t).2 := by
  rw [broadcastBytes]
  refine .ite_snd ?_ ?_
  · split <;> exact .of_snd ‹_› (kept_jobRead h)
  · split
    · exact kept_popInbox h
    · exact h

theorem kept_deliverBroadcast {j off : Nat} {root : Bool} {c : Coll} {l : List Byte} (h : Kept b s t) :
    Kept b s (deliverBroadcast j off root c l t).2 := by
  rw [deliverBroadcast]
  exact .ite_snd (kept_placeHeartwood h) (.ite_snd h (kept_colWrite h))

theorem kept_broadcastSteps {j p k : Nat} (h : Kept b s t) : Kept b s (broadcastSteps j p k t) := by
  induction k generalizing j p t with
  | zero => exact h
  | succ k ih =>
    rw [broadcastSteps]
    split
    · exact h
    · refine .ite h ?_
      split
      · exact kept_colAccess (.of_snd ‹_› (kept_broadcastBytes h))
      · exact .of_snd ‹_› (kept_broadcastBytes h)
      · have hu := Kept.of_snd ‹_› (kept_broadcastBytes h)
        refine .ite (kept_colShape hu) ?_
        split
        · exact kept_colAccess (.of_snd ‹_› (kept_deliverBroadcast hu))
        · have hv := Kept.of_snd ‹_› (kept_deliverBroadcast hu)
          exact .ite (kept_finishColl (kept_sendOn hv)) (ih (kept_putColl (kept_sendOn hv)))

theorem kept_doBroadcast {j p : Nat} (h : Kept b s t) : Kept b s (doBroadcast j p t) := by
  rw [doBroadcast]
  exact kept_runColl (fun _ _ hu => kept_broadcastSteps hu) (fun _ _ hu => kept_broadcastSteps hu) h

theorem kept_regionCodes {j : Nat} {w : WPlace} {m : Move} {k : Nat} (h : Kept b s t) : Kept b s (regionCodes j w m k t).2 := by
  induction k generalizing j w m t with
  | zero => exact h
  | succ k ih =>
    rw [regionCodes]
    split
    · have hu := Kept.of_snd ‹_› (kept_jobRead h)
      split <;> exact .of_snd ‹_› (ih hu)
    · exact .of_snd ‹_› (kept_jobRead h)

theorem kept_landCodes {j : Nat} {w : WPlace} {m : Move} {k : Nat} {codes : List Nat} (h : Kept b s t) :
    Kept b s (landCodes j w m k codes t).2 := by
  rw [landCodes]
  exact kept_placeStores h

theorem kept_landAndCount {j i : Nat} {c : Coll} {w : WPlace} {m : Move} {k : Nat} {codes : List Nat} (h : Kept b s t) :
    Kept b s (landAndCount j i c w m k codes t).2 := by
  rw [landAndCount]
  split
  · exact .of_snd ‹_› (kept_landCodes h)
  · exact kept_count (.of_snd ‹_› (kept_landCodes h))

theorem kept_sendMove {j i : Nat} {sources targets : List WPlace} {m : Move} {c : Coll} (h : Kept b s t) :
    Kept b s (sendMove j i sources targets m c t).2 := by
  rw [sendMove]
  refine .ite_snd h ?_
  split
  · exact h
  · split
    · exact .of_snd ‹_› (kept_regionCodes h)
    · have hu := Kept.of_snd ‹_› (kept_regionCodes h)
      refine .ite_snd ?_ (.foldl_snd (fun _ _ hv => kept_sendOn hv) hu)
      split
      · exact kept_landAndCount hu
      · exact hu

theorem kept_sendMoves {j : Nat} {sources targets : List WPlace} {a : List (Nat × Move)} {c : Coll} (h : Kept b s t) :
    Kept b s (sendMoves j sources targets a c t).2 := by
  induction a generalizing j sources targets c t with
  | nil => exact h
  | cons x a ih =>
    rw [sendMoves]
    split
    · exact ih (.of_snd ‹_› (kept_sendMove h))
    · exact kept_sendMove h

theorem kept_landMove {j i : Nat} {t' : WPlace} {m : Move} {f : Nat} {c : Coll} (h : Kept b s t) :
    Kept b s (landMove j i t' m f c t).2 := by
  induction f generalizing j i t' m c t with
  | zero => exact h
  | succ f ih =>
    rw [landMove]
    split
    · refine .ite_snd h ?_
      refine .ite_snd h ?_
      split
      · exact .of_snd ‹_› (kept_landAndCount (kept_popInbox h))
      · exact ih (.of_snd ‹_› (kept_landAndCount (kept_popInbox h)))
    · exact h

theorem kept_landMoves {j : Nat} {targets : List WPlace} {a : List (Nat × Move)} {a' : List Nat} {c : Coll} (h : Kept b s t) :
    Kept b s (landMoves j targets a a' c t).2 := by
  induction a generalizing j targets a' c t with
  | nil => exact h
  | cons x a ih =>
    rw [landMoves]
    split
    · exact ih h
    · refine .ite_snd (ih h) ?_
      split
      · exact ih (.of_snd ‹_› (kept_landMove h))
      · exact kept_landMove h

theorem kept_endPrism {j p : Nat} {c : Coll} (h : Kept b s t) : Kept b s (endPrism j p c t) := by
  rw [endPrism]
  split
  · exact kept_jobFault (kept_post h)
  · dsimp only
    split
    · exact kept_colAccess (.of_snd ‹_› (kept_writeGen h))
    · exact kept_finishColl (kept_post (.of_snd ‹_› (kept_writeGen h)))

theorem kept_prismStep {j p : Nat} {c : Coll} (h : Kept b s t) : Kept b s (prismStep j p c t) := by
  rw [prismStep]
  split
  · exact kept_colAccess (.of_snd ‹_› (kept_landMoves h))
  · exact kept_colShape (.of_snd ‹_› (kept_landMoves h))
  · have hu := Kept.of_snd ‹_› (kept_landMoves h)
    exact .ite (kept_endPrism hu) (kept_putColl hu)

theorem kept_prismBegin {j p : Nat} {c : Coll} (h : Kept b s t) : Kept b s (prismBegin j p c t) := by
  rw [prismBegin]
  split
  · have hu := Kept.of_snd ‹_› (kept_jobRead h)
    split
    · have hv := Kept.of_snd ‹_› (kept_jobRead hu)
      split
      · have hw := Kept.of_snd ‹_› (.ite_snd hv (kept_jobRead hv))
        split
        · have hx := Kept.of_snd ‹_› (kept_jobPlaces hw)
          refine .ite (kept_colMalformed hx) ?_
          dsimp only
          split
          · exact kept_colAccess (.of_snd ‹_› (kept_sendMoves hx))
          · exact kept_prismStep (kept_putColl (.of_snd ‹_› (kept_sendMoves hx)))
        · exact kept_colAccess (.of_snd ‹_› (kept_jobPlaces hw))
      · exact kept_colAccess (.of_snd ‹_› (.ite_snd hv (kept_jobRead hv)))
    · exact kept_colAccess (.of_snd ‹_› (kept_jobRead hu))
  · exact kept_colAccess (.of_snd ‹_› (kept_jobRead h))

theorem kept_completeColl {j p : Nat} (h : Kept b s t) : Kept b s (completeColl j p t) := by
  rw [completeColl]
  split
  · exact h
  · exact .ite h (kept_colPut (kept_count (kept_setJob h)))

theorem kept_execColDoorbell {job value : Nat} (h : Kept false s t) : Works s (execColDoorbell job value t) :=
  ⟨_, _, rfl, kept_ringCol h⟩

theorem kept_execColDescriptorTake {job : Nat} (h : Kept false s t) : Works s (execColDescriptorTake job t) :=
  ⟨_, _, rfl, kept_takeColl h⟩

theorem kept_execColNop {job path : Nat} (h : Kept false s t) : Works s (execColNop job path t) :=
  ⟨_, _, rfl, kept_doColNop h⟩

theorem kept_execReduce {job path : Nat} (h : Kept false s t) : Works s (execReduce job path t) :=
  ⟨_, _, rfl, kept_runColl (fun _ _ hu => kept_beginReduce hu) (fun _ _ hu => hu) h⟩

theorem kept_execReduceHop {job path : Nat} (h : Kept false s t) : Works s (execReduceHop job path t) :=
  ⟨_, _, rfl, kept_doReduceHop h⟩

theorem kept_execBroadcast {job path : Nat} (h : Kept false s t) : Works s (execBroadcast job path t) :=
  ⟨_, _, rfl, kept_doBroadcast h⟩

theorem kept_execPrism {job path : Nat} (h : Kept false s t) : Works s (execPrism job path t) :=
  ⟨_, _, rfl, .ite (kept_runColl (fun _ _ hu => kept_prismBegin hu) (fun _ _ hu => kept_prismStep hu) h) h⟩

end Sys2Proof.Machine
end

section
/-! PROOFS. What the functions of Machine/Landing.lean keep. -/

namespace Sys2Proof.Machine
variable {b : Bool} {s t : State}

theorem kept_admitLu {j : Nat} {o : LuOp} (h : Kept b s t) : Kept b s (admitLu j o t).2 := by
  rw [admitLu]
  refine .ite_snd h ?_
  split
  · have hu := Kept.of_snd ‹_› (kept_jobRead h)
    split
    · exact hu
    · exact .ite_snd hu (.ite_snd hu hu)
  · exact .of_snd ‹_› (kept_jobRead h)

theorem kept_luQueueFail {j : Nat} {a : Acc} {addr : Nat} (h : Kept b s t) : Kept b s (luQueueFail j a addr t) := by
  rw [luQueueFail]
  exact kept_accessFault (kept_stopLanding h)

theorem kept_luPut {j off v : Nat} (h : Kept b s t) : Kept b s (luPut j off v t) := by
  rw [luPut]
  split
  · exact .of_snd ‹_› (kept_putStruct h)
  · exact kept_luQueueFail (.of_snd ‹_› (kept_putStruct h))

theorem kept_luStopped {j lu index status off : Nat} (h : Kept b s t) : Kept b s (luStopped j lu index status off t) := by
  rw [luStopped]
  exact .ite (kept_post (kept_stopLanding h)) h

theorem kept_luStateFault {j : Nat} {was : State} (h : Kept b s t) : Kept b s (luStateFault j was t) := by
  rw [luStateFault]
  exact .ite (kept_accessFault h) h

theorem kept_takeLuOne {j : Nat} (h : Kept b s t) : Kept b s (takeLuOne j t) := by
  rw [takeLuOne]
  split
  · exact kept_luPut (kept_setJob (kept_admitLu (.of_snd ‹_› (kept_jobRead h))))
  · exact kept_luQueueFail (.of_snd ‹_› (kept_jobRead h))

theorem kept_takeLu {j n : Nat} (h : Kept b s t) : Kept b s (takeLu j n t) := by
  induction n generalizing j t with
  | zero => exact h
  | succ n ih =>
    rw [takeLu]
    exact .ite (ih (kept_takeLuOne h)) h

theorem kept_takeLuAll {j : Nat} (h : Kept b s t) : Kept b s (takeLuAll j t) := by
  rw [takeLuAll]
  exact kept_takeLu h

theorem kept_ringLu {j value : Nat} (h : Kept b s t) : Kept b s (ringLu j value t) := by
  rw [ringLu]
  exact .ite h (.ite (kept_luStateFault (kept_luStopped h)) (kept_takeLuAll (kept_setJob h)))

theorem kept_putLu {j : Nat} {o : LuOp} (h : Kept b s t) : Kept b s (putLu j o t) := by
  rw [putLu]
  exact kept_setJob h

theorem kept_runLu {kind j : Nat} {work : LuOp → State → State} (hwork : ∀ x u, Kept b s u → Kept b s (work x u)) (h : Kept b s t) :
    Kept b s (runLu kind j work t) := by
  rw [runLu]
  split
  · exact kept_takeLuAll h
  · split
    · exact kept_putLu (.of_snd ‹_› (kept_waitRead (kept_takeLuAll h)))
    · exact hwork _ _ (.of_snd ‹_› (kept_waitRead (kept_takeLuAll h)))
    · exact .of_snd ‹_› (kept_waitRead (kept_takeLuAll h))

theorem kept_endLu {j : Nat} {o : LuOp} (h : Kept b s t) : Kept b s (endLu j o t) := by
  rw [endLu]
  exact kept_putLu h

theorem kept_spoilLayer {j : Nat} {x : Layer} (h : Kept b s t) : Kept b s (spoilLayer j x t) := by
  rw [spoilLayer]
  exact kept_spoil h

theorem kept_failLu {j : Nat} {o : LuOp} {e : LuBad} (h : Kept b s t) : Kept b s (failLu j o e t) := by
  rw [failLu]
  exact kept_putLu (.ite (kept_spoilLayer h) h)

theorem kept_luRead {j a n : Nat} (h : Kept b s t) : Kept b s (luRead j a n t).2 := by
  rw [luRead]
  split <;> exact .of_snd ‹_› (kept_jobRead h)

theorem kept_luWrite {j : Nat} {l : List (Nat × List Byte)} (h : Kept b s t) : Kept b s (luWrite j l t).2 := by
  rw [luWrite]
  split <;> exact .of_snd ‹_› (kept_placeStores h)

theorem kept_luLayer {j : Nat} {o : LuOp} (h : Kept b s t) : Kept b s (luLayer j o t).2 := by
  rw [luLayer]
  split
  · have hu := Kept.of_snd ‹_› (kept_luRead h)
    exact .ite_snd hu hu
  · exact .of_snd ‹_› (kept_luRead h)

theorem kept_noteVoid {j : Nat} {o : LuOp} {void : Bool} (h : Kept b s t) : Kept b s (noteVoid j o void t) := by
  rw [noteVoid]
  exact kept_setJob h

theorem kept_orthoWork {j : Nat} {o : LuOp} (h : Kept b s t) : Kept b s (orthoWork j o t) := by
  rw [orthoWork]
  split
  · exact kept_failLu (.of_snd ‹_› (kept_luLayer h))
  · have hu := Kept.of_snd ‹_› (kept_luLayer h)
    dsimp only
    split
    · exact kept_failLu (.of_snd ‹_› (kept_luWrite hu))
    · exact kept_endLu (kept_noteVoid (.of_snd ‹_› (kept_luWrite hu)))

theorem kept_readBasis {j : Nat} {x : Layer} (h : Kept b s t) : Kept b s (readBasis j x t).2 := by
  rw [readBasis]
  split <;> exact .of_snd ‹_› (kept_luRead h)

theorem kept_normValue {j : Nat} {o : LuOp} {x : Layer} (h : Kept b s t) : Kept b s (normValue j o x t).2 := by
  rw [normValue]
  refine .ite_snd h ?_
  split <;> exact .of_snd ‹_› (kept_readBasis h)

theorem kept_normWork {j : Nat} {o : LuOp} (h : Kept b s t) : Kept b s (normWork j o t) := by
  rw [normWork]
  -- The kernel is not to evaluate the callees while it reduces the matches on their results.
  obtain ⟨value, hValue⟩ : ∃ f, f = normValue := ⟨_, rfl⟩
  obtain ⟨write, hWrite⟩ : ∃ f, f = luWrite := ⟨_, rfl⟩
  rw [← hValue, ← hWrite]
  rcases hx : luLayer j o t with ⟨x | x, u⟩
  · exact kept_failLu (.of_snd hx (kept_luLayer h))
  have hu : Kept b s u := .of_snd hx (kept_luLayer h)
  dsimp only
  rcases hy : value j o x u with ⟨y | y, v⟩
  · exact kept_failLu (.of_snd hy (hValue ▸ kept_normValue hu))
  have hv : Kept b s v := .of_snd hy (hValue ▸ kept_normValue hu)
  dsimp only
  rcases hz : write j [(x.stateAddr + 20, leBytes 4 y), (o.aux, leBytes 4 y ++ leBytes 4 o.step32)] v with ⟨z | z, w⟩
  · exact kept_endLu (.of_snd hz (hWrite ▸ kept_luWrite hv))
  · exact kept_failLu (.of_snd hz (hWrite ▸ kept_luWrite hv))

theorem kept_clipFactor {j : Nat} {o : LuOp} (h : Kept b s t) : Kept b s (clipFactor j o t).2 := by
  rw [clipFactor]
  refine .ite_snd h ?_
  split <;> exact .of_snd ‹_› (kept_luRead h)

theorem kept_readCodes {j width a n : Nat} (h : Kept b s t) : Kept b s (readCodes j width a n t).2 := by
  rw [readCodes]
  split <;> exact .of_snd ‹_› (kept_luRead h)

theorem kept_readMaster {j : Nat} {x : Layer} (h : Kept b s t) : Kept b s (readMaster j x t).2 := by
  rw [readMaster]
  refine .ite_snd ?_ (kept_readCodes h)
  split
  · exact .of_snd ‹_› (kept_readCodes h)
  · have hu := Kept.of_snd ‹_› (kept_readCodes h)
    split <;> exact .of_snd ‹_› (kept_readCodes hu)

theorem kept_countFallback {j : Nat} {main : Bool} (h : Kept b s t) : Kept b s (countFallback j main t) := by
  rw [countFallback]
  exact .ite h (kept_count h)

theorem kept_voidUpdate {j : Nat} {o : LuOp} {x : Layer} {cause xq : Nat} {main : Bool} {master : List Nat} {flags : Nat} (h : Kept b s t) :
    Kept b s (voidUpdate j o x cause xq main master flags t) := by
  rw [voidUpdate]
  refine .ite (kept_jobFault h) ?_
  split
  · dsimp only
    split
    · exact kept_failLu (.of_snd ‹_› (kept_luWrite h))
    · exact kept_endLu (kept_post (kept_countFallback (kept_count (.of_snd ‹_› (kept_luWrite h)))))
  · dsimp only
    split
    · exact kept_failLu (.of_snd ‹_› (kept_luWrite h))
    · exact kept_endLu (kept_post (kept_countFallback (kept_count (.of_snd ‹_› (kept_luWrite h)))))

theorem kept_applyUpdate {j : Nat} {o : LuOp} {x : Layer} {t' xq : Nat} {main : Bool} {master : List Nat} {formed : List Formed} {trust
    flags : Nat} (h : Kept b s t) :
    Kept b s (applyUpdate j o x t' xq main master formed trust flags t) := by
  rw [applyUpdate]
  split
  · exact kept_failLu (kept_spoilLayer (.of_snd ‹_› (kept_luWrite h)))
  · have hu := Kept.of_snd ‹_› (kept_luWrite h)
    exact kept_endLu (.ite (kept_post (.ite (kept_post (kept_countFallback (kept_count hu))) (kept_countFallback (kept_count hu)))) (.ite
      (kept_post (kept_countFallback (kept_count hu))) (kept_countFallback (kept_count hu))))

theorem kept_keepMoments {u : Nat} {formed : List Formed} (h : Kept b s t) : Kept b s (keepMoments u formed t) := by
  rw [keepMoments]
  exact kept_stagePut h

theorem kept_firstPass {j : Nat} {o : LuOp} {x : Layer} {c xq : Nat} {main : Bool} {master st : List Nat} (h : Kept b s t) :
    Kept b s (firstPass j o x c xq main master st t) := by
  rw [firstPass]
  split
  · exact kept_failLu (.of_snd ‹_› (kept_readBasis h))
  · have hu := Kept.of_snd ‹_› (kept_readBasis h)
    split
    · exact kept_failLu (.of_snd ‹_› (kept_readCodes hu))
    · have hv := Kept.of_snd ‹_› (kept_readCodes hu)
      split
      · exact kept_failLu (.of_snd ‹_› (kept_readCodes hv))
      · have hw := Kept.of_snd ‹_› (kept_readCodes hv)
        exact .ite (kept_applyUpdate (.ite (kept_keepMoments hw) hw)) (kept_voidUpdate (.ite (kept_keepMoments hw) hw))

theorem kept_updateWork {j : Nat} {o : LuOp} (h : Kept b s t) : Kept b s (updateWork j o t) := by
  rw [updateWork]
  -- As above: the callees are variables to the kernel.
  obtain ⟨clip, hClip⟩ : ∃ f, f = clipFactor := ⟨_, rfl⟩
  obtain ⟨codes, hCodes⟩ : ∃ f, f = readCodes := ⟨_, rfl⟩
  obtain ⟨masters, hMasters⟩ : ∃ f, f = readMaster := ⟨_, rfl⟩
  rw [← hClip, ← hCodes, ← hMasters]
  rcases hx : luLayer j o t with ⟨x | x, u⟩
  · exact kept_failLu (.of_snd hx (kept_luLayer h))
  have hu : Kept b s u := .of_snd hx (kept_luLayer h)
  dsimp only
  rcases hy : clip j o u with ⟨y | y, v⟩
  · exact kept_failLu (.of_snd hy (hClip ▸ kept_clipFactor hu))
  have hv : Kept b s v := .of_snd hy (hClip ▸ kept_clipFactor hu)
  dsimp only
  rcases hz : codes j 4 x.stateAddr 16 v with ⟨z | z, w⟩
  · exact kept_failLu (.of_snd hz (hCodes ▸ kept_readCodes hv))
  have hw : Kept b s w := .of_snd hz (hCodes ▸ kept_readCodes hv)
  dsimp only
  rcases hm : masters j x w with ⟨m | m, q⟩
  · exact kept_failLu (.of_snd hm (hMasters ▸ kept_readMaster hw))
  have hq : Kept b s q := .of_snd hm (hMasters ▸ kept_readMaster hw)
  exact .ite (kept_voidUpdate hq) (.ite (kept_voidUpdate hq) (kept_firstPass hq))

theorem kept_luEffect {j : Nat} {o : LuOp} (h : Kept b s t) : Kept b s (luEffect j o t) := by
  rw [luEffect]
  exact .ite (kept_luStateFault (kept_jobFault (kept_luStopped h))) h

theorem kept_dropResult {j : Nat} {o : LuOp} (h : Kept b s t) : Kept b s (dropResult j o t) := by
  rw [dropResult]
  exact .ite (.record h) h

theorem kept_completeLu {j : Nat} (h : Kept b s t) : Kept b s (completeLu j t) := by
  rw [completeLu]
  split
  · exact h
  · exact .ite (kept_setJob (kept_luEffect (kept_dropResult (kept_putLu h)))) (kept_luPut (kept_setJob (kept_luEffect (kept_dropResult
      (kept_putLu h)))))

theorem kept_execLuDoorbell {job value : Nat} (h : Kept false s t) : Works s (execLuDoorbell job value t) :=
  ⟨_, _, rfl, kept_ringLu h⟩

theorem kept_execLuNop {job : Nat} (h : Kept false s t) : Works s (execLuNop job t) :=
  ⟨_, _, rfl, kept_runLu (fun _ _ hu => kept_endLu hu) h⟩

theorem kept_execOrtho {job : Nat} (h : Kept false s t) : Works s (execOrtho job t) :=
  ⟨_, _, rfl, kept_runLu (fun _ _ hu => kept_orthoWork hu) h⟩

theorem kept_execNorm {job : Nat} (h : Kept false s t) : Works s (execNorm job t) :=
  ⟨_, _, rfl, kept_runLu (fun _ _ hu => kept_normWork hu) h⟩

theorem kept_execUpdate {job : Nat} (h : Kept false s t) : Works s (execUpdate job t) :=
  ⟨_, _, rfl, kept_runLu (fun _ _ hu => kept_updateWork hu) h⟩

theorem kept_execLandingOperationComplete {job : Nat} (h : Kept false s t) : Works s (execLandingOperationComplete job t) :=
  ⟨_, _, rfl, kept_completeLu h⟩

end Sys2Proof.Machine
end

section
/-! PROOFS. What the functions of Machine/Journal.lean keep. -/

namespace Sys2Proof.Machine
variable {b : Bool} {s t : State}

theorem kept_putJournalShadow {j : Nat} (h : Kept b s t) : Kept b s (putJournalShadow j t) := by
  rw [putJournalShadow]
  exact kept_placeStores h

theorem kept_trimJournal {j : Nat} (h : Kept b s t) : Kept b s (trimJournal j t) := by
  rw [trimJournal]
  exact kept_setJob h

theorem kept_mirrorPut {j off : Nat} {l : List Byte} (h : Kept b s t) : Kept b s (mirrorPut j off l t) := by
  rw [mirrorPut]
  exact .ite (.foldl (fun _ _ hu => kept_sendRemote hu) h) h

theorem kept_mirrorRead {j : Nat} (h : Kept b s t) : Kept b s (mirrorRead j t) := by
  rw [mirrorRead]
  exact .foldl (fun _ _ hu => kept_sendRemote hu) h

theorem kept_journalPut {j off : Nat} {l : List Byte} (h : Kept b s t) : Kept b s (journalPut j off l t).2 := by
  rw [journalPut]
  split
  · exact kept_mirrorPut (.of_snd ‹_› (kept_placeStores h))
  · exact kept_placeStores h

theorem kept_appendRecord {j seq : Nat} {l : List Byte} (h : Kept b s t) : Kept b s (appendRecord j seq l t).2 := by
  rw [appendRecord]
  split
  · exact .of_snd ‹_› (.ite_snd h (kept_journalPut h))
  · have hu := Kept.of_snd ‹_› (.ite_snd h (kept_journalPut h))
    split
    · exact .of_snd ‹_› (kept_journalPut hu)
    · exact kept_setJob (.of_snd ‹_› (kept_journalPut hu))

theorem kept_settleLast {j : Nat} (h : Kept b s t) : Kept b s (settleLast j t) := by
  rw [settleLast]
  exact .ite h (kept_putJournalShadow (.ite (kept_setNum (kept_setNum h)) (kept_setNum h)))

theorem kept_dropUnjournaled {j : Nat} (h : Kept b s t) : Kept b s (dropUnjournaled j t) := by
  rw [dropUnjournaled]
  exact kept_setJob h

theorem kept_settleMirrorWrites {j : Nat} (h : Kept b s t) : Kept b s (settleMirrorWrites j t) := by
  rw [settleMirrorWrites]
  exact .ite h (.ite (kept_settleLast (.ite (.record h) (kept_count (.record h)))) (kept_jobFault (kept_dropUnjournaled (.ite (.record h)
    (kept_count (.record h))))))

theorem kept_readRec {base size seq : Nat} (h : Kept b s t) : Kept b s (readRec base size seq t).2 := by
  rw [readRec]
  split
  · exact h
  · split <;> exact .of_snd ‹_› (kept_tryRead h)

theorem kept_sourceRec {j seq : Nat} (h : Kept b s t) : Kept b s (sourceRec j seq t).2 := by
  rw [sourceRec]
  split
  · exact .of_snd ‹_› (kept_readRec h)
  · have hu := Kept.of_snd ‹_› (kept_readRec h)
    split
    · exact .of_snd ‹_› (kept_readRec hu)
    · have hv := Kept.of_snd ‹_› (kept_readRec hu)
      split <;> exact hv

theorem kept_repairRec {j off : Nat} {l : List Byte} (h : Kept b s t) : Kept b s (repairRec j off l t).2 := by
  rw [repairRec]
  refine .ite ?_ ?_
  · refine kept_count ?_
    refine .foldl_snd ?_ h
    intro _ _ hu
    split <;> exact .of_snd ‹_› (kept_placeStores hu)
  · refine .foldl_snd ?_ h
    intro _ _ hu
    split <;> exact .of_snd ‹_› (kept_placeStores hu)

theorem kept_repairSteps {j f seq written first : Nat} (h : Kept b s t) : Kept b s (repairSteps j f seq written first t).2 := by
  induction f generalizing j seq written first t with
  | zero => exact h
  | succ f ih =>
    rw [repairSteps]
    split
    · exact .of_snd ‹_› (kept_sourceRec h)
    · exact ih (kept_setJob (kept_repairRec (.of_snd ‹_› (kept_sourceRec h))))

theorem kept_repairJournal {j : Nat} (h : Kept b s t) : Kept b s (repairJournal j t) := by
  rw [repairJournal]
  exact .ite (kept_jobFault (.ite (.record (kept_repairSteps h)) (kept_post (.record (kept_repairSteps h))))) (kept_putJournalShadow
    (kept_setNum (.ite (.record (kept_repairSteps h)) (kept_post (.record (kept_repairSteps h))))))

theorem kept_sendReady {j : Nat} (h : Kept b s t) : Kept b s (sendReady j t) := by
  rw [sendReady]
  exact kept_sendCtrl (kept_setJob h)

theorem kept_repairAndReady {j : Nat} (h : Kept b s t) : Kept b s (repairAndReady j t) := by
  rw [repairAndReady]
  exact .ite (kept_sendReady (kept_repairJournal h)) (kept_repairJournal h)

theorem kept_beginRepair {j : Nat} (h : Kept b s t) : Kept b s (beginRepair j t) := by
  rw [beginRepair]
  exact .ite (kept_mirrorRead h) (kept_repairAndReady h)

theorem kept_settleMirrorReads {j : Nat} (h : Kept b s t) : Kept b s (settleMirrorReads j t) := by
  rw [settleMirrorReads]
  exact .ite h (.ite (kept_jobFault (.record h)) (kept_repairAndReady h))

theorem kept_settleMirror (h : Kept b s t) : Kept b s (settleMirror t) := by
  rw [settleMirror]
  exact .foldl (fun _ _ hu => kept_settleMirrorReads (kept_settleMirrorWrites hu)) h

theorem kept_rebuildMirror {j : Nat} (h : Kept b s t) : Kept b s (rebuildMirror j t) := by
  rw [rebuildMirror]
  exact .ite (.ite (kept_setNum (.foldl (fun _ _ hu => kept_mirrorPut hu) h)) (.foldl (fun _ _ hu => kept_mirrorPut hu) h)) h

end Sys2Proof.Machine
end

section
/-! PROOFS. What the functions of Machine/Delivery.lean keep. -/

namespace Sys2Proof.Machine
variable {b : Bool} {s t : State}

theorem kept_leaveLane {port : Option Nat} {vl : Nat} {f : Frame} (h : Kept b s t) : Kept b s (leaveLane port vl f t) := by
  unfold leaveLane
  split
  · exact kept_returnCredits (kept_setPort (.record h))
  · exact kept_settleSends (.record (.record h))

theorem kept_ringPut {j base size counts written consumed : Nat} {l : List Byte} (h : Kept b s t) :
    Kept b s (ringPut j base size counts written consumed l t).2 := by
  rw [ringPut]
  -- The kernel is not to evaluate the stores while it reduces the matches on their results.
  obtain ⟨put, hPut⟩ : ∃ f, f = putStruct := ⟨_, rfl⟩
  have hKept : ∀ {u j a l}, Kept b s u → Kept b s (put j a l u).2 := hPut ▸ kept_putStruct
  rw [← hPut]
  refine .ite_snd h ?_
  rcases hx : put j (base + written % size) l t with ⟨x | x | x, u⟩
  · have hu : Kept b s u := .of_snd hx (hKept h)
    dsimp only
    rcases hy : put j counts (leBytes 4 (add32 written l.length)) u with ⟨y | y | y, v⟩
    all_goals exact .of_snd hy (hKept hu)
  all_goals exact .of_snd hx (hKept h)

theorem kept_ringRecord {j base log2 counts : Nat} {f : Frame} (h : Kept b s t) : Kept b s (ringRecord j base log2 counts f t).2 := by
  rw [ringRecord]
  split
  · have hu := Kept.of_snd ‹_› (kept_jobRead h)
    refine .ite_snd hu ?_
    refine .ite_snd (kept_ringPut hu) ?_
    split
    · exact kept_setJob (.of_snd ‹_› (kept_ringPut hu))
    · exact kept_ringPut hu
  · exact .of_snd ‹_› (kept_jobRead h)

theorem kept_sinkData {j : Nat} {f : Frame} (h : Kept b s t) : Kept b s (sinkData j f t).2 := by
  rw [sinkData]
  exact .ite_snd (kept_ringRecord h) (.ite_snd (kept_setJob h) (.ite_snd (kept_setJob h) h))

theorem kept_dropCtrl {j : Nat} (h : Kept b s t) : Kept b s (dropCtrl j t) := by
  rw [dropCtrl]
  exact kept_setJob h

theorem kept_countCode {j : Nat} {f : Frame} (h : Kept b s t) : Kept b s (countCode j f t) := by
  rw [countCode]
  exact .ite h (kept_dropCtrl h)

theorem kept_sinkCtrl {j : Nat} {f : Frame} (h : Kept b s t) : Kept b s (sinkCtrl j f t).2 := by
  rw [sinkCtrl]
  exact .ite_snd h (.ite_snd (kept_countCode (.ite_snd (kept_ringRecord h) h)) (.ite_snd (kept_ringRecord h) h))

theorem kept_applyEpoch {j : Nat} (h : Kept b s t) : Kept b s (applyEpoch j t) := by
  rw [applyEpoch]
  exact .ite h (kept_setJob h)

theorem kept_sinkFrame {port : Option Nat} {vl j : Nat} {f : Frame} (h : Kept b s t) : Kept b s (sinkFrame port vl j f t) := by
  rw [sinkFrame]
  split
  · have hu := Kept.of_snd ‹_› (.ite_snd (kept_sinkData h) (kept_sinkCtrl h))
    exact kept_applyEpoch (kept_leaveLane (.ite (kept_noteSent hu) hu))
  · exact .record (.of_snd ‹_› (.ite_snd (kept_sinkData h) (kept_sinkCtrl h)))
  · have hu := Kept.of_snd ‹_› (.ite_snd (kept_sinkData h) (kept_sinkCtrl h))
    exact kept_accessFault (kept_applyEpoch (kept_leaveLane hu))

theorem kept_readMasked {k i line : Nat} (h : Kept b s t) : Kept b s (readMasked k i line t).2 := by
  induction k generalizing i line t with
  | zero => exact h
  | succ k ih =>
    rw [readMasked]
    exact ih (kept_cohReadLine h)

theorem kept_answerRemote {j type status mask : Nat} {f : Frame} {payload : List Byte} (h : Kept b s t) :
    Kept b s (answerRemote j type status mask f payload t) := by
  rw [answerRemote]
  exact kept_sendFrame h

theorem kept_serveRemote {j : Nat} {f : Frame} (h : Kept b s t) : Kept b s (serveRemote j f t) := by
  rw [serveRemote]
  exact .ite (.ite (kept_answerRemote h) (kept_answerRemote (kept_readMasked h))) (kept_answerRemote (.ite h (.ite (kept_writeMem h)
    (kept_cohWriteLine h))))

theorem kept_takeAnswer {port : Option Nat} {j : Nat} {f : Frame} (h : Kept b s t) : Kept b s (takeAnswer port j f t) := by
  rw [takeAnswer]
  split
  · exact h
  · exact .ite (kept_count h) (kept_settleMirror (kept_issueRemotes (.record h)))

theorem kept_badSig {j code sender : Nat} (h : Kept b s t) : Kept b s (badSig j code sender t) := by
  rw [badSig]
  exact kept_post (kept_count h)

theorem kept_takeFell {j : Nat} {f : Frame} (h : Kept b s t) : Kept b s (takeFell j f t) := by
  rw [takeFell]
  exact .ite (kept_badSig h) (.ite (kept_dropCtrl h) (.ite h (kept_post (kept_setJob (kept_setJobState (kept_releaseSlots (kept_stopWork
    (kept_issueRemotes (kept_closeJob h)))))))))

theorem kept_sendSnag {j : Nat} {f : Frame} (h : Kept b s t) : Kept b s (sendSnag j f t) := by
  rw [sendSnag]
  exact kept_sendCtrl h

theorem kept_staleFrame {port : Option Nat} {j : Nat} {f : Frame} (h : Kept b s t) : Kept b s (staleFrame port j f t) := by
  rw [staleFrame]
  exact .ite (kept_count h) (kept_sendSnag (kept_post (.record (kept_count h))))

theorem kept_takeData {port : Option Nat} {vl j : Nat} {f : Frame} (h : Kept b s t) : Kept b s (takeData port vl j f t) := by
  rw [takeData]
  refine .ite (kept_leaveLane (kept_count h)) ?_
  split
  · exact kept_sinkFrame (kept_setJob h)
  · exact kept_leaveLane (kept_count h)
  · exact kept_jobFault (kept_leaveLane (kept_post h))

theorem kept_deliverFrame {port : Option Nat} {vl j : Nat} {f : Frame} (h : Kept b s t) : Kept b s (deliverFrame port vl j f t) := by
  rw [deliverFrame]
  exact .ite (kept_jobFault (kept_post (kept_count (kept_leaveLane h)))) (.ite (kept_sinkFrame h) (.ite (kept_takeFell (kept_leaveLane h))
    (.ite (kept_count (kept_leaveLane h)) (.ite (kept_staleFrame (kept_leaveLane h)) (.ite (kept_takeData h) (.ite (kept_takeAnswer
      (kept_leaveLane h)) (kept_serveRemote (kept_leaveLane h))))))))

theorem kept_dropRoute {port : Option Nat} {vl : Nat} {f : Frame} (h : Kept b s t) : Kept b s (dropRoute port vl f t) := by
  rw [dropRoute]
  exact kept_post (kept_count (kept_leaveLane h))

theorem kept_forwardFrame {port : Option Nat} {vl p : Nat} {f : Frame} (h : Kept b s t) : Kept b s (forwardFrame port vl p f t) := by
  unfold forwardFrame
  split
  · exact .ite (kept_dropRoute h) (kept_leaveLane (kept_enqueue h))
  · exact kept_leaveLane (kept_enqueue h)

theorem kept_routeFrame {port : Option Nat} {vl : Nat} {f : Frame} (h : Kept b s t) : Kept b s (routeFrame port vl f t) := by
  rw [routeFrame]
  refine .ite (kept_count (kept_leaveLane h)) ?_
  split
  · exact kept_dropRoute h
  · refine .ite (kept_sinkFrame h) ?_
    split
    · exact kept_deliverFrame (.of_snd ‹_› (kept_routeOf h))
    · exact kept_forwardFrame (.of_snd ‹_› (kept_routeOf h))
    · exact kept_dropRoute (.of_snd ‹_› (kept_routeOf h))
    · exact kept_accessFault (kept_dropRoute (.of_snd ‹_› (kept_routeOf h)))

theorem kept_takeLane {port : Option Nat} {vl : Nat} {want : State → Frame → Bool} (h : Kept b s t) :
    Kept b s (takeLane port vl want t) := by
  rw [takeLane]
  split
  · exact .ite (kept_routeFrame h) h
  · exact h

theorem kept_retryLane {port : Option Nat} {vl : Nat} (h : Kept b s t) : Kept b s (retryLane port vl t) := by
  rw [retryLane]
  exact .ite (kept_takeLane h) h

theorem kept_timeoutRemote {tag : Nat} (h : Kept b s t) : Kept b s (timeoutRemote tag t) := by
  rw [timeoutRemote]
  exact kept_settleMirror (kept_issueRemotes (.record h))

theorem kept_stallLane {p vl : Nat} (h : Kept b s t) : Kept b s (stallLane p vl t) := by
  rw [stallLane]
  exact .ite h (.foldl (fun _ _ hu => kept_jobFault hu) (kept_post h))

theorem kept_sendMalformed {j index off : Nat} (h : Kept b s t) : Kept b s (sendMalformed j index off t) := by
  rw [sendMalformed]
  exact kept_post (kept_setJob h)

theorem kept_ringSend {j value : Nat} (h : Kept b s t) : Kept b s (ringSend j value t) := by
  rw [ringSend]
  exact .ite (.ite (kept_sendMalformed h) (kept_setJob h)) h

theorem kept_sendOne {j : Nat} {l payload : List Byte} (h : Kept b s t) : Kept b s (sendOne j l payload t) := by
  rw [sendOne]
  exact kept_sendFrame (kept_setJob h)

theorem kept_takeSend {j : Nat} (h : Kept b s t) : Kept b s (takeSend j t) := by
  rw [takeSend]
  -- As above.
  obtain ⟨read, hRead⟩ : ∃ f, f = jobRead := ⟨_, rfl⟩
  obtain ⟨bad, hBad⟩ : ∃ f, f = sendBad := ⟨_, rfl⟩
  have hKept : ∀ {u j a n}, Kept b s u → Kept b s (read j a n u).2 := hRead ▸ kept_jobRead
  rw [← hRead, ← hBad]
  refine .ite ?_ h
  extract_lets a
  split
  · have hu := Kept.of_snd ‹_› (hKept h)
    split
    · exact kept_sendMalformed hu
    · split
      · exact kept_sendOne (.of_snd ‹_› (hKept hu))
      · exact kept_accessFault (kept_setJob (.of_snd ‹_› (hKept hu)))
  · exact kept_accessFault (kept_setJob (.of_snd ‹_› (hKept h)))

theorem kept_execFrameRoute {port : Option Nat} {vl : Nat} (h : Kept false s t) : Works s (execFrameRoute port vl t) :=
  ⟨_, _, rfl, kept_takeLane h⟩

theorem kept_execData {port : Option Nat} (h : Kept false s t) : Works s (execData port t) :=
  ⟨_, _, rfl, kept_takeLane h⟩

theorem kept_execRdReq {port : Option Nat} (h : Kept false s t) : Works s (execRdReq port t) :=
  ⟨_, _, rfl, kept_takeLane h⟩

theorem kept_execRdRsp {port : Option Nat} (h : Kept false s t) : Works s (execRdRsp port t) :=
  ⟨_, _, rfl, kept_takeLane h⟩

theorem kept_execWrReq {port : Option Nat} (h : Kept false s t) : Works s (execWrReq port t) :=
  ⟨_, _, rfl, kept_takeLane h⟩

theorem kept_execWrPart {port : Option Nat} (h : Kept false s t) : Works s (execWrPart port t) :=
  ⟨_, _, rfl, kept_takeLane h⟩

theorem kept_execWrAck {port : Option Nat} (h : Kept false s t) : Works s (execWrAck port t) :=
  ⟨_, _, rfl, kept_takeLane h⟩

theorem kept_execCtrl {port : Option Nat} (h : Kept false s t) : Works s (execCtrl port t) :=
  ⟨_, _, rfl, kept_takeLane h⟩

theorem kept_execFellNotice {port : Option Nat} (h : Kept false s t) : Works s (execFellNotice port t) :=
  ⟨_, _, rfl, kept_takeLane h⟩

theorem kept_execRingRecordWrite {port : Option Nat} (h : Kept false s t) : Works s (execRingRecordWrite port t) :=
  ⟨_, _, rfl, kept_retryLane (kept_retryLane h)⟩

theorem kept_execRemoteTimeout {tag : Nat} (h : Kept false s t) : Works s (execRemoteTimeout tag t) :=
  ⟨_, _, rfl, .ite (kept_timeoutRemote h) h⟩

theorem kept_execVlStall {port vl : Nat} (h : Kept false s t) : Works s (execVlStall port vl t) :=
  ⟨_, _, rfl, .ite (kept_stallLane h) h⟩

theorem kept_execSendDoorbell {job value : Nat} (h : Kept false s t) : Works s (execSendDoorbell job value t) :=
  ⟨_, _, rfl, kept_ringSend h⟩

theorem kept_execSendDescriptor {job : Nat} (h : Kept false s t) : Works s (execSendDescriptor job t) :=
  ⟨_, _, rfl, kept_takeSend h⟩

end Sys2Proof.Machine
end

section
/-! PROOFS. What the functions of Machine/Jobs.lean keep. -/

namespace Sys2Proof.Machine
variable {b : Bool} {s t : State}

theorem kept_readDesc {j : Nat} (h : Kept b s t) : Kept b s (readDesc j t).2 := by
  rw [readDesc]
  split
  · have hu := Kept.of_snd ‹_› (kept_plainRead h)
    split
    · exact hu
    · dsimp only
      split
      · have hv := Kept.of_snd ‹_› (kept_plainRead hu)
        split <;> exact hv
      · exact .of_snd ‹_› (kept_plainRead hu)
  · exact .of_snd ‹_› (kept_plainRead h)

theorem kept_readTopo {j : Nat} (h : Kept b s t) : Kept b s (readTopo j t).2 := by
  rw [readTopo]
  refine .ite_snd h ?_
  split
  · have hu := Kept.of_snd ‹_› (kept_plainRead h)
    dsimp only
    split
    · have hv := Kept.of_snd ‹_› (kept_plainRead hu)
      split <;> exact hv
    · exact .of_snd ‹_› (kept_plainRead hu)
  · exact .of_snd ‹_› (kept_plainRead h)

theorem kept_topologyBad {j : Nat} (h : Kept b s t) : Kept b s (topologyBad j t).2 := by
  rw [topologyBad]
  split
  · exact h
  · split
    · exact kept_post (.of_snd ‹_› (kept_readTopo h))
    · exact .of_snd ‹_› (kept_readTopo h)
    · have hu := Kept.of_snd ‹_› (kept_readTopo h)
      exact .ite_snd hu (kept_setJob hu)

theorem kept_startChecks {spare : Bool} {j : Nat} (h : Kept b s t) : Kept b s (startChecks spare j t).2 := by
  unfold startChecks
  split
  · exact h
  · exact h
  · split
    · exact h
    · split <;> exact .of_snd ‹_› (kept_topologyBad h)

theorem kept_mustPut {j a : Nat} {l : List Byte} (h : Kept b s t) : Kept b s (mustPut j a l t) := by
  rw [mustPut]
  split
  · exact .of_snd ‹_› (kept_putStruct h)
  · exact kept_accessFault (.of_snd ‹_› (kept_putStruct h))

theorem kept_newEpoch {j : Nat} (h : Kept b s t) : Kept b s (newEpoch j t) := by
  rw [newEpoch]
  exact kept_applyEpoch (kept_setJob h)

theorem kept_openJob {j : Nat} (h : Kept b s t) : Kept b s (openJob j t) := by
  rw [openJob]
  exact .ite (kept_mustPut (.ite (kept_mustPut (.ite (kept_mustPut (kept_setNum (kept_setNum (kept_setNum (kept_setJob h))))) (kept_setNum
    (kept_setNum (kept_setNum (kept_setJob h)))))) (.ite (kept_mustPut (kept_setNum (kept_setNum (kept_setNum (kept_setJob h)))))
      (kept_setNum (kept_setNum (kept_setNum (kept_setJob h))))))) (.ite (kept_mustPut (.ite (kept_mustPut (kept_setNum (kept_setNum
        (kept_setNum (kept_setJob h))))) (kept_setNum (kept_setNum (kept_setNum (kept_setJob h)))))) (.ite (kept_mustPut (kept_setNum
          (kept_setNum (kept_setNum (kept_setJob h))))) (kept_setNum (kept_setNum (kept_setNum (kept_setJob h))))))

theorem kept_refuseStart {j code detail : Nat} (h : Kept b s t) : Kept b s (refuseStart j code detail t) := by
  rw [refuseStart]
  exact kept_post (kept_setJobStatus h)

theorem kept_resetControl {j : Nat} (h : Kept b s t) : Kept b s (resetControl j t) := by
  rw [resetControl]
  exact .ite h (kept_tryWrite h)

theorem kept_enterJobAt {epoch : Option Nat} {spare : Bool} {j : Nat} (h : Kept b s t) : Kept b s (enterJobAt epoch spare j t) := by
  rw [enterJobAt]
  exact .ite (kept_setJobState (kept_newEpoch (.record (kept_setNum (kept_setNum (kept_setNum (kept_resetControl h))))))) (kept_sendCtrl
    (kept_openJob (kept_setJobState (kept_newEpoch (.record (kept_setNum (kept_setNum (kept_setNum (kept_resetControl h)))))))))

theorem kept_startJobAt {epoch : Option Nat} {spare : Bool} {j : Nat} (h : Kept b s t) : Kept b s (startJobAt epoch spare j t) := by
  rw [startJobAt]
  split
  · exact kept_refuseStart (.of_snd ‹_› (kept_readDesc h))
  · have hu := Kept.of_snd ‹_› (kept_readDesc h)
    dsimp only
    split
    · exact kept_refuseStart (kept_setJob (.of_snd ‹_› (kept_startChecks (kept_setJob hu))))
    · exact kept_enterJobAt (.of_snd ‹_› (kept_startChecks (kept_setJob hu)))

theorem kept_startJob {spare : Bool} {j : Nat} (h : Kept b s t) : Kept b s (startJob spare j t) := by
  rw [startJob]
  exact kept_startJobAt h

theorem kept_mirrorOff {j : Nat} (h : Kept b s t) : Kept b s (mirrorOff j t) := by
  rw [mirrorOff]
  exact kept_setNum h

theorem kept_stopJob {j : Nat} (h : Kept b s t) : Kept b s (stopJob j t) := by
  rw [stopJob]
  exact .ite h (kept_mirrorOff (kept_setJobState (kept_setJob (kept_issueRemotes (kept_closeJob (kept_releaseSlots (kept_stopWork h)))))))

theorem kept_applyJobCtrl {j v : Nat} (h : Kept b s t) : Kept b s (applyJobCtrl j v t).2 := by
  rw [applyJobCtrl]
  exact .ite_snd (kept_stopJob h) (.ite_snd (.ite_snd h (kept_startJob h)) h)

theorem kept_armWatchdog {j : Nat} (h : Kept b s t) : Kept b s (armWatchdog j t) := by
  rw [armWatchdog]
  exact kept_setJob h

theorem kept_applyJobKick {j v : Nat} (h : Kept b s t) : Kept b s (applyJobKick j v t).2 := by
  rw [applyJobKick]
  exact .ite_snd (kept_armWatchdog h) h

theorem kept_watchdogOut {j : Nat} (h : Kept b s t) : Kept b s (watchdogOut j t) := by
  rw [watchdogOut]
  exact .ite (kept_jobFault h) h

theorem kept_signedMsg {j code len : Nat} {l : List Byte} {act : State → State} (hact : ∀ u, Kept b s u → Kept b s (act u)) (h : Kept b s
    t) :
    Kept b s (signedMsg j code len l act t) := by
  rw [signedMsg]
  exact .ite h (.ite (kept_badSig h) (.ite h (.ite (kept_dropCtrl h) (hact _ h))))

theorem kept_enterRunning {j : Nat} (h : Kept b s t) : Kept b s (enterRunning j t) := by
  rw [enterRunning]
  exact kept_armWatchdog (kept_setJobState h)

theorem kept_rebuildCopy {j from_ to_ size : Nat} (h : Kept b s t) : Kept b s (rebuildCopy j from_ to_ size t) := by
  rw [rebuildCopy]
  refine .foldl ?_ h
  intro _ _ hu
  split
  · exact kept_placeStores (.of_snd ‹_› (kept_jobRead hu))
  · exact .of_snd ‹_› (kept_jobRead hu)

theorem kept_rebuildCopies {j : Nat} {old : Desc} (h : Kept b s t) : Kept b s (rebuildCopies j old t) := by
  rw [rebuildCopies]
  exact .ite (.ite h (kept_rebuildCopy h)) (kept_rebuildCopy (.ite h (kept_rebuildCopy h)))

theorem kept_restoreHeart {j : Nat} {x : Layer} (h : Kept b s t) : Kept b s (restoreHeart j x t) := by
  rw [restoreHeart]
  refine .ite h ?_
  split
  · exact kept_placeStores (.of_snd ‹_› (kept_readMaster h))
  · exact .of_snd ‹_› (kept_readMaster h)

theorem kept_postColl {j : Nat} {desc : List Byte} (h : Kept b s t) : Kept b s (postColl j desc t) := by
  rw [postColl]
  exact kept_ringCol (kept_tryWrite h)

theorem kept_postHeart {j k : Nat} (h : Kept b s t) : Kept b s (postHeart j k t) := by
  rw [postHeart]
  exact .ite (kept_jobRead h) (kept_postColl (.ite (kept_restoreHeart (kept_jobRead h)) (kept_jobRead h)))

theorem kept_postHearts {j n : Nat} (h : Kept b s t) : Kept b s (postHearts j n t) := by
  induction n generalizing j t with
  | zero => exact h
  | succ n ih =>
    rw [postHearts]
    split
    · exact h
    · exact .ite (kept_setJob h) (.ite h (ih (kept_postHeart (kept_setJob h))))

theorem kept_postAllHearts {j : Nat} (h : Kept b s t) : Kept b s (postAllHearts j t) := by
  rw [postAllHearts]
  exact kept_postHearts h

theorem kept_firstRun {j from_ : Nat} (h : Kept b s t) : Kept b s (firstRun j from_ t) := by
  rw [firstRun]
  exact .ite (kept_enterRunning (kept_setNum h)) (kept_postAllHearts (kept_enterRunning (kept_setJob h)))

theorem kept_restartRuns {j : Nat} (h : Kept b s t) : Kept b s (restartRuns j t) := by
  rw [restartRuns]
  exact .ite (.ite (kept_rebuildMirror (kept_enterRunning (kept_post (kept_count (kept_setNum (kept_setJob (.ite (kept_openJob h) h)))))))
    (kept_postAllHearts (kept_setJob (kept_rebuildMirror (kept_enterRunning (kept_post (kept_count (kept_setNum (kept_setJob (.ite
      (kept_openJob h) h)))))))))) (.ite (kept_openJob h) h)

theorem kept_rereadJob {j : Nat} (h : Kept b s t) : Kept b s (rereadJob j t) := by
  rw [rereadJob]
  split
  · exact kept_jobFault (.of_snd ‹_› (kept_readDesc h))
  · have hu := Kept.of_snd ‹_› (kept_readDesc h)
    dsimp only
    split
    · exact kept_jobFault (.of_snd ‹_› (kept_readTopo (kept_setJob hu)))
    · exact kept_rebuildCopies (kept_setJob (.of_snd ‹_› (kept_readTopo (kept_setJob hu))))

theorem kept_takeStart {j : Nat} {l : List Byte} (h : Kept b s t) : Kept b s (takeStart j l t) := by
  rw [takeStart]
  exact .ite (kept_firstRun h) (.ite (kept_restartRuns h) h)

theorem kept_substDie {j : Nat} (h : Kept b s t) : Kept b s (substDie j t) := by
  rw [substDie]
  split
  · exact kept_post (kept_setNum h)
  · exact h

theorem kept_acceptPlan {j : Nat} {m : PlanMessage} (h : Kept b s t) : Kept b s (acceptPlan j m t) := by
  rw [acceptPlan]
  exact kept_newEpoch (kept_setJob (kept_freeChains (kept_releaseSlots (kept_setNum (kept_setJobState (kept_substDie (.ite
    (kept_jobFaultWith h) h)))))))

theorem kept_stepFour {j : Nat} (h : Kept b s t) : Kept b s (stepFour j t) := by
  rw [stepFour]
  exact .ite h (.ite (kept_setJob h) (.ite (kept_jobFault (kept_setJob h)) (.ite (kept_beginRepair (kept_rereadJob (kept_setJob h)))
    (kept_rereadJob (kept_setJob h)))))

theorem kept_takePlan {j : Nat} {m : PlanMessage} (h : Kept b s t) : Kept b s (takePlan j m t) := by
  rw [takePlan]
  refine .ite h ?_
  refine .ite (kept_badSig h) ?_
  refine .ite (kept_dropCtrl h) ?_
  split
  · exact kept_post (kept_count h)
  · exact .ite (kept_acceptPlan h) h

theorem kept_execWatchdogExpiry {job : Nat} (h : Kept false s t) : Works s (execWatchdogExpiry job t) :=
  ⟨_, _, rfl, .ite (kept_watchdogOut h) h⟩

theorem kept_execStart {job : Nat} {payload : List Byte} (h : Kept false s t) : Works s (execStart job payload t) :=
  ⟨_, _, rfl, kept_signedMsg (fun _ hu => kept_takeStart hu) h⟩

theorem kept_execEpochPlan {job : Nat} {plan : PlanMessage} (h : Kept false s t) : Works s (execEpochPlan job plan t) :=
  ⟨_, _, rfl, kept_takePlan h⟩

end Sys2Proof.Machine
end

section
/-! PROOFS. What the functions of Machine/Coordinator.lean keep. -/

namespace Sys2Proof.Machine
variable {b : Bool} {s t : State}

theorem kept_setCoord {j : Nat} {c : Coord} (h : Kept b s t) : Kept b s (setCoord j c t) := by
  rw [setCoord]
  exact kept_setJob h

theorem kept_signed {j : Nat} {body : List Byte} (h : Kept b s t) : Kept b s (signed j body t).2 := by
  rw [signed]
  exact kept_draw h

theorem kept_sendSigned {j code len : Nat} {rest : List Byte} {to_ : List Nat} (h : Kept b s t) :
    Kept b s (sendSigned j code len rest to_ t) := by
  rw [sendSigned]
  exact .foldl (fun _ _ hu => kept_sendCtrl hu) (kept_signed h)

theorem kept_taskMsg {mine : Bool} {j code : Nat} {l : List Byte} {act : State → State} (hact : ∀ u, Kept b s u → Kept b s (act u)) (h :
    Kept b s t) :
    Kept b s (taskMsg mine j code l act t) := by
  rw [taskMsg]
  exact .ite (.ite (hact _ h) (kept_dropCtrl h)) h

theorem kept_coordMsg {j code : Nat} {l : List Byte} {act : State → State} (hact : ∀ u, Kept b s u → Kept b s (act u)) (h : Kept b s t) :
    Kept b s (coordMsg j code l act t) := by
  rw [coordMsg]
  exact kept_taskMsg (fun _ hu => hact _ hu) h

theorem kept_sendFell {j dev new reason : Nat} (h : Kept b s t) : Kept b s (sendFell j dev new reason t) := by
  rw [sendFell]
  exact kept_count (kept_sendFrame (kept_signed h))

theorem kept_resumeTraining {k : Nat} (h : Kept b s t) : Kept b s (resumeTraining k t) := by
  rw [resumeTraining]
  exact .ite h (.ite (kept_repairJournal (kept_setJob (kept_startJobAt h))) (kept_startJobAt h))

theorem kept_abandonSwitch {j : Nat} (h : Kept b s t) : Kept b s (abandonSwitch j t) := by
  rw [abandonSwitch]
  exact .ite (kept_setJob h) h

theorem kept_endJob {j code detail : Nat} (h : Kept b s t) : Kept b s (endJob j code detail t) := by
  rw [endJob]
  exact kept_abandonSwitch (kept_post (kept_setJobStatus (.foldl (fun _ _ hu => kept_sendFell hu) (kept_setCoord h))))

theorem kept_judgeDie {j dev : Nat} (h : Kept b s t) : Kept b s (judgeDie j dev t) := by
  rw [judgeDie]
  exact .ite (kept_setCoord (kept_draw h)) (kept_draw h)

theorem kept_chooseSpares {used l : List Nat} (h : Kept b s t) : Kept b s (chooseSpares used l t).2 := by
  induction l generalizing used t with
  | nil => exact h
  | cons x l ih =>
    rw [chooseSpares]
    exact ih (kept_draw h)

theorem kept_issuePlan {j : Nat} (h : Kept b s t) : Kept b s (issuePlan j t) := by
  rw [issuePlan]
  exact .ite (kept_endJob h) (kept_setCoord (kept_setNum (.foldl (fun _ _ hu => kept_sendCtrl hu) (kept_signed (kept_chooseSpares h)))))

theorem kept_actOnReports {now : Bool} {j : Nat} (h : Kept b s t) : Kept b s (actOnReports now j t) := by
  rw [actOnReports]
  refine .ite h ?_
  split
  · exact kept_endJob h
  · exact .ite h (kept_issuePlan h)

theorem kept_takeReport {j : Nat} {l : List Byte} (h : Kept b s t) : Kept b s (takeReport j l t) := by
  rw [takeReport]
  exact .ite h (.ite (kept_actOnReports (.ite (kept_judgeDie (kept_setCoord h)) (kept_setCoord h))) (.ite (kept_judgeDie (kept_setCoord h))
    (kept_setCoord h)))

theorem kept_deadOut {j dev : Nat} (h : Kept b s t) : Kept b s (deadOut j dev t) := by
  rw [deadOut]
  exact .ite h (.ite (kept_actOnReports (kept_setCoord h)) (.ite (kept_actOnReports (kept_setCoord h)) h))

theorem kept_restartOut {j : Nat} (h : Kept b s t) : Kept b s (restartOut j t) := by
  rw [restartOut]
  exact .ite (kept_issuePlan (kept_setCoord h)) h

theorem kept_takeReady {j : Nat} {l : List Byte} (h : Kept b s t) : Kept b s (takeReady j l t) := by
  rw [takeReady]
  exact .ite (.ite (kept_sendSigned (kept_setCoord h)) (kept_setCoord h)) h

theorem kept_takeHeartbeat {j : Nat} {l : List Byte} (h : Kept b s t) : Kept b s (takeHeartbeat j l t) := by
  rw [takeHeartbeat]
  exact kept_setJob h

theorem kept_sendBeat {j : Nat} (h : Kept b s t) : Kept b s (sendBeat j t) := by
  rw [sendBeat]
  exact .ite (.ite (kept_actOnReports (.ite h (kept_sendCtrl h))) (kept_sendBoth h)) h

theorem kept_postNonfinite {j step round n first : Nat} (h : Kept b s t) : Kept b s (postNonfinite j step round n first t) := by
  rw [postNonfinite]
  exact kept_post h

theorem kept_postLists {j n : Nat} (h : Kept b s t) : Kept b s (postLists j n t) := by
  induction n generalizing j t with
  | zero => exact h
  | succ n ih =>
    rw [postLists]
    split
    · exact h
    · exact .ite (ih (kept_postColl (kept_setCoord h))) h

theorem kept_sendList {j addr : Nat} {l : List Byte} (h : Kept b s t) : Kept b s (sendList j addr l t) := by
  rw [sendList]
  exact kept_postLists (kept_setCoord (kept_mustPut h))

theorem kept_issueList {j step addr : Nat} (h : Kept b s t) : Kept b s (issueList j step addr t) := by
  rw [issueList]
  exact .ite (kept_jobFault (.ite h (kept_postNonfinite (kept_setCoord h)))) (.ite (kept_sendList (.ite (kept_setCoord (kept_signed (.ite h
    (kept_postNonfinite (kept_setCoord h))))) (kept_count (kept_setCoord (kept_signed (.ite h (kept_postNonfinite (kept_setCoord h))))))))
      (kept_post (kept_count (kept_sendList (.ite (kept_setCoord (kept_signed (.ite h (kept_postNonfinite (kept_setCoord h))))) (kept_count
        (kept_setCoord (kept_signed (.ite h (kept_postNonfinite (kept_setCoord h)))))))))))

theorem kept_stemOne {j step dev addr : Nat} {finite : Bool} (h : Kept b s t) : Kept b s (stemOne j step dev addr finite t) := by
  rw [stemOne]
  exact .ite (kept_count h) (.ite h (.ite (kept_issueList (kept_setCoord h)) (kept_setCoord h)))

theorem kept_takeStem {j : Nat} {l : List Byte} {addr : Nat} (h : Kept b s t) : Kept b s (takeStem j l addr t) := by
  rw [takeStem]
  exact .ite (kept_stemOne h) (.ite (.ite (kept_jobFault (kept_postNonfinite h)) (kept_postNonfinite h)) h)

theorem kept_updateMsg {j code : Nat} {l : List Byte} {act : State → State} (hact : ∀ u, Kept b s u → Kept b s (act u)) (h : Kept b s t) :
    Kept b s (updateMsg j code l act t) := by
  rw [updateMsg]
  exact .ite (.ite (hact _ h) (kept_dropCtrl h)) h

theorem kept_releaseStragglers {j step addr : Nat} (h : Kept b s t) : Kept b s (releaseStragglers j step addr t) := by
  rw [releaseStragglers]
  exact .ite (kept_issueList h) h

theorem kept_rejectList {j step off : Nat} (h : Kept b s t) : Kept b s (rejectList j step off t) := by
  rw [rejectList]
  exact kept_jobFault (kept_post h)

theorem kept_skipLayer {j step k : Nat} (h : Kept b s t) : Kept b s (skipLayer j step t k) := by
  rw [skipLayer]
  split
  · have hu := Kept.of_snd ‹_› (kept_jobRead h)
    exact .ite (kept_placeStores hu) hu
  · exact .of_snd ‹_› (kept_jobRead h)

theorem kept_skipStep {j step : Nat} (h : Kept b s t) : Kept b s (skipStep j step t) := by
  rw [skipStep]
  refine .foldl (fun _ _ hu => kept_skipLayer hu) ?_
  split
  · exact kept_writeGen (.of_snd ‹_› (kept_jobPlaces h))
  · exact .of_snd ‹_› (kept_jobPlaces h)

theorem kept_takeList {j : Nat} {l : List Byte} {step : Nat} (h : Kept b s t) : Kept b s (takeList j l step t) := by
  rw [takeList]
  refine .ite h ?_
  split
  · exact kept_rejectList h
  · exact .ite (kept_skipStep h) (.ite h (kept_post (kept_count h)))

theorem kept_takeNorm {j : Nat} {l : List Byte} (h : Kept b s t) : Kept b s (takeNorm j l t) := by
  rw [takeNorm]
  exact .ite h (.ite (kept_setCoord h) (.foldl (fun _ _ hu => kept_sendCtrl hu) (kept_setCoord (kept_signed h))))

theorem kept_takeClip {j : Nat} {l : List Byte} {step clipAddr : Nat} (h : Kept b s t) : Kept b s (takeClip j l step clipAddr t) := by
  rw [takeClip]
  exact .ite h (.ite (kept_rejectList h) (.ite (kept_rejectList h) (.ite (kept_rejectList h) (kept_tryWrite (kept_tryWrite h)))))

theorem kept_chooseJseq {j : Nat} (h : Kept b s t) : Kept b s (chooseJseq j t).2 := by
  rw [chooseJseq]
  exact kept_draw h

theorem kept_tryPlan {j : Nat} (h : Kept b s t) : Kept b s (tryPlan j t) := by
  rw [tryPlan]
  refine .ite h ?_
  split
  · exact kept_jobFault (kept_setCoord (.record h))
  · exact .foldl (fun _ _ hu => kept_sendSigned hu) (kept_setCoord (.record h))

theorem kept_writePlan {j : Nat} {p : MemberPlan} (h : Kept b s t) : Kept b s (writePlan j p t) := by
  rw [writePlan]
  exact .ite (kept_mustPut h) (.foldl (fun _ _ hu => kept_sendRemote hu) h)

theorem kept_sendPrismPlan {j : Nat} {plans : List MemberPlan} (h : Kept b s t) : Kept b s (sendPrismPlan j plans t) := by
  rw [sendPrismPlan]
  exact kept_tryPlan (.foldl (fun _ _ hu => kept_writePlan hu) (kept_setCoord h))

theorem kept_completeCkpt {j step : Nat} (h : Kept b s t) : Kept b s (completeCkpt j step t) := by
  rw [completeCkpt]
  exact kept_sendSigned (kept_setNum (.ite_snd h (kept_chooseJseq h)))

theorem kept_allParts {j step : Nat} {plans : List MemberPlan} (h : Kept b s t) : Kept b s (allParts j step plans t) := by
  rw [allParts]
  split
  · exact .ite (kept_sendPrismPlan h) h
  · exact .ite (kept_sendPrismPlan (kept_completeCkpt h)) (kept_completeCkpt h)
  · exact kept_completeCkpt h

theorem kept_takePart {j : Nat} {p : PartMessage} (h : Kept b s t) : Kept b s (takePart j p t) := by
  rw [takePart]
  exact .ite h (.ite (.ite h (kept_setCoord h)) (.ite (.ite (kept_allParts (kept_setCoord h)) (kept_setCoord h)) h))

theorem kept_takeCkpt {j : Nat} {l : List Byte} (h : Kept b s t) : Kept b s (takeCkpt j l t) := by
  rw [takeCkpt]
  exact kept_putJournalShadow (kept_trimJournal (kept_post (kept_setNum (kept_setNum (kept_setJob h)))))

theorem kept_takeSnag {j : Nat} {l : List Byte} (h : Kept b s t) : Kept b s (takeSnag j l t) := by
  rw [takeSnag]
  exact .ite h (kept_sendFell h)

theorem kept_sendSwitch {j : Nat} (h : Kept b s t) : Kept b s (sendSwitch j t) := by
  rw [sendSwitch]
  exact kept_sendSigned (kept_setCoord h)

theorem kept_applyJobSwitch {j v : Nat} (h : Kept b s t) : Kept b s (applyJobSwitch j v t).2 := by
  rw [applyJobSwitch]
  exact .ite_snd (kept_sendSwitch h) h

theorem kept_partsOf {j : Nat} (h : Kept b s t) : Kept b s (partsOf j t).2 := by
  rw [partsOf]
  exact .ite_snd h (kept_draw (kept_draw (kept_draw h)))

theorem kept_manifestOf {j step : Nat} (h : Kept b s t) : Kept b s (manifestOf j step t).2 := by
  rw [manifestOf]
  exact kept_partsOf (kept_chooseJseq h)

theorem kept_sendPart {j step : Nat} (h : Kept b s t) : Kept b s (sendPart j step t) := by
  rw [sendPart]
  exact kept_sendCtrl h

theorem kept_writePart {j step : Nat} (h : Kept b s t) : Kept b s (writePart j step t) := by
  rw [writePart]
  exact kept_sendPart (kept_setJob (kept_manifestOf h))

theorem kept_mayCheckpoint {j : Nat} (h : Kept b s t) : Kept b s (mayCheckpoint j t) := by
  rw [mayCheckpoint]
  exact .ite h (.ite (kept_writePart (kept_draw h)) (kept_draw h))

theorem kept_tryPart {j : Nat} (h : Kept b s t) : Kept b s (tryPart j t) := by
  rw [tryPart]
  refine .ite h ?_
  split
  · exact .ite (kept_writePart (kept_setJob h)) h
  · exact .ite (kept_sendPart (kept_setJob h)) h
  · exact h

theorem kept_takeSwitch {j : Nat} {l : List Byte} (h : Kept b s t) : Kept b s (takeSwitch j l t) := by
  rw [takeSwitch]
  exact .ite (kept_tryPart (kept_setJobState (kept_setJob h))) h

theorem kept_takePrismPlan {j : Nat} {l : List Byte} {planAddr targetAddr : Nat} {targets : List Byte} {path : Nat} (h : Kept b s t) :
    Kept b s (takePrismPlan j l planAddr targetAddr targets path t) := by
  rw [takePrismPlan]
  refine .ite ?_ h
  split
  · have hu := Kept.of_snd ‹_› (kept_plainRead h)
    split
    · have hv := Kept.of_snd ‹_› (kept_plainRead hu)
      exact .ite (kept_ringCol (kept_tryWrite (kept_tryWrite hv))) (kept_jobFault hv)
    · exact kept_jobFault (.of_snd ‹_› (kept_plainRead hu))
  · exact kept_jobFault (.of_snd ‹_› (kept_plainRead h))

theorem kept_orphanSwitch {j : Nat} (h : Kept b s t) : Kept b s (orphanSwitch j t) := by
  rw [orphanSwitch]
  exact .ite h (.ite (kept_resumeTraining (kept_setJob h)) (kept_resumeTraining (kept_stopJob (kept_setJob h))))

theorem kept_beat {j : Nat} (h : Kept b s t) : Kept b s (beat j t) := by
  rw [beat]
  exact .ite (kept_sendSwitch (kept_orphanSwitch (kept_mayCheckpoint (kept_tryPlan (kept_tryPart (kept_postLists (kept_postAllHearts
    (kept_stepFour (kept_sendBeat h))))))))) (kept_orphanSwitch (kept_mayCheckpoint (kept_tryPlan (kept_tryPart (kept_postLists
      (kept_postAllHearts (kept_stepFour (kept_sendBeat h))))))))

theorem kept_sendNow {j : Nat} {f : Frame} (h : Kept b s t) : Kept b s (sendNow j f t) := by
  rw [sendNow]
  split
  · exact kept_enqueue (.of_snd ‹_› (kept_routeOf h))
  · exact kept_sinkCtrl (.of_snd ‹_› (kept_routeOf h))
  · exact .of_snd ‹_› (kept_routeOf h)

theorem kept_startPartner {k base count : Nat} (h : Kept b s t) : Kept b s (startPartner k base count t) := by
  rw [startPartner]
  exact .ite h (kept_applyJobCtrl (kept_setNum (kept_setNum h)))

theorem kept_endSwitch {j : Nat} {prism : Coll} (h : Kept b s t) : Kept b s (endSwitch j prism t) := by
  rw [endSwitch]
  split
  · exact h
  · exact kept_startPartner (kept_post (kept_setJob (kept_mirrorOff (kept_setJobState (kept_stopWork (kept_sendNow h))))))

theorem kept_completeAndSwitch {j p : Nat} (h : Kept b s t) : Kept b s (completeAndSwitch j p t) := by
  rw [completeAndSwitch]
  split
  · exact .ite (kept_endSwitch (kept_completeColl h)) (kept_completeColl h)
  · exact kept_completeColl h

theorem kept_execFaultReport {job : Nat} {payload : List Byte} (h : Kept false s t) : Works s (execFaultReport job payload t) :=
  ⟨_, _, rfl, kept_taskMsg (fun _ hu => kept_takeReport hu) h⟩

theorem kept_execDeadTimeout {job device : Nat} (h : Kept false s t) : Works s (execDeadTimeout job device t) :=
  ⟨_, _, rfl, .ite (kept_deadOut h) h⟩

theorem kept_execRestartTimeout {job : Nat} (h : Kept false s t) : Works s (execRestartTimeout job t) :=
  ⟨_, _, rfl, .ite (kept_restartOut h) h⟩

theorem kept_execReady {job : Nat} {payload : List Byte} (h : Kept false s t) : Works s (execReady job payload t) :=
  ⟨_, _, rfl, kept_coordMsg (fun _ hu => kept_takeReady hu) h⟩

theorem kept_execHeartbeat {job : Nat} {payload : List Byte} (h : Kept false s t) : Works s (execHeartbeat job payload t) :=
  ⟨_, _, rfl, kept_taskMsg (fun _ hu => kept_takeHeartbeat hu) h⟩

theorem kept_execStemRecord {job : Nat} {turn : StemTurn} (h : Kept false s t) : Works s (execStemRecord job turn t) :=
  ⟨_, _, rfl, kept_updateMsg (fun _ hu => kept_takeStem hu) h⟩

theorem kept_execStragglerRelease {job : Nat} {turn : ReleaseTurn} (h : Kept false s t) : Works s (execStragglerRelease job turn t) :=
  ⟨_, _, rfl, .ite (kept_releaseStragglers h) h⟩

theorem kept_execMemberList {job : Nat} {list : List Byte} {step : Nat} (h : Kept false s t) : Works s (execMemberList job list step t) :=
  ⟨_, _, rfl, kept_takeList h⟩

theorem kept_execNormReport {job : Nat} {payload : List Byte} (h : Kept false s t) : Works s (execNormReport job payload t) :=
  ⟨_, _, rfl, kept_updateMsg (fun _ hu => kept_takeNorm hu) h⟩

theorem kept_execClipRecord {job : Nat} {payload : List Byte} {step clipAddr : Nat} (h : Kept false s t) :
    Works s (execClipRecord job payload step clipAddr t) :=
  ⟨_, _, rfl, kept_takeClip h⟩

theorem kept_execPartDone {job : Nat} {part : PartMessage} (h : Kept false s t) : Works s (execPartDone job part t) :=
  ⟨_, _, rfl, kept_coordMsg (fun _ hu => kept_takePart hu) h⟩

theorem kept_execCkptDone {job : Nat} {payload : List Byte} (h : Kept false s t) : Works s (execCkptDone job payload t) :=
  ⟨_, _, rfl, kept_signedMsg (fun _ hu => kept_takeCkpt hu) h⟩

theorem kept_execSnagReport {job : Nat} {payload : List Byte} (h : Kept false s t) : Works s (execSnagReport job payload t) :=
  ⟨_, _, rfl, kept_coordMsg (fun _ hu => kept_takeSnag hu) h⟩

theorem kept_execSwitch {job : Nat} {payload : List Byte} (h : Kept false s t) : Works s (execSwitch job payload t) :=
  ⟨_, _, rfl, kept_signedMsg (fun _ hu => kept_takeSwitch hu) h⟩

theorem kept_execPrismPlan {job : Nat} {payload : List Byte} {planAddr targetAddr : Nat} {targets : List Byte} {path : Nat} (h : Kept false
    s t) :
    Works s (execPrismPlan job payload planAddr targetAddr targets path t) :=
  ⟨_, _, rfl, kept_signedMsg (fun _ hu => kept_takePrismPlan hu) h⟩

theorem kept_execHeartbeatTimer {job : Nat} (h : Kept false s t) : Works s (execHeartbeatTimer job t) :=
  ⟨_, _, rfl, .ite (kept_beat h) h⟩

theorem kept_execCollectiveComplete {job path : Nat} (h : Kept false s t) : Works s (execCollectiveComplete job path t) :=
  ⟨_, _, rfl, kept_completeAndSwitch h⟩

end Sys2Proof.Machine
end

section
/-! PROOFS. What the functions of Machine/HostLink.lean keep. -/

namespace Sys2Proof.Machine
variable {b : Bool} {s t : State}

theorem kept_detachOp {e : Nat × Nat} (h : Kept b s t) : Kept b s (detachOp t e) := by
  rw [detachOp]
  split
  · exact .ite h (kept_failOp h)
  · exact h

theorem kept_stopDelivery {j : Nat} (h : Kept b s t) : Kept b s (stopDelivery j t) := by
  rw [stopDelivery]
  exact kept_setJob h

theorem kept_detachWork {k cause : Nat} (h : Kept b s t) : Kept b s (detachWork k cause t) := by
  rw [detachWork]
  exact kept_post (.foldl (fun _ _ hu => .ite (kept_stopDelivery hu) hu) (.foldl (fun _ _ hu => .ite (kept_stopQueueOr hu) hu) (.foldl (fun
    _ _ hu => kept_detachOp hu) (kept_issueRemotes (.record (kept_setHlink (kept_count (kept_setNum h))))))))

theorem kept_detachLink {k cause state : Nat} (h : Kept b s t) : Kept b s (detachLink k cause state t) := by
  rw [detachLink]
  exact .ite (kept_detachWork (kept_setNum h)) (kept_setNum h)

theorem kept_doDetach {k : Nat} (h : Kept b s t) : Kept b s (doDetach k t) := by
  rw [doDetach]
  exact .ite (kept_detachLink h) h

theorem kept_resetFunction {k : Nat} (h : Kept b s t) : Kept b s (resetFunction k t) := by
  rw [resetFunction]
  exact kept_setHlink (.record h)

theorem kept_linkUp {k speed width : Nat} (h : Kept b s t) : Kept b s (linkUp k speed width t) := by
  rw [linkUp]
  exact .ite (kept_post (kept_setNum (kept_setNum (kept_setNum h)))) h

theorem kept_linkDown {k : Nat} (h : Kept b s t) : Kept b s (linkDown k t) := by
  rw [linkDown]
  exact .ite h (kept_resetFunction (kept_setNum (kept_setNum (kept_detachLink h))))

theorem kept_resetLink {k : Nat} (h : Kept b s t) : Kept b s (resetLink k t) := by
  rw [resetLink]
  exact .ite (kept_resetFunction h) (kept_resetFunction (kept_detachLink h))

theorem kept_masterOff {k : Nat} (h : Kept b s t) : Kept b s (masterOff k t) := by
  rw [masterOff]
  exact .ite (kept_detachLink (kept_setHlink h)) (kept_setHlink h)

theorem kept_inboundErr {k : Nat} (h : Kept b s t) : Kept b s (inboundErr k t) := by
  rw [inboundErr]
  exact kept_count h

theorem kept_attachJob {k j : Nat} (h : Kept b s t) : Kept b s (attachJob k j t) := by
  rw [attachJob]
  exact .ite (kept_setJob (kept_tryWrite h)) h

theorem kept_doAttach {k value : Nat} (h : Kept b s t) : Kept b s (doAttach k value t) := by
  rw [doAttach]
  exact .ite h (.ite (kept_inboundErr h) (kept_flushMsix (kept_deliverAll (kept_post (kept_setNum (kept_setNum (kept_setHlink (.foldl (fun
    _ _ hu => kept_attachJob hu) h))))))))

theorem kept_holeErr {k off : Nat} (h : Kept b s t) : Kept b s (holeErr k off t) := by
  rw [holeErr]
  exact .ite (kept_inboundErr h) (kept_post (kept_setHlink (kept_inboundErr h)))

theorem kept_readBack {k : Nat} (h : Kept b s t) : Kept b s (readBack k t) := by
  rw [readBack]
  exact kept_setHlink h

theorem kept_ifBoth {k line : Nat} (h : Kept b s t) : Kept b s (ifBoth k line t) := by
  rw [ifBoth]
  exact .ite (kept_scrambleAll h) h

theorem kept_noteTheirs {k line : Nat} (h : Kept b s t) : Kept b s (noteTheirs k line t) := by
  rw [noteTheirs]
  exact kept_setHlink h

theorem kept_directLines {i k line : Nat} (h : Kept b s t) : Kept b s (directLines i k line t).2 := by
  induction k generalizing i line t with
  | zero => exact h
  | succ k ih =>
    rw [directLines]
    exact ih (kept_memReadLine (kept_ifBoth h))

theorem kept_directRead {i a n : Nat} (h : Kept b s t) : Kept b s (directRead i a n t).2 := by
  rw [directRead]
  exact kept_directLines h

theorem kept_directWrite {i k a : Nat} {l : List Byte} (h : Kept b s t) : Kept b s (directWrite i k a l t) := by
  induction k generalizing i a l t with
  | zero => exact h
  | succ k ih =>
    rw [directWrite]
    exact .ite h (ih (kept_noteTheirs (kept_ifBoth (kept_memWriteLine (kept_clearResv h)))))

theorem kept_answerHost {k status : Nat} {l : List Byte} (h : Kept b s t) : Kept b s (answerHost k status l t) := by
  rw [answerHost]
  exact kept_emit h

theorem kept_readBar {k off n : Nat} (h : Kept b s t) : Kept b s (readBar k off n t) := by
  rw [readBar]
  exact .ite h (.ite (kept_answerHost h) (.ite (kept_answerHost (kept_inboundErr h)) (.ite (kept_answerHost (kept_holeErr h))
    (kept_answerHost (kept_readBack (.ite_snd (kept_directRead h) (kept_readMem h)))))))

theorem kept_noteAer {k : Nat} (h : Kept b s t) : Kept b s (noteAer k t) := by
  rw [noteAer]
  exact kept_setHlink h

theorem kept_writeBar {k off : Nat} {l : List Byte} {poisoned : Bool} (h : Kept b s t) : Kept b s (writeBar k off l poisoned t) := by
  rw [writeBar]
  exact .ite h (.ite (kept_noteAer (kept_inboundErr h)) (.ite (kept_inboundErr h) (.ite (kept_holeErr h) (.ite (kept_directWrite h)
    (kept_writeMem h)))))

theorem kept_directAtomic {i : Nat} {op : AtomicOp} {a w x : Nat} (h : Kept b s t) : Kept b s (directAtomic i op a w x t).2 := by
  rw [directAtomic]
  exact .ite_snd (kept_memReadLine (kept_noteTheirs (kept_ifBoth h))) (kept_memWriteLine (kept_clearResv (kept_memReadLine (kept_noteTheirs
    (kept_ifBoth h)))))

theorem kept_atomicBar {k off w : Nat} {op : AtomicOp} {x : Nat} (h : Kept b s t) : Kept b s (atomicBar k off w op x t) := by
  rw [atomicBar]
  exact .ite h (.ite (kept_answerHost h) (.ite (kept_answerHost (kept_inboundErr h)) (.ite (kept_answerHost (kept_holeErr h)) (.ite
    (kept_answerHost h) (kept_answerHost (.ite_snd (kept_directAtomic h) (kept_atomicAt h)))))))

theorem kept_flushLine {line : Nat} (h : Kept b s t) : Kept b s (flushLine t line) := by
  rw [flushLine]
  exact kept_setDir (kept_notifyWatchers (kept_killCopies (kept_calmLine h)))

theorem kept_forgetOurs {k a : Nat} (h : Kept b s t) : Kept b s (forgetOurs k a t) := by
  rw [forgetOurs]
  exact kept_setHlink h

theorem kept_biasCmd {k word : Nat} (h : Kept b s t) : Kept b s (biasCmd k word t) := by
  rw [biasCmd]
  exact .ite (kept_inboundErr h) (.ite (kept_setNum (kept_forgetOurs (.foldl (fun _ _ hu => kept_flushLine hu) h))) (kept_setNum
    (kept_setHlink h)))

theorem kept_biasRow {k op word : Nat} (h : Kept b s t) : Kept b s (biasRow k op word t) := by
  rw [biasRow]
  exact .ite h (.ite (kept_biasCmd h) (kept_inboundErr h))

theorem kept_ctrlField {j off n : Nat} (h : Kept b s t) : Kept b s (ctrlField j off n t).2 := by
  rw [ctrlField]
  refine .ite_snd h ?_
  split <;> exact .of_snd ‹_› (kept_plainRead h)

theorem kept_putLogLast {j : Nat} (h : Kept b s t) : Kept b s (putLogLast j t) := by
  rw [putLogLast]
  exact .ite h (.ite (kept_tryWrite (kept_ctrlField h)) (kept_ctrlField h))

theorem kept_closeRequest {j seq : Nat} (h : Kept b s t) : Kept b s (closeRequest j seq t) := by
  rw [closeRequest]
  split
  · exact .ite (kept_releaseSlot (kept_setJob h)) (kept_setJob h)
  · exact kept_setJob h

theorem kept_writeLog {j seq : Nat} {l : List Byte} (h : Kept b s t) : Kept b s (writeLog j seq l t) := by
  rw [writeLog]
  exact .ite (kept_closeRequest (kept_setJob (kept_tryWrite (.ite h (kept_tryWrite h))))) (kept_tryWrite (.ite h (kept_tryWrite h)))

theorem kept_flushResults {j n : Nat} (h : Kept b s t) : Kept b s (flushResults j n t) := by
  induction n generalizing j t with
  | zero => exact h
  | succ n ih =>
    rw [flushResults]
    split
    · exact h
    · exact .ite (.ite (ih (kept_writeLog h)) (kept_writeLog h)) h

theorem kept_stopForLog {j : Nat} (h : Kept b s t) : Kept b s (stopForLog j t) := by
  rw [stopForLog]
  exact .ite h (kept_post (kept_setJob (kept_ctrlField h)))

theorem kept_noteRoom {j : Nat} (h : Kept b s t) : Kept b s (noteRoom j t) := by
  rw [noteRoom]
  exact .ite (kept_setJob h) (kept_stopForLog h)

theorem kept_settleLog {j : Nat} (h : Kept b s t) : Kept b s (settleLog j t) := by
  rw [settleLog]
  exact kept_noteRoom (kept_putLogLast (kept_flushResults h))

theorem kept_takeResult {j seq : Nat} {payload : List Byte} (h : Kept b s t) : Kept b s (takeResult j seq payload t) := by
  rw [takeResult]
  split
  · exact h
  · exact .ite (kept_putLogLast (kept_closeRequest h)) (.ite h (kept_settleLog (kept_setJob h)))

theorem kept_acknowledge {j v : Nat} (h : Kept b s t) : Kept b s (acknowledge j v t) := by
  rw [acknowledge]
  exact .ite h (.ite (kept_post (kept_count (kept_ctrlField h))) (.ite (kept_settleLog (kept_setJob (kept_setNum (kept_tryWrite
    (kept_ctrlField h))))) (kept_putJournalShadow (kept_trimJournal (kept_settleLog (kept_setJob (kept_setNum (kept_tryWrite
      (kept_ctrlField h)))))))))

theorem kept_streamStore {h' addr : Nat} {data : List Byte} (h : Kept b s t) : Kept b s (streamStore h' addr data t) := by
  rw [streamStore]
  refine .ite h ?_
  refine .ite (kept_trapHart h) ?_
  split
  · exact kept_postEach h
  · exact .ite (kept_cohWriteLine h) (kept_trapHart h)

theorem kept_readFailed {n isn status h' : Nat} (h : Kept b s t) : Kept b s (readFailed n isn status h' t) := by
  rw [readFailed]
  split
  · exact .ite h (kept_failOp h)
  · exact h

theorem kept_endRead {r : HRead} {status : Nat} (h : Kept b s t) : Kept b s (endRead r status t) := by
  rw [endRead]
  split
  · exact kept_readFailed h
  · exact kept_readFailed h
  · exact kept_queueFail h
  · exact kept_stopDelivery h

theorem kept_hostDeliver {h' : Nat} {l : List Byte} (h : Kept b s t) : Kept b s (hostDeliver h' l t) := by
  rw [hostDeliver]
  exact .record h

theorem kept_flushedRecord {j : Nat} (h : Kept b s t) : Kept b s (flushedRecord j t) := by
  rw [flushedRecord]
  split
  · exact h
  · exact kept_setJob (kept_postEach h)

theorem kept_leaveRead {r : HRead} {arrived : Bool} (h : Kept b s t) : Kept b s (leaveRead r arrived t) := by
  rw [leaveRead]
  exact kept_issueRemotes (.record (kept_setHlink h))

theorem kept_completeRead {id : Nat} {o : CplOutcome} (h : Kept b s t) : Kept b s (completeRead id o t) := by
  rw [completeRead]
  split
  · exact h
  · split
    · split
      · exact kept_flushedRecord (kept_leaveRead h)
      · exact kept_leaveRead h
      · exact kept_hostDeliver (kept_leaveRead h)
      · exact kept_hostDeliver (kept_leaveRead h)
    · exact kept_endRead (kept_leaveRead h)
    · exact kept_endRead (kept_leaveRead h)

theorem kept_timeoutRead {id : Nat} (h : Kept b s t) : Kept b s (timeoutRead id t) := by
  rw [timeoutRead]
  split
  · exact h
  · exact kept_endRead (kept_post (kept_count (kept_leaveRead h)))

theorem kept_execDetach {link : Nat} (h : Kept false s t) : Works s (execDetach link t) :=
  ⟨_, _, rfl, kept_doDetach h⟩

theorem kept_execPcieLinkUp {link speed width : Nat} (h : Kept false s t) : Works s (execPcieLinkUp link speed width t) :=
  ⟨_, _, rfl, kept_linkUp h⟩

theorem kept_execPcieLinkDown {link : Nat} (h : Kept false s t) : Works s (execPcieLinkDown link t) :=
  ⟨_, _, rfl, kept_linkDown h⟩

theorem kept_execPcieReset {link : Nat} {kind : PcieResetKind} (h : Kept false s t) : Works s (execPcieReset link kind t) :=
  ⟨_, _, rfl, kept_resetLink h⟩

theorem kept_execBusMasterDisable {link : Nat} (h : Kept false s t) : Works s (execBusMasterDisable link t) :=
  ⟨_, _, rfl, kept_masterOff h⟩

theorem kept_execAttach {link value : Nat} (h : Kept false s t) : Works s (execAttach link value t) :=
  ⟨_, _, rfl, kept_doAttach h⟩

theorem kept_execInboundWrite {link offset : Nat} {data : List Byte} {poisoned : Bool} (h : Kept false s t) :
    Works s (execInboundWrite link offset data poisoned t) :=
  ⟨_, _, rfl, kept_writeBar h⟩

theorem kept_execInboundAtomicop {link offset width : Nat} {op : AtomicOp} {operand : Nat} (h : Kept false s t) :
    Works s (execInboundAtomicop link offset width op operand t) :=
  ⟨_, _, rfl, kept_atomicBar h⟩

theorem kept_execSetShared {link word : Nat} (h : Kept false s t) : Works s (execSetShared link word t) :=
  ⟨_, _, rfl, kept_biasRow h⟩

theorem kept_execSetDevice {link word : Nat} (h : Kept false s t) : Works s (execSetDevice link word t) :=
  ⟨_, _, rfl, kept_biasRow h⟩

theorem kept_execFlush {link word : Nat} (h : Kept false s t) : Works s (execFlush link word t) :=
  ⟨_, _, rfl, kept_biasRow h⟩

theorem kept_execAck {job value : Nat} (h : Kept false s t) : Works s (execAck job value t) :=
  ⟨_, _, rfl, kept_acknowledge h⟩

theorem kept_execStreamingStore {hart addr : Nat} {data : List Byte} (h : Kept false s t) : Works s (execStreamingStore hart addr data t) :=
  ⟨_, _, rfl, kept_streamStore h⟩

theorem kept_execOutboundReadCompletion {id : Nat} {outcome : CplOutcome} (h : Kept false s t) :
    Works s (execOutboundReadCompletion id outcome t) :=
  ⟨_, _, rfl, kept_completeRead h⟩

theorem kept_execHostCplTimeout {id : Nat} (h : Kept false s t) : Works s (execHostCplTimeout id t) :=
  ⟨_, _, rfl, .ite (kept_timeoutRead h) h⟩

end Sys2Proof.Machine
end

section
/-! PROOFS. What the functions of Machine/Front.lean keep. -/

namespace Sys2Proof.Machine
variable {b : Bool} {s t : State}

theorem kept_poolAddrs {j : Nat} {l : List Nat} (h : Kept b s t) : Kept b s (poolAddrs j l t).2 := by
  induction l generalizing j t with
  | nil => exact h
  | cons x l ih =>
    rw [poolAddrs]
    split
    · exact ih (.of_snd ‹_› (kept_plainRead h))
    · exact .of_snd ‹_› (kept_plainRead h)

theorem kept_reserve {j : Nat} {n : KvNeed} (h : Kept b s t) : Kept b s (reserve j n t).2 := by
  rw [reserve]
  refine .ite_snd h ?_
  split
  · split
    · have hu := Kept.of_snd ‹_› (kept_poolAddrs h)
      exact .ite_snd hu hu
    · exact .of_snd ‹_› (kept_poolAddrs h)
  · exact h

theorem kept_seat {j seq source : Nat} {n : KvNeed} {e : Seat} (h : Kept b s t) : Kept b s (seat j seq source n e t) := by
  rw [seat]
  exact kept_writeMem (kept_writeMem (kept_applySlotBind (kept_setJob h)))

theorem kept_journalRequest {j kind source : Nat} {payload : List Byte} {slot : Option (KvNeed × Seat)} (h : Kept b s t) :
    Kept b s (journalRequest j kind source payload slot t) := by
  unfold journalRequest
  refine .ite (kept_jobFault h) ?_
  split
  · dsimp only
    split
    · exact kept_accessFault (.of_snd ‹_› (kept_appendRecord (kept_seat h)))
    · exact kept_settleLast (.of_snd ‹_› (kept_appendRecord (kept_seat h)))
  · dsimp only
    split
    · exact kept_accessFault (.of_snd ‹_› (kept_appendRecord h))
    · exact kept_settleLast (.of_snd ‹_› (kept_appendRecord h))

theorem kept_stopForJournal {j : Nat} (h : Kept b s t) : Kept b s (stopForJournal j t) := by
  rw [stopForJournal]
  exact .ite h (kept_post (kept_count (kept_setJob h)))

theorem kept_offerRequest {j : Nat} {payload : List Byte} {source : Nat} {need : KvNeed} (h : Kept b s t) :
    Kept b s (offerRequest j payload source need t) := by
  rw [offerRequest]
  refine .ite h ?_
  refine .ite (.ite (kept_noteRoom h) h) ?_
  refine .ite (kept_stopForJournal (.ite (kept_noteRoom h) h)) ?_
  refine .ite ?_ (kept_journalRequest (kept_setJob (.ite (kept_noteRoom h) h)))
  split
  · exact kept_journalRequest (.of_snd ‹_› (kept_reserve (kept_setJob (.ite (kept_noteRoom h) h))))
  · exact .of_snd ‹_› (kept_reserve (kept_setJob (.ite (kept_noteRoom h) h)))

theorem kept_replayNext {j : Nat} {need : KvNeed} (h : Kept b s t) : Kept b s (replayNext j need t) := by
  rw [replayNext]
  refine .ite h ?_
  split
  · exact kept_jobFault (.of_snd ‹_› (kept_sourceRec h))
  · have hu := Kept.of_snd ‹_› (kept_sourceRec h)
    refine .ite ?_ (kept_putLogLast (kept_count (kept_setJob hu)))
    split
    · exact kept_putLogLast (kept_count (kept_setJob (kept_seat (.of_snd ‹_› (kept_reserve hu)))))
    · exact .of_snd ‹_› (kept_reserve hu)

theorem kept_placeRecord {j base size seq : Nat} {l : List Byte} (h : Kept b s t) : Kept b s (placeRecord j base size seq l t) := by
  rw [placeRecord]
  exact .ite (.ite (kept_setJob (kept_askHost (kept_postEach (.ite h (kept_postEach h))))) (kept_stopDelivery (kept_postEach (.ite h
    (kept_postEach h))))) h

theorem kept_sameAttach {j k : Nat} (h : Kept b s t) : Kept b s (sameAttach j k t).2 := by
  rw [sameAttach]
  exact kept_ctrlField h

theorem kept_nextRecord {j : Nat} (h : Kept b s t) : Kept b s (nextRecord j t).2 := by
  rw [nextRecord]
  split
  · exact kept_ctrlField h
  · split <;> exact .of_snd ‹_› (kept_plainRead (kept_ctrlField h))

theorem kept_deliverHost {j k : Nat} (h : Kept b s t) : Kept b s (deliverHost j k t) := by
  rw [deliverHost]
  refine .ite h ?_
  split
  · exact kept_stopDelivery (.of_snd ‹_› (kept_sameAttach h))
  · have hu := Kept.of_snd ‹_› (kept_sameAttach h)
    split
    · exact kept_placeRecord (.of_snd ‹_› (kept_nextRecord hu))
    · exact .of_snd ‹_› (kept_nextRecord hu)

theorem kept_deliverGateway {j chan : Nat} (h : Kept b s t) : Kept b s (deliverGateway j chan t) := by
  rw [deliverGateway]
  split
  · exact .of_snd ‹_› (kept_nextRecord h)
  · have hu := Kept.of_snd ‹_› (kept_nextRecord h)
    exact kept_setJob (.ite hu (.foldl (fun _ _ hv => kept_sendData hv) hu))

theorem kept_deliverNext {j chan : Nat} (h : Kept b s t) : Kept b s (deliverNext j chan t) := by
  rw [deliverNext]
  exact .ite h (.ite (kept_deliverHost h) (.ite (kept_deliverGateway h) h))

theorem kept_execRequestAccept {job : Nat} {payload : List Byte} {source layers positions : Nat} {form : KvForm} {table : Nat} (h : Kept
    false s t) :
    Works s (execRequestAccept job payload source layers positions form table t) :=
  ⟨_, _, rfl, kept_offerRequest h⟩

theorem kept_execJournalReplay {turn : ReplayTurn} (h : Kept false s t) : Works s (execJournalReplay turn t) :=
  ⟨_, _, rfl, kept_replayNext h⟩

theorem kept_execResultDelivery {turn : ResultTurn} (h : Kept false s t) : Works s (execResultDelivery turn t) := by
  refine ⟨_, _, rfl, ?_⟩
  refine kept_deliverNext ?_
  split
  · exact kept_takeResult h
  · exact h

end Sys2Proof.Machine
end

section
/-! PROOFS. What the functions of Machine/DomainEvents.lean keep. -/

namespace Sys2Proof.Machine
variable {b : Bool} {s t : State}

theorem kept_clearQuad {n q : Nat} (h : Kept b s t) : Kept b s (clearQuad n q t) := by
  rw [clearQuad]
  exact kept_setDie h

theorem kept_forgetQueues {n : Nat} (h : Kept b s t) : Kept b s (forgetQueues n t) := by
  rw [forgetQueues]
  exact .foldl (fun _ _ hu => kept_setQueue (kept_setNum (kept_setNum hu))) h

theorem kept_setHarts {d c v : Nat} (h : Kept b s t) : Kept b s (setHarts d c v t) := by
  rw [setHarts]
  exact .foldl (fun _ _ hu => kept_setNum hu) h

theorem kept_forgetPorts {u g : Nat} (h : Kept b s t) : Kept b s (forgetPorts u g t) := by
  rw [forgetPorts]
  exact .foldl (fun _ _ hu => kept_setPort (.record hu)) h

theorem kept_forgetStaging {u : Nat} (h : Kept b s t) : Kept b s (forgetStaging u t) := by
  rw [forgetStaging]
  exact .record h

theorem kept_resetCores {d c : Nat} (h : Kept b s t) : Kept b s (resetCores d c t) := by
  rw [resetCores]
  exact .record (.foldl (fun _ _ hu => kept_setHart hu) h)

theorem kept_forgetFiles {d : Nat} (h : Kept b s t) : Kept b s (forgetFiles d t) := by
  rw [forgetFiles]
  exact .foldl (fun _ _ hu => kept_setHart hu) h

theorem kept_agentBack {c : Nat} (h : Kept b s t) : Kept b s (agentBack c t) := by
  rw [agentBack]
  exact .record h

theorem kept_loseContents {d : Nat} (h : Kept b s t) : Kept b s (loseContents d t) := by
  rw [loseContents]
  exact .ite (.ite (kept_clearQuad h) (.ite (kept_forgetCanopy (kept_forgetLines h)) (.foldl (fun _ _ hu => kept_noteSlot hu)
    (kept_forgetQueues (.foldl (fun _ _ hu => kept_notePool hu) (kept_setDie h)))))) (.ite (.ite (kept_forgetFiles h) (kept_setHarts h))
      (.ite (.ite (kept_forgetStaging h) (kept_forgetPorts h)) (.ite (kept_forgetGroup (kept_forgetLines h)) h)))

theorem kept_dropHome {n : Nat} (h : Kept b s t) : Kept b s (dropHome n t) := by
  rw [dropHome]
  exact .record (kept_setNum (kept_setNum h))

theorem refiled_wf {f : Nat → Nat} {l m : List Host.Cell} (h : Memory.wf m = true) :
    Memory.wf (l.foldl (fun m e => tset 0 (f e.1) e.2 m) m) = true := by
  induction l generalizing m with
  | nil => exact h
  | cons e l ih => exact ih (twf_tset 0 e.2 (f e.1) m h)

theorem kept_setShare {g : Nat} (h : Kept b s t) : Kept b s (setShare g t) :=
  ⟨fun _ => refiled_wf rfl, h.pending, h.free, h.board⟩

theorem kept_settleShare (h : Kept b s t) : Kept b s (settleShare t) := by
  rw [settleShare]
  exact .ite (kept_setShare h) h

theorem kept_failBoot {stage unit : Nat} (h : Kept b s t) : Kept b s (failBoot stage unit t) := by
  rw [failBoot]
  exact .ite (kept_post (kept_setNum (kept_setNum h))) h

theorem kept_checkPlatform (h : Kept b s t) : Kept b s (checkPlatform t) := by
  rw [checkPlatform]
  exact .ite (kept_failBoot h) h

theorem kept_postDomainFail {d : Nat} (h : Kept b s t) : Kept b s (postDomainFail d t) := by
  rw [postDomainFail]
  exact kept_post h

theorem kept_loseCluster {d c : Nat} (h : Kept b s t) : Kept b s (loseCluster d c t) := by
  rw [loseCluster]
  refine .record ?_
  refine .foldl ?_ h
  intro _ _ hu
  split
  · exact .ite (kept_dropHolder (kept_loseResv (kept_setCacheLine (.ite (kept_poisonLine hu) hu)))) (.ite (kept_poisonLine hu) hu)
  · exact hu

theorem kept_failUnits {d : Nat} (h : Kept b s t) : Kept b s (failUnits d t) := by
  rw [failUnits]
  exact .ite (.ite (.ite (.ite (kept_setNum (kept_dropHome (kept_loseAgent h))) (kept_dropHome (kept_loseAgent h))) (kept_setNum (.ite
    (kept_setNum (kept_dropHome (kept_loseAgent h))) (kept_dropHome (kept_loseAgent h))))) h) (.ite (.ite (kept_loseAgent h)
      (kept_loseCluster h)) (.ite (.ite h (.foldl (fun _ _ hu => kept_takeDown hu) h)) (.ite (kept_linkDown (kept_linkDown h)) (.ite
        (kept_plcaLost (kept_plcaLost h)) (.ite (kept_setNum h) h)))))

theorem kept_failDomains {l : List Nat} (h : Kept b s t) : Kept b s (failDomains l t) := by
  rw [failDomains]
  exact kept_settleShare (kept_checkPlatform (.foldl (fun _ _ hu => kept_loseContents hu) (.foldl (fun _ _ hu => kept_faultJobs hu) (.foldl
    (fun _ _ hu => kept_failUnits hu) (.foldl (fun _ _ hu => kept_postDomainFail hu) (.foldl (fun _ _ hu => kept_setDomain hu) h))))))

theorem kept_rampTimeout {d : Nat} (h : Kept b s t) : Kept b s (rampTimeout d t) := by
  rw [rampTimeout]
  exact .ite (kept_failDomains h) h

theorem kept_regulatorFail {d : Nat} {arrayRail : Bool} (h : Kept b s t) : Kept b s (regulatorFail d arrayRail t) := by
  rw [regulatorFail]
  exact .ite (kept_failDomains h) h

theorem kept_zeroCanopy {n : Nat} (h : Kept b s t) : Kept b s (zeroCanopy n t) := by
  rw [zeroCanopy]
  exact .record (kept_forgetCanopy h)

theorem kept_domainUp {d : Nat} (h : Kept b s t) : Kept b s (domainUp d t) := by
  rw [domainUp]
  exact .ite (.ite (kept_clearQuad h) (.ite (kept_agentBack (kept_setDie h)) (.ite (kept_zeroCanopy h) h))) (.ite (.ite (kept_agentBack h)
    (kept_setHarts (kept_resetCores h))) (.ite (.ite h (kept_groupUp h)) (.ite (kept_setNum h) h)))

theorem kept_startBoot (h : Kept false s t) : Kept false s (startBoot t) := by
  rw [startBoot]
  split
  · exact h
  · exact .ite (kept_startHart (kept_setNum (.recordPwr h))) h

theorem kept_rampDone {d : Nat} (h : Kept false s t) : Kept false s (rampDone d t) := by
  rw [rampDone]
  exact .ite (kept_startBoot (kept_domainUp (kept_setDomain h))) h

theorem kept_diePassed {u : Unit3} (h : Kept false s t) : Kept false s (diePassed u t) := by
  unfold diePassed
  split
  · exact .ite (kept_zeroCanopy (kept_setNum (.recordPwr h))) (kept_setNum (.recordPwr h))
  · exact kept_startBoot (kept_setNum (.recordPwr h))
  · exact .recordPwr h

theorem kept_dieFailed {u : Unit3} (h : Kept b s t) : Kept b s (dieFailed u t) := by
  unfold dieFailed
  refine .ite ?_ ?_
  · refine kept_failBoot ?_
    refine kept_failDomains ?_
    split
    · exact kept_setNum (kept_setNum h)
    · exact kept_setNum h
    · exact h
  · refine kept_failDomains ?_
    split
    · exact kept_setNum (kept_setNum h)
    · exact kept_setNum h
    · exact h

theorem kept_powerupTest {u : Unit3} {pass : Bool} (h : Kept false s t) : Kept false s (powerupTest u pass t) := by
  rw [powerupTest]
  exact .ite (.ite (kept_diePassed h) (kept_dieFailed h)) h

theorem kept_clusterDrain {d c : Nat} (h : Kept b s t) : Kept b s (clusterDrain d c t) := by
  rw [clusterDrain]
  exact .foldl (fun _ _ hu => kept_trimL3 hu) (kept_clusterOut h)

theorem kept_drainDomain {d : Nat} (h : Kept b s t) : Kept b s (drainDomain d t) := by
  rw [drainDomain]
  exact .ite (.ite (kept_drainAgent (.ite h (kept_drainHome (kept_setNum h)))) h) (.ite (.ite (kept_drainAgent h) (.ite (kept_clusterDrain
    h) h)) h)

theorem kept_domainClamp {d : Nat} (h : Kept b s t) : Kept b s (domainClamp d t) := by
  rw [domainClamp]
  exact .ite (kept_setNum (kept_setDomain h)) (kept_setDomain h)

theorem kept_domainOff {d : Nat} (h : Kept b s t) : Kept b s (domainOff d t) := by
  rw [domainOff]
  exact kept_rampDomain (kept_loseContents (kept_setDomain h))

theorem kept_switchOff {d : Nat} (h : Kept b s t) : Kept b s (switchOff d t) := by
  rw [switchOff]
  exact .ite (kept_domainOff h) (.ite (.ite (kept_domainClamp (kept_drainDomain h)) (kept_drainDomain h)) h)

theorem kept_execDomainRampTimeout {domain : Nat} (h : Kept false s t) : Works s (execDomainRampTimeout domain t) :=
  ⟨_, _, rfl, kept_rampTimeout h⟩

theorem kept_execDomainRegulatorFail {domain : Nat} {arrayRail : Bool} (h : Kept false s t) :
    Works s (execDomainRegulatorFail domain arrayRail t) :=
  ⟨_, _, rfl, kept_regulatorFail h⟩

theorem kept_execDomainRampDone {domain : Nat} (h : Kept false s t) : Works s (execDomainRampDone domain t) :=
  ⟨_, _, rfl, kept_rampDone h⟩

theorem kept_execDieSelftestPowerup {unit : Unit3} {pass : Bool} (h : Kept false s t) : Works s (execDieSelftestPowerup unit pass t) :=
  ⟨_, _, rfl, kept_powerupTest h⟩

theorem kept_execDomainSwitchOff {domain : Nat} (h : Kept false s t) : Works s (execDomainSwitchOff domain t) :=
  ⟨_, _, rfl, kept_switchOff h⟩

end Sys2Proof.Machine
end

section
/-! PROOFS. What the functions of Machine/MemoryUnits.lean keep. -/

namespace Sys2Proof.Machine
variable {b : Bool} {s t : State}

theorem kept_setMemState {n v : Nat} (h : Kept b s t) : Kept b s (setMemState n v t) := by
  rw [setMemState]
  exact kept_setNum h

theorem kept_postGroupFail {n : Nat} {channel : Option (Nat × Nat)} (h : Kept b s t) : Kept b s (postGroupFail n channel t) := by
  unfold postGroupFail
  split <;> exact kept_post h

theorem kept_trained {n : Nat} {failed : Option (Nat × Nat)} (h : Kept b s t) : Kept b s (trained n failed t) := by
  unfold trained
  refine .ite ?_ h
  split
  · exact kept_setNum (kept_setMemState h)
  · exact kept_settleShare (kept_checkPlatform (kept_postGroupFail (kept_setNum (kept_setMemState h))))

theorem kept_startPass {n : Nat} (h : Kept b s t) : Kept b s (startPass n t) := by
  rw [startPass]
  exact .record h

theorem kept_initialised {n : Nat} (h : Kept b s t) : Kept b s (initialised n t) := by
  rw [initialised]
  exact .ite (.ite (kept_setNum (kept_settleShare (kept_startPass (kept_setMemState (kept_forgetGroup h))))) (kept_settleShare
    (kept_startPass (kept_setMemState (kept_forgetGroup h))))) h

theorem kept_readMr4 {n : Nat} {rates : List Nat} {hot : List Bool} (h : Kept false s t) : Kept false s (readMr4 n rates hot t) := by
  rw [readMr4]
  refine .ite ?_ h
  split
  · exact .recordPwr (kept_setNum h)
  · exact .ite (kept_setNum h) (kept_post (.recordPwr (kept_setNum h)))

theorem kept_putLatent {u : Nat} {k : ErrKind} (h : Kept b s t) : Kept b s (putLatent u k t) := by
  rw [putLatent]
  exact .record h

theorem kept_putSpots {u : Nat} {l : List Nat} (h : Kept b s t) : Kept b s (putSpots u l t) := by
  rw [putSpots]
  exact .record h

theorem kept_freePoison {u : Nat} {slots : List Nat} (h : Kept b s t) : Kept b s (freePoison u slots t) := by
  rw [freePoison]
  split
  · exact .foldl (fun _ _ hu => kept_setPoison (kept_draw hu)) h
  · exact h

theorem kept_spoilCode {u : Nat} {l : List Nat} {corrected : Bool} (h : Kept b s t) : Kept b s (spoilCode u l corrected t) := by
  rw [spoilCode]
  exact .ite (kept_freePoison (.ite (kept_scramble h) h)) (.ite (kept_scramble h) h)

theorem kept_strikeBytes {u : Nat} {symbols : List Nat} {sight : Sight} (h : Kept b s t) : Kept b s (strikeBytes u symbols sight t) := by
  unfold strikeBytes
  refine .ite h ?_
  refine .ite (kept_putLatent (kept_putSpots h)) ?_
  split
  · exact kept_putLatent (kept_putSpots h)
  · exact kept_putLatent (kept_putSpots (kept_spoilCode h))
  · exact kept_putSpots (kept_spoilCode h)

theorem kept_strike {a : Strike} (h : Kept b s t) : Kept b s (strike t a) := by
  unfold strike
  split
  · split
    · exact kept_putLatent h
    · exact kept_strikeBytes (kept_draw h)
    · exact kept_putLatent h
  · split
    · exact kept_strikeBytes h
    · exact h
  · exact kept_setDie h

theorem kept_scrubLine {a : Nat} {found : Option ErrKind} (h : Kept b s t) : Kept b s (scrubLine a found t) := by
  unfold scrubLine
  split
  · dsimp only
    split
    · exact .ite (.ite (kept_startPass (kept_count (kept_readUnit (kept_putLatent h)))) (kept_readUnit (kept_putLatent h))) h
    · exact h
  · dsimp only
    split
    · exact .ite (.ite (kept_startPass (kept_count (kept_readUnit h))) (kept_readUnit h)) h
    · exact h

theorem kept_scrubWord {a : Nat} {found : Option ErrKind} (h : Kept b s t) : Kept b s (scrubWord a found t) := by
  unfold scrubWord
  split
  · dsimp only
    split
    · exact .ite (kept_readUnit (kept_putLatent h)) h
    · exact h
  · dsimp only
    split
    · exact .ite (kept_readUnit h) h
    · exact h

theorem kept_groupFails {n : Nat} {channel : Option (Nat × Nat)} (h : Kept b s t) : Kept b s (groupFails n channel t) := by
  rw [groupFails]
  exact .ite (kept_checkPlatform (kept_faultJobs (kept_postGroupFail (kept_setMemState h)))) h

theorem kept_selftestEnds {n : Nat} {failing : List Nat} (h : Kept b s t) : Kept b s (selftestEnds n failing t) := by
  rw [selftestEnds]
  exact .ite (kept_setNum (kept_setDie h)) h

theorem kept_measureDie {n rate : Nat} (h : Kept false s t) : Kept false s (measureDie n rate t) := by
  rw [measureDie]
  exact .recordPwr (kept_setNum (kept_setNum h))

theorem kept_measureRates {rates : List Nat} (h : Kept false s t) : Kept false s (measureRates rates t) := by
  rw [measureRates]
  exact .ite (.foldl (fun _ _ hu => kept_measureDie hu) h) h

theorem kept_execMemChannelTrainingDone {group : Nat} {failed : Option (Nat × Nat)} (h : Kept false s t) :
    Works s (execMemChannelTrainingDone group failed t) :=
  ⟨_, _, rfl, kept_trained h⟩

theorem kept_execMemInitialisationDone {group : Nat} (h : Kept false s t) : Works s (execMemInitialisationDone group t) :=
  ⟨_, _, rfl, kept_initialised h⟩

theorem kept_execLpddrRefresh {group : Nat} (h : Kept false s t) : Works s (execLpddrRefresh group t) :=
  ⟨_, _, rfl, h⟩

theorem kept_execMr4Read {group : Nat} {rates : List Nat} {hot : List Bool} (h : Kept false s t) :
    Works s (execMr4Read group rates hot t) :=
  ⟨_, _, rfl, kept_readMr4 h⟩

theorem kept_execMemScrubVisit {addr : Nat} {found : Option ErrKind} {strikes : List Strike} (h : Kept false s t) :
    Works s (execMemScrubVisit addr found strikes t) :=
  ⟨_, _, rfl, kept_scrubLine (.foldl (fun _ _ hu => kept_strike hu) h)⟩

theorem kept_execCanopyScrubVisit {addr : Nat} {found : Option ErrKind} (h : Kept false s t) :
    Works s (execCanopyScrubVisit addr found t) :=
  ⟨_, _, rfl, kept_scrubWord h⟩

theorem kept_execMemGroupFail {group : Nat} {channel : Option (Nat × Nat)} (h : Kept false s t) :
    Works s (execMemGroupFail group channel t) :=
  ⟨_, _, rfl, kept_groupFails h⟩

theorem kept_execSelftestDone {die : Nat} {failing : List Nat} (h : Kept false s t) : Works s (execSelftestDone die failing t) :=
  ⟨_, _, rfl, kept_selftestEnds h⟩

theorem kept_execHsRateMeasure {rates : List Nat} (h : Kept false s t) : Works s (execHsRateMeasure rates t) :=
  ⟨_, _, rfl, kept_measureRates h⟩

end Sys2Proof.Machine
end

section
/-! PROOFS. What the functions of Machine/Power.lean keep. -/

namespace Sys2Proof.Machine
variable {b : Bool} {s t : State}

theorem kept_offState (h : Kept false s t) : Kept false s (offState t) :=
  ⟨fun _ => rfl, h.pending, h.free, nofun⟩

theorem kept_enFalls (h : Kept false s t) : Kept false s (enFalls t) := by
  rw [enFalls]
  exact .ite (.recordPwr (.ite (kept_offState (.recordPwr h)) h)) h

theorem kept_powerFault {cause source : Nat} (h : Kept false s t) : Kept false s (powerFault cause source t) := by
  rw [powerFault]
  exact .ite (.recordPwr (kept_offState h)) h

theorem kept_crosses20 {rising : Bool} (h : Kept false s t) : Kept false s (crosses20 rising t) := by
  rw [crosses20]
  exact .ite (.ite h (.recordPwr h)) (.recordPwr (.ite (kept_offState h) h))

theorem kept_setClass {c : Nat} (h : Kept b s t) : Kept b s (setClass c t) := by
  rw [setClass]
  exact kept_setNum (kept_setNum (.foldl (fun _ _ hu => kept_setNum hu) h))

theorem kept_mirrorBoard {b' : Board} (h : Kept b s t) : Kept b s (mirrorBoard b' t) := by
  rw [mirrorBoard]
  split
  · exact kept_setClass (kept_setOct (kept_setOct (kept_setNum (kept_setNum (kept_setNum (kept_setOct (kept_setNum (kept_setNum
      (kept_setNum (kept_setNum (kept_setNum (kept_setOct h))))))))))))
  · exact kept_setClass (kept_post (kept_setNum (kept_setNum (kept_setNum (kept_setOct h)))))

theorem kept_rejectBank {type bank cause : Nat} (h : Kept b s t) : Kept b s (rejectBank type bank cause t) := by
  rw [rejectBank]
  exact kept_post (kept_setNum h)

theorem kept_setIdentity {digest : List Byte} {svn : Nat} (h : Kept false s t) : Kept false s (setIdentity digest svn t) := by
  rw [setIdentity]
  exact .recordPwr (kept_setOct (kept_setOct (kept_setOct (kept_setOct (kept_setOct (kept_setOct (kept_setOct h)))))))

theorem kept_runMc {bank : Nat} {head : List Byte} (h : Kept false s t) : Kept false s (runMc bank head t) := by
  rw [runMc]
  exact kept_setIdentity (.recordPwr (kept_setOct (kept_setNum (kept_setNum h))))

theorem kept_openDictionary (h : Kept false s t) : Kept false s (openDictionary t) := by
  rw [openDictionary]
  exact kept_refreshCamip (kept_refreshCamip (.recordPwr (.foldl (fun _ _ hu => kept_setNum hu) (kept_setNum h))))

theorem kept_reportFault (h : Kept b s t) : Kept b s (reportFault t) := by
  rw [reportFault]
  exact .ite (kept_post (kept_setNum h)) (kept_setNum h)

theorem kept_bootFrom {b' : Board} {bank : Nat} (h : Kept false s t) : Kept false s (bootFrom b' bank t) := by
  rw [bootFrom]
  exact kept_openDictionary (kept_reportFault (kept_mirrorBoard (kept_runMc h)))

theorem kept_loadMc {b' : Flash} {bank : Nat} (h : Kept false s t) : Kept false s (loadMc b' bank t) := by
  rw [loadMc]
  split
  · exact h
  · exact .ite (.recordPwr h) h

theorem kept_bootMc {b' : Board} (h : Kept false s t) : Kept false s (bootMc b' t) := by
  rw [bootMc]
  exact .ite (kept_bootFrom (kept_loadMc h)) (.ite (kept_bootFrom (kept_loadMc (kept_rejectBank (kept_loadMc h)))) (.recordPwr
    (kept_rejectBank (kept_loadMc (kept_rejectBank (kept_loadMc h))))))

theorem kept_iodUp {b' : Board} (h : Kept false s t) : Kept false s (iodUp b' t) := by
  rw [iodUp]
  exact kept_setNum (kept_setNum (.foldl (fun _ _ hu => kept_setDomain hu) (.recordPwr (.recordPwr (kept_offState h)))))

theorem kept_boot {b' : Board} (h : Kept false s t) : Kept false s (boot b' t) := by
  rw [boot]
  exact .recordPwr (.ite (kept_bootMc (kept_iodUp h)) (.recordPwr (kept_iodUp h)))

theorem kept_raiseEn {b' : Board} (h : Kept false s t) : Kept false s (raiseEn b' t) := by
  rw [raiseEn]
  exact .ite h (.ite (kept_boot (.recordPwr h)) (.recordPwr h))

theorem kept_restEnds {b' : Board} (h : Kept false s t) : Kept false s (restEnds b' t) := by
  rw [restEnds]
  exact .ite (.ite (kept_raiseEn (.recordPwr h)) (.recordPwr h)) h

theorem kept_endHold {v : Nat} (h : Kept b s t) : Kept b s (endHold v t) := by
  rw [endHold]
  exact .record (.ite (kept_setNum (kept_setNum h)) (kept_setNum h))

theorem kept_holdExpires (h : Kept b s t) : Kept b s (holdExpires t) := by
  rw [holdExpires]
  exact .ite (kept_post (kept_endHold h)) h

theorem kept_writeTree (h : Kept b s t) : Kept b s (writeTree t) := by
  rw [writeTree]
  exact kept_tryWrite (kept_draw h)

theorem kept_handOff {b' : Flash} {bank : Nat} (h : Kept false s t) : Kept false s (handOff b' bank t) := by
  rw [handOff]
  exact kept_startBoot (.recordPwr (kept_setOct (kept_setNum (kept_setNum (kept_writeTree (kept_tryWrite h))))))

theorem kept_loadBank {b' : Flash} {top bank : Nat} (h : Kept b s t) : Kept b s (loadBank b' top bank t) := by
  rw [loadBank]
  split
  · exact h
  · exact .ite (kept_tryWrite h) h

theorem kept_loadCore {b' : Flash} (h : Kept false s t) : Kept false s (loadCore b' t) := by
  rw [loadCore]
  exact .ite (.ite (kept_handOff (kept_loadBank h)) (.ite (kept_handOff (kept_loadBank (kept_rejectBank (kept_loadBank h)))) (kept_failBoot
    (kept_rejectBank (kept_loadBank (kept_rejectBank (kept_loadBank h))))))) h

theorem kept_writeCommand {k v : Nat} (h : Kept b s t) : Kept b s (writeCommand k v t) := by
  rw [writeCommand]
  exact .ite (kept_flushMsix (kept_setHlink (kept_setHlink h))) (kept_masterOff (kept_setHlink h))

theorem kept_selectSize {k code : Nat} (h : Kept b s t) : Kept b s (selectSize k code t) := by
  rw [selectSize]
  exact .ite (kept_setNum (kept_setHlink h)) h

theorem kept_configWrite {k : Nat} {r : CfgReg} {v : Nat} (h : Kept b s t) : Kept b s (configWrite k r v t) := by
  unfold configWrite
  split
  · exact h
  · exact kept_writeCommand h
  · exact h
  · exact .ite (kept_setHlink h) h
  · exact h
  · exact kept_selectSize h
  · exact .ite (kept_setHlink h) h
  · exact .ite (kept_flushMsix (kept_setHlink h)) h
  · exact kept_flushMsix (kept_setHlink h)
  · exact .ite (kept_setHlink h) h
  · exact h

theorem kept_configAnswer {a : ConfigAccess} (h : Kept b s t) : Kept b s (configAnswer a t) := by
  rw [configAnswer]
  refine .ite h ?_
  refine .ite (kept_answerHost h) ?_
  refine .ite h ?_
  split
  · exact kept_answerHost h
  · exact kept_answerHost (kept_configWrite h)

theorem kept_moveCaps {f : Nat → Nat} (h : Kept false s t) : Kept false s (moveCaps f t) := by
  rw [moveCaps]
  exact .recordPwr h

theorem kept_capLoop {sum : Nat} (h : Kept false s t) : Kept false s (capLoop sum t) := by
  rw [capLoop]
  exact .ite (.ite (.ite (.recordPwr h) (kept_post (.recordPwr (.recordPwr h)))) (.ite (kept_post (kept_count (kept_moveCaps (.recordPwr
    h)))) (kept_count (kept_moveCaps (.recordPwr h))))) (.ite (.ite (kept_moveCaps (.recordPwr h)) (.recordPwr h)) (.recordPwr h))

theorem kept_postThrottle {i : Nat} {t' : ℤ} (h : Kept b s t) : Kept b s (postThrottle i t' t) := by
  rw [postThrottle]
  exact kept_post h

theorem kept_thermalLoop {i : Nat} {t' : ℤ} (h : Kept false s t) : Kept false s (thermalLoop i t' t) := by
  rw [thermalLoop]
  exact .ite (.ite (.ite (.ite (kept_count (.recordPwr h)) h) (kept_postThrottle (.recordPwr (.ite (kept_count (.recordPwr h)) h)))) (.ite
    (.ite (.recordPwr h) (.recordPwr (.recordPwr h))) h)) (.ite (.ite h (kept_postThrottle (.recordPwr h))) (.ite (.recordPwr h) h))

theorem kept_senseDie {e : ℤ × Nat} (h : Kept false s t) : Kept false s (senseDie t e) := by
  rw [senseDie]
  exact kept_thermalLoop (kept_setNum h)

theorem kept_sampled {x : PowerSample} (h : Kept false s t) : Kept false s (sampled x t) := by
  rw [sampled]
  refine .ite h ?_
  split
  · exact kept_powerFault h
  · exact .foldl (fun _ _ hu => kept_senseDie hu) (.ite (kept_capLoop (kept_setNum (kept_setNum (kept_setNum (kept_setNum (.recordPwr
      h)))))) (kept_setNum (kept_setNum (kept_setNum (kept_setNum (.recordPwr h))))))

theorem kept_execEnDeassert (h : Kept false s t) : Works s (execEnDeassert t) :=
  ⟨_, _, rfl, kept_enFalls h⟩

theorem kept_execPowerFault {cause source : Nat} (h : Kept false s t) : Works s (execPowerFault cause source t) :=
  ⟨_, _, rfl, kept_powerFault h⟩

theorem kept_execVinCrosses20v {rising : Bool} (h : Kept false s t) : Works s (execVinCrosses20v rising t) :=
  ⟨_, _, rfl, kept_crosses20 h⟩

theorem kept_execPowerUp {board : Board} (h : Kept false s t) : Works s (execPowerUp board t) :=
  ⟨_, _, rfl, kept_raiseEn h⟩

theorem kept_execRestIntervalExpiry {board : Board} (h : Kept false s t) : Works s (execRestIntervalExpiry board t) :=
  ⟨_, _, rfl, kept_restEnds h⟩

theorem kept_execSettingsHoldExpiry (h : Kept false s t) : Works s (execSettingsHoldExpiry t) :=
  ⟨_, _, rfl, kept_holdExpires h⟩

theorem kept_execCoreImageLoad (h : Kept false s t) : Works s (execCoreImageLoad t) :=
  ⟨_, _, rfl, kept_loadCore h⟩

theorem kept_execConfigRequest {access : ConfigAccess} (h : Kept false s t) : Works s (execConfigRequest access t) :=
  ⟨_, _, rfl, kept_configAnswer h⟩

theorem kept_execCappingSample {sample : PowerSample} (h : Kept false s t) : Works s (execCappingSample sample t) :=
  ⟨_, _, rfl, kept_sampled h⟩

end Sys2Proof.Machine
end

section
/-! PROOFS. What the functions of Machine/Rings.lean keep. -/

namespace Sys2Proof.Machine
variable {b : Bool} {s t : State}

theorem kept_postFromHart {h' word : Nat} (h : Kept b s t) : Kept b s (postFromHart h' word t) := by
  rw [postFromHart]
  exact .ite h (.ite (.record h) (kept_count h))

theorem kept_applyCons {k v : Nat} (h : Kept b s t) : Kept b s (applyCons k v t).2 := by
  rw [applyCons]
  exact .ite_snd h (kept_lostRecord (kept_setNum h))

theorem kept_ringDone {k : Nat} (h : Kept b s t) : Kept b s (ringDone k t) := by
  rw [ringDone]
  exact .ite (kept_deliver (kept_setNum h)) (.ite (kept_deliver (kept_setNum h)) h)

theorem kept_applyRingEnable {k v : Nat} (h : Kept b s t) : Kept b s (applyRingEnable k v t).2 := by
  rw [applyRingEnable]
  exact .ite_snd (kept_disableRing h) (.ite_snd h (.ite_snd (kept_setRing (kept_setNum (kept_setNum (kept_setNum (kept_setNum
    (kept_tryWrite h)))))) h))

theorem kept_execEventPost {hart word : Nat} (h : Kept false s t) : Works s (execEventPost hart word t) :=
  ⟨_, _, rfl, kept_postFromHart h⟩

theorem kept_execEvtRingCons {ring value : Nat} (h : Kept false s t) : Works s (execEvtRingCons ring value t) :=
  ⟨_, _, rfl, kept_applyCons h⟩

theorem kept_execEvtRingDone {ring : Nat} (h : Kept false s t) : Works s (execEvtRingDone ring t) :=
  ⟨_, _, rfl, kept_ringDone h⟩

theorem kept_execNotifyRepeat {ring : Nat} (h : Kept false s t) : Works s (execNotifyRepeat ring t) :=
  ⟨_, _, rfl, .ite (kept_sendNotify h) h⟩

end Sys2Proof.Machine
end

section
/-! PROOFS. What the functions of Machine/ObjectWrites.lean keep. -/

namespace Sys2Proof.Machine
variable {b : Bool} {s t : State}

theorem kept_storeObj {i j v : Nat} {l : List Byte} (h : Kept b s t) : Kept b s (storeObj i j v l t) := by
  rw [storeObj]
  split
  · exact .ite (kept_setOct h) (kept_setNum h)
  · exact h

theorem kept_closePort {p : Nat} (h : Kept b s t) : Kept b s (closePort p t) := by
  rw [closePort]
  exact .foldl (fun _ _ hu => .ite (kept_closeSession hu) hu) h

theorem kept_applyCamipEnable {p v : Nat} (h : Kept b s t) : Kept b s (applyCamipEnable p v t) := by
  rw [applyCamipEnable]
  exact kept_refreshCamip (.ite (kept_closePort (.record (kept_setNum h))) (kept_setNum h))

theorem kept_applyNodeId {p v : Nat} (h : Kept b s t) : Kept b s (applyNodeId p v t) := by
  rw [applyNodeId]
  exact kept_refreshCamip (.ite (.record (.ite (kept_setNum h) (kept_closePort (kept_setNum h)))) (.ite (kept_setNum h) (kept_closePort
    (kept_setNum h))))

theorem kept_applyReplayDone (h : Kept b s t) : Kept b s (applyReplayDone t) := by
  rw [applyReplayDone]
  exact .ite (kept_setNum h) (kept_endHold (kept_setNum h))

theorem kept_applySessionClose {slot : Nat} (h : Kept b s t) : Kept b s (applySessionClose slot t) := by
  rw [applySessionClose]
  exact .record h

theorem kept_applyDict {i j v : Nat} {l : List Byte} (h : Kept b s t) : Kept b s (applyDict i j v l t).2 := by
  rw [applyDict]
  exact .ite_snd (kept_applyReplayDone h) (.ite_snd (kept_applyCamipEnable h) (.ite_snd (kept_applyNodeId h) (.ite_snd
    (kept_applySessionClose h) (kept_storeObj h))))

theorem kept_applyReady (h : Kept b s t) : Kept b s (applyReady t).2 := by
  rw [applyReady]
  exact .ite_snd (kept_post (kept_setNum h)) h

theorem kept_applyRevoke {v : Nat} (h : Kept false s t) : Kept false s (applyRevoke v t).2 := by
  rw [applyRevoke]
  exact .ite_snd h (.ite_snd h (.ite_snd h (kept_post (.recordPwr h))))

theorem kept_applyCommit {v : Nat} (h : Kept false s t) : Kept false s (applyCommit v t).2 := by
  rw [applyCommit]
  exact .ite_snd h (.ite_snd h (kept_post (.recordPwr h)))

theorem kept_applySec {i j v : Nat} {l : List Byte} (h : Kept false s t) : Kept false s (applySec i j v l t).2 := by
  rw [applySec]
  exact .ite_snd (kept_applyReady h) (.ite_snd (kept_applyRevoke h) (.ite_snd (kept_applyCommit h) (kept_storeObj h)))

theorem kept_applyEnable {i j v : Nat} (h : Kept b s t) : Kept b s (applyEnable i j v t).2 := by
  rw [applyEnable]
  exact .ite_snd (kept_rampAll (kept_setNum h)) h

theorem kept_closeGroups (h : Kept b s t) : Kept b s (closeGroups t) := by
  rw [closeGroups]
  exact kept_settleShare (.foldl (fun _ _ hu => .ite (kept_setNum hu) hu) h)

theorem kept_applyPower {i j v : Nat} {l : List Byte} (h : Kept b s t) : Kept b s (applyPower i j v l t).2 := by
  rw [applyPower]
  exact .ite_snd (.ite_snd (kept_closeGroups (kept_applyEnable h)) (kept_applyEnable h)) (.ite_snd (kept_applyEnable h) (kept_storeObj h))

theorem kept_applyHomes {v : Nat} (h : Kept b s t) : Kept b s (applyHomes v t).2 := by
  rw [applyHomes]
  exact .ite_snd h (.foldl (fun _ _ hu => .ite (kept_drainHome hu) hu) (.foldl (fun _ _ hu => kept_setNum hu) (kept_setNum h)))

theorem kept_applyMem {i j v : Nat} {l : List Byte} (h : Kept b s t) : Kept b s (applyMem i j v l t).2 := by
  rw [applyMem]
  exact .ite_snd (.record h) (.ite_snd (kept_applyHomes h) (.ite_snd h (.ite_snd (.ite (kept_biasCmd h) h) (.ite_snd (kept_acknowledge h)
    (kept_storeObj h)))))

theorem kept_applyLinks {i j v : Nat} {l : List Byte} (h : Kept b s t) : Kept b s (applyLinks i j v l t).2 := by
  rw [applyLinks]
  exact .ite_snd (kept_applyPortEnable h) (.ite_snd (kept_applyPortExpect h) (.ite_snd (kept_applyPortExpect h) (kept_storeObj h)))

theorem kept_startSelftest {n : Nat} (h : Kept b s t) : Kept b s (startSelftest t n) := by
  rw [startSelftest]
  exact kept_setNum (kept_setDie h)

theorem kept_applySelftest {v : Nat} (h : Kept b s t) : Kept b s (applySelftest v t).2 := by
  rw [applySelftest]
  exact .ite_snd (.foldl (fun _ _ hu => kept_startSelftest hu) h) h

theorem kept_applyDieEnable {v : Nat} (h : Kept b s t) : Kept b s (applyDieEnable v t).2 := by
  rw [applyDieEnable]
  exact .ite_snd (kept_applyEnable h) h

theorem kept_applyTns {i j v : Nat} {l : List Byte} (h : Kept b s t) : Kept b s (applyTns i j v l t).2 := by
  rw [applyTns]
  exact .ite_snd (kept_applyDieEnable h) (.ite_snd (kept_applyEnable h) (.ite_snd (kept_applySelftest h) (.ite_snd (kept_applyDqCtrl h)
    (.ite_snd (kept_applyDqReset h) (.ite_snd (kept_applySlotBind h) (.ite_snd (kept_applyPoolPeak h) (kept_storeObj h)))))))

theorem kept_applyMirror {k v : Nat} (h : Kept b s t) : Kept b s (applyMirror k v t) := by
  rw [applyMirror]
  exact .ite (kept_mirrorOff (kept_setNum h)) (.ite (kept_setNum (kept_setNum h)) (kept_setNum h))

theorem kept_applyJob {k b' j v : Nat} {l : List Byte} (h : Kept b s t) : Kept b s (applyJob k b' j v l t).2 := by
  rw [applyJob]
  exact .ite_snd (kept_applyJobCtrl h) (.ite_snd (kept_armWatchdog (kept_setNum h)) (.ite_snd (kept_applyJobKick h) (.ite_snd
    (kept_applyJobSwitch h) (.ite_snd (kept_applyMirror h) (kept_storeObj h)))))

theorem kept_applyEvents {i j v : Nat} {l : List Byte} (h : Kept b s t) : Kept b s (applyEvents i j v l t).2 := by
  rw [applyEvents]
  exact .ite_snd (.ite (kept_deliverAll (kept_setNum h)) (kept_setNum h)) (.ite_snd (kept_applyRingEnable h) (.ite_snd (kept_deliver
    (kept_setNum h)) (.ite_snd (kept_applyCons h) (.ite_snd (kept_ringDone h) (kept_storeObj h)))))

theorem kept_applyCores {i j v : Nat} {l : List Byte} (h : Kept b s t) : Kept b s (applyCores i j v l t).2 := by
  rw [applyCores]
  exact .ite_snd (kept_applyEnable h) (.ite_snd (.ite (kept_setSource h) h) (kept_storeObj h))

theorem kept_applyObj {i j v : Nat} {l : List Byte} (h : Kept false s t) : Kept false s (applyObj i j v l t).2 := by
  rw [applyObj]
  exact .ite_snd (kept_applyDict h) (.ite_snd (kept_applyPower h) (.ite_snd (kept_applyMem h) (.ite_snd (kept_applyLinks h) (.ite_snd
    (kept_applyTns h) (.ite_snd (kept_applyJob h) (.ite_snd (kept_applyEvents h) (.ite_snd (kept_applySec h) (kept_applyCores h))))))))

theorem kept_noteHold (h : Kept b s t) : Kept b s (noteHold t) := by
  rw [noteHold]
  exact .ite h (.record h)

theorem kept_writeObj {path i j type : Nat} {l : List Byte} (h : Kept false s t) : Kept false s (writeObj path i j type l t).2 := by
  rw [writeObj]
  exact .ite_snd (.ite_snd (kept_applyObj (kept_noteHold h)) h) h

end Sys2Proof.Machine
end

section
/-! PROOFS. What the functions of Machine/Dictionary.lean keep. -/

namespace Sys2Proof.Machine
variable {b : Bool} {s t : State}

theorem kept_runItems {path : Nat} {l : List WriteItem} {n : Nat} (h : Kept false s t) : Kept false s (runItems path l n t).2 := by
  induction l generalizing path n t with
  | nil => exact h
  | cons x l ih =>
    rw [runItems]
    exact .ite_snd (ih (kept_writeObj h)) (kept_writeObj h)

theorem kept_svcDomWrite {path i j off : Nat} {l : List Byte} (h : Kept b s t) : Kept b s (svcDomWrite path i j off l t).2 := by
  rw [svcDomWrite]
  split
  · exact h
  · exact .ite_snd h (.ite_snd h (.ite_snd h (.ite_snd h (.ite_snd h (.ite_snd h (kept_noteHold (kept_setOct h)))))))

theorem kept_pureAnswer {f : State → Nat × List Byte} (h : Kept b s t) : Kept b s (pureAnswer f t).2 := by
  rw [pureAnswer]
  exact h

theorem kept_bare {r : Nat × State} (h : Kept b s r.2) : Kept b s (bare r).2 := by
  rw [bare]
  exact h

theorem kept_svcWriteMulti {path : Nat} {items : List WriteItem} (h : Kept false s t) : Kept false s (svcWriteMulti path items t).2 := by
  rw [svcWriteMulti]
  exact kept_runItems h

theorem kept_badRequest {body : List Byte} (h : Kept b s t) : Kept b s (badRequest body t).2 := by
  rw [badRequest]
  exact h

theorem kept_runService {path svc : Nat} {l : List Byte} (h : Kept false s t) : Kept false s (runService path svc l t).2 := by
  unfold runService
  split
  · exact .ite_snd (kept_badRequest h) (kept_pureAnswer h)
  · exact .ite_snd (kept_badRequest h) (kept_bare (kept_writeObj h))
  · exact .ite_snd (kept_pureAnswer h) (kept_badRequest h)
  · refine .ite_snd (kept_badRequest h) ?_
    split
    · exact kept_svcWriteMulti h
    · exact kept_badRequest h
  · exact .ite_snd (kept_badRequest h) (kept_pureAnswer h)
  · exact .ite_snd (kept_badRequest h) (kept_pureAnswer h)
  · exact .ite_snd (kept_badRequest h) (kept_bare (kept_svcDomWrite h))
  · exact kept_badRequest h

theorem kept_noteAnswer {path status : Nat} {body : List Byte} (h : Kept b s t) : Kept b s (noteAnswer path status body t) := by
  rw [noteAnswer]
  exact .ite (.record h) (kept_count (.record h))

theorem kept_closeAsked (h : Kept b s t) : Kept b s (closeAsked t) := by
  rw [closeAsked]
  exact .foldl (fun _ _ hu => kept_closeSession hu) (.record h)

theorem kept_setChan {c : Nat} {x : Chan} (h : Kept b s t) : Kept b s (State.setChan t c x) := by
  rw [State.setChan]
  exact .record h

theorem kept_chanIrq {core : Bool} {link irq : Nat} (h : Kept b s t) : Kept b s (chanIrq core link irq t) := by
  rw [chanIrq]
  exact .ite h (.ite (.ite (kept_sendImsic h) h) (.ite (kept_sendMsix h) h))

theorem kept_answerChan {core : Bool} {chan link trans : Nat} {r : Answer} (h : Kept b s r.2) :
    Kept b s (answerChan core chan link trans r) := by
  rw [answerChan]
  exact kept_closeAsked (kept_chanIrq (kept_setChan (kept_noteAnswer h)))

theorem kept_serveChan {core : Bool} {chan link trans : Nat} {run : State → Answer} (hrun : ∀ u, Kept b s u → Kept b s (run u).2) (h : Kept
    b s t) :
    Kept b s (serveChan core chan link trans run t) := by
  rw [serveChan]
  exact .ite h (.ite (kept_count h) (kept_answerChan (hrun _ h)))

theorem kept_authFail {p slot : Nat} (h : Kept b s t) : Kept b s (authFail p slot t) := by
  rw [authFail]
  exact .ite (kept_count (kept_setSess h)) (kept_post (kept_count (kept_setSess h)))

theorem kept_answerSession {slot svc trans : Nat} {r : Answer} (h : Kept b s r.2) : Kept b s (answerSession slot svc trans r) := by
  rw [answerSession]
  exact kept_closeAsked (.ite (kept_sessionSend (kept_setSess (kept_noteAnswer h))) (kept_setSess (kept_noteAnswer h)))

theorem kept_sessionRequest {p slot seq svc trans : Nat} {run : State → Answer} (hrun : ∀ u, Kept b s u → Kept b s (run u).2) (h : Kept b s
    t) :
    Kept b s (sessionRequest p slot seq svc trans run t) := by
  rw [sessionRequest]
  split
  · exact kept_sessionSend (kept_count (kept_setSess h))
  · exact kept_answerSession (hrun _ (kept_setSess h))

theorem kept_answerPlain {p : Nat} {peer : List Byte} {svc trans : Nat} {r : Answer} (h : Kept b s r.2) :
    Kept b s (answerPlain p peer svc trans r) := by
  rw [answerPlain]
  exact kept_closeAsked (kept_camipSend (kept_noteAnswer h))

theorem kept_serveCamip {p : Nat} {f : CamipFrame} {svc : Nat} {body : List Byte} {run : State → Answer} (hrun : ∀ u, Kept b s u → Kept b s
    (run u).2) (h : Kept b s t) :
    Kept b s (serveCamip p f svc body run t) := by
  rw [serveCamip]
  refine .ite h ?_
  refine .ite (kept_count h) ?_
  split
  · refine kept_answerPlain ?_
    refine .ite_snd ?_ (kept_count h)
    split
    · exact hrun _ (kept_count h)
    · exact kept_badRequest (kept_count h)
  · refine .ite (kept_count h) ?_
    refine .ite (kept_count (kept_count h)) ?_
    refine .ite (kept_closeSession (kept_count h)) ?_
    refine .ite (kept_authFail (kept_count h)) ?_
    refine .ite (kept_setSess (kept_count h)) ?_
    refine kept_sessionRequest ?_ (kept_setSess (kept_count h))
    intro _ hu
    split
    · exact hrun _ hu
    · exact kept_badRequest hu

theorem kept_servePath {rq : Request} {svc : Nat} {body : List Byte} {run : Nat → State → Answer} (hrun : ∀ x u, Kept b s u → Kept b s (run
    x u).2) (h : Kept b s t) :
    Kept b s (servePath rq svc body run t) := by
  rw [servePath]
  split
  · exact kept_serveCamip (fun _ hu => hrun _ _ hu) h
  · exact .ite h (kept_serveChan (fun _ hu => hrun _ _ hu) h)
  · exact kept_serveChan (fun _ hu => hrun _ _ hu) h

theorem kept_runRaw {rq : Request} {path svc : Nat} {l : List Byte} (h : Kept false s t) : Kept false s (runRaw rq path svc l t).2 := by
  unfold runRaw
  cases rq.src with
  | camip p _ _ _ =>
    dsimp only
    split
    · exact h
    · exact kept_runService h
  | host c => exact kept_runService h
  | core c => exact kept_runService h

theorem kept_serve {rq : Request} {svc : Nat} {body : List Byte} {run : Nat → State → Answer} (hrun : ∀ x u, Kept false s u → Kept false s
    (run x u).2) (h : Kept false s t) :
    Kept false s (serve rq svc body run t) := by
  rw [serve]
  split
  · exact kept_servePath (fun _ _ hu => hrun _ _ hu) h
  · exact kept_servePath (fun _ _ hu => kept_runRaw hu) h

theorem kept_serveWrite {rq : Request} {i j type : Nat} {l : List Byte} (h : Kept false s t) :
    Kept false s (serveWrite rq i j type l t) := by
  rw [serveWrite]
  exact kept_serve (fun _ _ hu => kept_bare (kept_writeObj hu)) h

theorem kept_mailbox {core : Bool} {chan link word : Nat} (h : Kept false s t) : Kept false s (mailbox core chan link word t) := by
  rw [mailbox]
  exact .ite h (.ite (kept_count h) (kept_serveChan (fun _ hu => .ite_snd (kept_badRequest hu) (kept_runService hu)) h))

theorem kept_openHandshake {p slot : Nat} {peer : List Byte} (h : Kept b s t) : Kept b s (openHandshake p slot peer t) := by
  rw [openHandshake]
  exact kept_setOct (kept_setNum (kept_setNum (.drawn (kept_setSess (kept_draw h)))))

theorem kept_openSession {p slot : Nat} (h : Kept b s t) : Kept b s (openSession p slot t) := by
  rw [openSession]
  exact kept_deliverAll (kept_post (kept_setNum h))

theorem kept_inSession {p slot code : Nat} {sec : Option (Nat × Nat)} {act : State → Answer} (hact : ∀ u, Kept b s u → Kept b s (act u).2)
    (h : Kept b s t) :
    Kept b s (inSession p slot code sec act t).2 := by
  unfold inSession
  refine .ite_snd (kept_spdmError h) ?_
  split
  · exact kept_spdmError h
  · exact .ite_snd (hact _ h) (kept_spdmError h)

theorem kept_spdmTake {p : Nat} {sec : Option (Nat × Nat)} {m : SpdmMsg} (h : Kept b s t) : Kept b s (spdmTake p sec m t).2 := by
  unfold spdmTake
  split
  · exact .ite_snd (kept_inSession (fun _ hu => kept_spdmReply hu) h) (kept_attestReply h)
  · exact kept_measurements h
  · refine .ite_snd (kept_spdmError h) ?_
    split
    · exact kept_keyExchangeReply (kept_openHandshake h)
    · exact kept_spdmError h
  · exact .ite_snd (kept_spdmError h) (.ite_snd (kept_spdmError h) (.ite_snd (kept_finishReply (kept_openSession h)) (kept_spdmError
      (kept_closeSession h))))
  · exact kept_inSession (fun _ hu => kept_updateReply (.drawn (kept_setSess hu))) h
  · exact kept_inSession (fun _ hu => kept_spdmReply (.record hu)) h

theorem kept_spdmServe {p : Nat} {sec : Option (Nat × Nat)} {m : SpdmFrame} (h : Kept b s t) : Kept b s (spdmServe p sec m t).2 := by
  rw [spdmServe]
  split
  · exact kept_fitted (kept_spdmTake h)
  · exact kept_chunkSend (fun _ hu => kept_fitted (kept_spdmTake hu)) h

theorem kept_spdmArrives {p : Nat} {m : SpdmFrame} (h : Kept b s t) : Kept b s (spdmArrives p m t) := by
  rw [spdmArrives]
  exact .ite (.ite (kept_serveCamip (fun _ hu => kept_spdmServe hu) h) (.ite (kept_count h) h)) (.ite (kept_emit (kept_spdmServe h)) h)

theorem kept_plcaHeard {p : Nat} (h : Kept b s t) : Kept b s (plcaHeard p t) := by
  rw [plcaHeard]
  exact .ite (.foldl (fun _ _ hu => kept_camipSend hu) (kept_refreshCamip (.record h))) h

theorem kept_execRead {rq : Request} {index sub : Nat} (h : Kept false s t) : Works s (execRead rq index sub t) :=
  ⟨_, _, rfl, kept_serve (fun _ _ hu => kept_pureAnswer hu) h⟩

theorem kept_execWrite {rq : Request} {index sub type : Nat} {value : List Byte} (h : Kept false s t) :
    Works s (execWrite rq index sub type value t) :=
  ⟨_, _, rfl, kept_serveWrite h⟩

theorem kept_execReadMulti {rq : Request} {items : List (Nat × Nat)} (h : Kept false s t) : Works s (execReadMulti rq items t) :=
  ⟨_, _, rfl, kept_serve (fun _ _ hu => kept_pureAnswer hu) h⟩

theorem kept_execWriteMulti {rq : Request} {items : List WriteItem} (h : Kept false s t) : Works s (execWriteMulti rq items t) :=
  ⟨_, _, rfl, kept_serve (fun _ _ hu => kept_svcWriteMulti hu) h⟩

theorem kept_execDescribe {rq : Request} {index sub : Nat} (h : Kept false s t) : Works s (execDescribe rq index sub t) :=
  ⟨_, _, rfl, kept_serve (fun _ _ hu => kept_pureAnswer hu) h⟩

theorem kept_execDomRead {rq : Request} {index sub offset length : Nat} (h : Kept false s t) :
    Works s (execDomRead rq index sub offset length t) :=
  ⟨_, _, rfl, kept_serve (fun _ _ hu => kept_pureAnswer hu) h⟩

theorem kept_execDomWrite {rq : Request} {index sub offset : Nat} {bytes : List Byte} (h : Kept false s t) :
    Works s (execDomWrite rq index sub offset bytes t) :=
  ⟨_, _, rfl, kept_serve (fun _ _ hu => kept_bare (kept_svcDomWrite hu)) h⟩

theorem kept_execMailboxCmd {core : Bool} {chan link word : Nat} (h : Kept false s t) : Works s (execMailboxCmd core chan link word t) :=
  ⟨_, _, rfl, kept_mailbox h⟩

theorem kept_execSpdm {port : Nat} {msg : SpdmFrame} (h : Kept false s t) : Works s (execSpdm port msg t) :=
  ⟨_, _, rfl, kept_spdmArrives h⟩

theorem kept_execIdent {port : Nat} {frame : CamipFrame} (h : Kept false s t) : Works s (execIdent port frame t) :=
  ⟨_, _, rfl, kept_serveCamip (fun _ hu => kept_pureAnswer hu) h⟩

theorem kept_execCamipSessionIdleTimeout {slot : Nat} (h : Kept false s t) : Works s (execCamipSessionIdleTimeout slot t) :=
  ⟨_, _, rfl, .ite (kept_closeSession h) h⟩

theorem kept_execPlcaBeaconLost {port : Nat} (h : Kept false s t) : Works s (execPlcaBeaconLost port t) :=
  ⟨_, _, rfl, kept_plcaLost h⟩

theorem kept_execPlcaStatusTrue {port : Nat} (h : Kept false s t) : Works s (execPlcaStatusTrue port t) :=
  ⟨_, _, rfl, kept_plcaHeard h⟩

end Sys2Proof.Machine
end

section
/-! PROOFS. What the functions of Machine/ObjectRows.lean keep. -/

namespace Sys2Proof.Machine
variable {b : Bool} {s t : State}

theorem kept_serveObj {rq : Request} {i j : Nat} {l : List Byte} (h : Kept false s t) : Kept false s (serveObj rq i j l t) := by
  rw [serveObj]
  split
  · exact kept_serveWrite h
  · exact h

theorem kept_execSecReady {rq : Request} {value : List Byte} (h : Kept false s t) : Works s (execSecReady rq value t) :=
  ⟨_, _, rfl, kept_serveObj h⟩

theorem kept_execCamipSessionClose {rq : Request} {slot : Nat} {value : List Byte} (h : Kept false s t) :
    Works s (execCamipSessionClose rq slot value t) :=
  ⟨_, _, rfl, kept_serveObj h⟩

theorem kept_execCamipEnable {rq : Request} {port : Nat} {value : List Byte} (h : Kept false s t) :
    Works s (execCamipEnable rq port value t) :=
  ⟨_, _, rfl, kept_serveObj h⟩

theorem kept_execCamipNodeId {rq : Request} {port : Nat} {value : List Byte} (h : Kept false s t) :
    Works s (execCamipNodeId rq port value t) :=
  ⟨_, _, rfl, kept_serveObj h⟩

theorem kept_execDictReplayDone {rq : Request} {value : List Byte} (h : Kept false s t) : Works s (execDictReplayDone rq value t) :=
  ⟨_, _, rfl, kept_serveObj h⟩

theorem kept_execDictHoldMs {rq : Request} {value : List Byte} (h : Kept false s t) : Works s (execDictHoldMs rq value t) :=
  ⟨_, _, rfl, kept_serveObj h⟩

theorem kept_execDictPathWrite {rq : Request} {value : List Byte} (h : Kept false s t) : Works s (execDictPathWrite rq value t) :=
  ⟨_, _, rfl, kept_serveObj h⟩

theorem kept_execMemInitStart {rq : Request} {value : List Byte} (h : Kept false s t) : Works s (execMemInitStart rq value t) :=
  ⟨_, _, rfl, kept_serveObj h⟩

theorem kept_execSecKeyRevoke {rq : Request} {value : List Byte} (h : Kept false s t) : Works s (execSecKeyRevoke rq value t) :=
  ⟨_, _, rfl, kept_serveObj h⟩

theorem kept_execSecSvnCommit {rq : Request} {value : List Byte} (h : Kept false s t) : Works s (execSecSvnCommit rq value t) :=
  ⟨_, _, rfl, kept_serveObj h⟩

theorem kept_execSrvTimeReselect {rq : Request} {value : List Byte} (h : Kept false s t) : Works s (execSrvTimeReselect rq value t) :=
  ⟨_, _, rfl, kept_serveObj h⟩

theorem kept_execTnsDieEnable {rq : Request} {value : List Byte} (h : Kept false s t) : Works s (execTnsDieEnable rq value t) :=
  ⟨_, _, rfl, kept_serveObj h⟩

theorem kept_execTnsQuadEnable {rq : Request} {die : Nat} {value : List Byte} (h : Kept false s t) :
    Works s (execTnsQuadEnable rq die value t) :=
  ⟨_, _, rfl, kept_serveObj h⟩

theorem kept_execTnsCanopyEnable {rq : Request} {die : Nat} {value : List Byte} (h : Kept false s t) :
    Works s (execTnsCanopyEnable rq die value t) :=
  ⟨_, _, rfl, kept_serveObj h⟩

theorem kept_execSrvClusterEnable {rq : Request} {hd : Nat} {value : List Byte} (h : Kept false s t) :
    Works s (execSrvClusterEnable rq hd value t) :=
  ⟨_, _, rfl, kept_serveObj h⟩

theorem kept_execPwrMemgrpEnable {rq : Request} {value : List Byte} (h : Kept false s t) : Works s (execPwrMemgrpEnable rq value t) :=
  ⟨_, _, rfl, kept_serveObj h⟩

theorem kept_execPwrLdEnable {rq : Request} {value : List Byte} (h : Kept false s t) : Works s (execPwrLdEnable rq value t) :=
  ⟨_, _, rfl, kept_serveObj h⟩

theorem kept_execPwrInputWPeak {rq : Request} {value : List Byte} (h : Kept false s t) : Works s (execPwrInputWPeak rq value t) :=
  ⟨_, _, rfl, kept_serveObj h⟩

theorem kept_execPwrRailTargetMv {rq : Request} {die : Nat} {value : List Byte} (h : Kept false s t) :
    Works s (execPwrRailTargetMv rq die value t) :=
  ⟨_, _, rfl, kept_serveObj h⟩

theorem kept_execTnsSelftestStart {rq : Request} {value : List Byte} (h : Kept false s t) : Works s (execTnsSelftestStart rq value t) :=
  ⟨_, _, rfl, kept_serveObj h⟩

theorem kept_execTnsDqCtrlEnable {rq : Request} {die queue : Nat} {value : List Byte} (h : Kept false s t) :
    Works s (execTnsDqCtrlEnable rq die queue value t) :=
  ⟨_, _, rfl, kept_serveObj h⟩

theorem kept_execTnsDqReset {rq : Request} {value : List Byte} (h : Kept false s t) : Works s (execTnsDqReset rq value t) :=
  ⟨_, _, rfl, kept_serveObj h⟩

theorem kept_execTnsSlotBindBound {rq : Request} {slot : Nat} {value : List Byte} (h : Kept false s t) :
    Works s (execTnsSlotBindBound rq slot value t) :=
  ⟨_, _, rfl, kept_serveObj h⟩

theorem kept_execTnsSlotBindRelease {rq : Request} {slot : Nat} {value : List Byte} (h : Kept false s t) :
    Works s (execTnsSlotBindRelease rq slot value t) :=
  ⟨_, _, rfl, kept_serveObj h⟩

theorem kept_execTnsStashPoolPeak {rq : Request} {die job : Nat} {value : List Byte} (h : Kept false s t) :
    Works s (execTnsStashPoolPeak rq die job value t) :=
  ⟨_, _, rfl, kept_serveObj h⟩

theorem kept_execCohHomeEnableSet {rq : Request} {value : List Byte} (h : Kept false s t) : Works s (execCohHomeEnableSet rq value t) :=
  ⟨_, _, rfl, kept_serveObj h⟩

theorem kept_execCohHomeEnableClear {rq : Request} {value : List Byte} (h : Kept false s t) : Works s (execCohHomeEnableClear rq value t) :=
  ⟨_, _, rfl, kept_serveObj h⟩

theorem kept_execFabPortEnable {rq : Request} {value : List Byte} (h : Kept false s t) : Works s (execFabPortEnable rq value t) :=
  ⟨_, _, rfl, kept_serveObj h⟩

theorem kept_execFabPortExpect {rq : Request} {port : Nat} {portNumber : Bool} {value : List Byte} (h : Kept false s t) :
    Works s (execFabPortExpect rq port portNumber value t) :=
  ⟨_, _, rfl, kept_serveObj h⟩

theorem kept_execJobCtrlStart {rq : Request} {job : Nat} (h : Kept false s t) : Works s (execJobCtrlStart rq job t) :=
  ⟨_, _, rfl, kept_serveObj h⟩

theorem kept_execJobCtrlStop {rq : Request} {job : Nat} (h : Kept false s t) : Works s (execJobCtrlStop rq job t) :=
  ⟨_, _, rfl, kept_serveObj h⟩

theorem kept_execJobCtrlSpare {rq : Request} {job : Nat} (h : Kept false s t) : Works s (execJobCtrlSpare rq job t) :=
  ⟨_, _, rfl, kept_serveObj h⟩

theorem kept_execJobKick {rq : Request} {job : Nat} {value : List Byte} (h : Kept false s t) : Works s (execJobKick rq job value t) :=
  ⟨_, _, rfl, kept_serveObj h⟩

theorem kept_execJobSwitch {rq : Request} {job : Nat} {value : List Byte} (h : Kept false s t) : Works s (execJobSwitch rq job value t) :=
  ⟨_, _, rfl, kept_serveObj h⟩

theorem kept_execEvtRingEnable {rq : Request} {ring : Nat} {value : List Byte} (h : Kept false s t) :
    Works s (execEvtRingEnable rq ring value t) :=
  ⟨_, _, rfl, kept_serveObj h⟩

theorem kept_execEvtGlobalEnable {rq : Request} {value : List Byte} (h : Kept false s t) : Works s (execEvtGlobalEnable rq value t) :=
  ⟨_, _, rfl, kept_serveObj h⟩

theorem kept_execEvtRingTarget {rq : Request} {ring : Nat} {value : List Byte} (h : Kept false s t) :
    Works s (execEvtRingTarget rq ring value t) :=
  ⟨_, _, rfl, kept_serveObj h⟩

end Sys2Proof.Machine
end

section
/-! PROOFS. What the functions of Machine/Registers.lean keep. -/

namespace Sys2Proof.Machine
variable {b : Bool} {s t : State}

theorem kept_tdPage {n off width v : Nat} (h : Kept b s t) : Kept b s (tdPage n off width v t) := by
  rw [tdPage]
  exact .ite (kept_ringDq h) h

theorem kept_ldPage {off width v : Nat} (h : Kept b s t) : Kept b s (ldPage off width v t) := by
  rw [ldPage]
  exact .ite h (.ite (kept_ringSend h) (.ite (kept_ringCol h) (.ite (kept_ringLu h) h)))

theorem kept_imsicPage {h' file off width v : Nat} (h : Kept b s t) : Kept b s (imsicPage h' file off width v t) := by
  rw [imsicPage]
  exact .ite (kept_sendImsic h) h

theorem kept_putTimecmp {h' off width v : Nat} (h : Kept b s t) : Kept b s (putTimecmp h' off width v t) := by
  rw [putTimecmp]
  exact .ite h (kept_setHart h)

theorem kept_putStartPc {h' width v : Nat} (h : Kept b s t) : Kept b s (putStartPc h' width v t) := by
  rw [putStartPc]
  exact .ite (kept_startHart h) h

theorem kept_putPost {h' off width v : Nat} (h : Kept b s t) : Kept b s (putPost h' off width v t) := by
  rw [putPost]
  exact .ite (.ite (kept_postFromHart h) h) (.ite (.record h) h)

theorem kept_putRing {k off width v : Nat} (h : Kept b s t) : Kept b s (putRing k off width v t) := by
  rw [putRing]
  exact .ite (kept_applyCons h) (.ite (kept_ringDone h) h)

theorem kept_chanPage {core : Bool} {chan link off width v : Nat} (h : Kept false s t) :
    Kept false s (chanPage core chan link off width v t) := by
  rw [chanPage]
  exact .ite (kept_setChan h) (.ite h (.ite (kept_mailbox h) (.ite (kept_setChan h) h)))

theorem kept_ctrlStore {o width v : Nat} (h : Kept false s t) : Kept false s (ctrlStore o width v t) := by
  rw [ctrlStore]
  exact .ite (kept_tdPage h) (.ite (kept_ldPage h) (.ite (kept_imsicPage h) (.ite (kept_imsicPage h) (.ite (kept_putTimecmp h) (.ite (.ite
    (kept_putStartPc h) (.ite (kept_setHart h) h)) (.ite (kept_putPost h) (.ite (kept_putRing h) (.ite (kept_chanPage h) h))))))))

theorem kept_couplePage {k off width v : Nat} (h : Kept b s t) : Kept b s (couplePage k off width v t) := by
  rw [couplePage]
  exact .ite h (.ite (kept_doAttach h) (.ite (kept_doDetach h) (.ite (kept_biasCmd h) h)))

theorem kept_deliveryRegs {k j off width v : Nat} (h : Kept b s t) : Kept b s (deliveryRegs k j off width v t) := by
  rw [deliveryRegs]
  exact .ite h (.ite (kept_acknowledge h) (.ite h (.ite (.record h) (.ite (.record h) h))))

theorem kept_setMask {k entry : Nat} {mask : Bool} (h : Kept b s t) : Kept b s (setMask k entry mask t) := by
  rw [setMask]
  exact .ite (kept_setHlink h) (kept_flushMsix (kept_setHlink h))

theorem kept_msixTable {k off width v : Nat} (h : Kept b s t) : Kept b s (msixTable k off width v t) := by
  rw [msixTable]
  exact .ite h (.ite (.record h) (.ite (kept_setMask (.record h)) (.ite (kept_setMask (.record h)) (.record h))))

theorem kept_barRegs {k o width v : Nat} (h : Kept false s t) : Kept false s (barRegs k o width v t) := by
  rw [barRegs]
  exact .ite (kept_tdPage h) (.ite (kept_ldPage h) (.ite (kept_couplePage h) (.ite (kept_deliveryRegs h) (.ite (kept_chanPage h) (.ite
    (kept_msixTable h) h)))))

theorem kept_barStore {k o width v : Nat} (h : Kept false s t) : Kept false s (barStore k o width v t) := by
  rw [barStore]
  exact .ite h (.ite (kept_inboundErr h) (.ite h (kept_barRegs h)))

theorem kept_coreToHost {b' width v : Nat} (h : Kept b s t) : Kept b s (coreToHost b' width v t) := by
  rw [coreToHost]
  exact kept_postEach h

theorem kept_hartStore {h' a width v : Nat} (h : Kept false s t) : Kept false s (hartStore h' a width v t) := by
  rw [hartStore]
  refine .ite (kept_trapHart h) ?_
  refine .ite ?_ (.ite (kept_trapHart h) (.ite (kept_ctrlStore h) h))
  split
  · exact kept_coreToHost h
  · exact .ite h (kept_trapHart h)

theorem kept_regStore {source : StoreBy} {a width v : Nat} (h : Kept false s t) : Kept false s (regStore source a width v t) := by
  unfold regStore
  refine .ite h ?_
  split
  · exact .ite (kept_barStore h) h
  · exact kept_hartStore h

theorem kept_deliveryRead {j off n : Nat} (h : Kept b s t) : Kept b s (deliveryRead j off n t).2 := by
  rw [deliveryRead]
  exact .ite_snd (kept_ctrlField h) h

theorem kept_barLoad {k o n : Nat} (h : Kept b s t) : Kept b s (barLoad k o n t).2 := by
  rw [barLoad]
  exact .ite_snd h (.ite_snd h (.ite_snd (kept_deliveryRead h) (.ite_snd h (.ite_snd h h))))

theorem kept_readBar0 {k o n : Nat} (h : Kept b s t) : Kept b s (readBar0 k o n t) := by
  rw [readBar0]
  exact .ite h (.ite (kept_answerHost h) (.ite (kept_answerHost (kept_inboundErr h)) (.ite (kept_answerHost (kept_readBack h))
    (kept_answerHost (kept_readBack (kept_barLoad h))))))

theorem kept_hostRead {k : Nat} {p : BarPlace} {n : Nat} (h : Kept b s t) : Kept b s (hostRead k p n t) := by
  unfold hostRead
  split
  · exact kept_readBar0 h
  · exact kept_readBar h

theorem kept_execControlRegisterWrite {source : StoreBy} {addr width value : Nat} (h : Kept false s t) :
    Works s (execControlRegisterWrite source addr width value t) :=
  ⟨_, _, rfl, kept_regStore h⟩

theorem kept_execInboundRead {link : Nat} {place : BarPlace} {length : Nat} (h : Kept false s t) :
    Works s (execInboundRead link place length t) :=
  ⟨_, _, rfl, kept_hostRead h⟩

end Sys2Proof.Machine
end

section
/-!
PROOFS. What every command and every step keep (R113, R137, R211), and the start of the boot (R577 to R579).
-/

namespace Sys2Proof.Machine

/-- Every command does work that keeps what a step keeps. -/
theorem exec_works (c : Instr) (s : State) : Works s (exec c s) := by
  have h := Kept.refl false s
  cases c with
  | powerUp _ => exact kept_execPowerUp h
  | restIntervalExpiry _ => exact kept_execRestIntervalExpiry h
  | enDeassert => exact kept_execEnDeassert h
  | powerFault _ _ => exact kept_execPowerFault h
  | timeReferenceStart _ _ => exact kept_execTimeReferenceStart h
  | settingsHoldExpiry => exact kept_execSettingsHoldExpiry h
  | domainRamp _ => exact kept_execDomainRamp h
  | domainRampTimeout _ => exact kept_execDomainRampTimeout h
  | dieSelftestPowerup _ _ => exact kept_execDieSelftestPowerup h
  | memChannelTrainingDone _ _ => exact kept_execMemChannelTrainingDone h
  | memInitialisationDone _ => exact kept_execMemInitialisationDone h
  | coreImageLoad => exact kept_execCoreImageLoad h
  | secReady _ _ => exact kept_execSecReady h
  | configRequest _ => exact kept_execConfigRequest h
  | read _ _ _ => exact kept_execRead h
  | write _ _ _ _ _ => exact kept_execWrite h
  | readMulti _ _ => exact kept_execReadMulti h
  | writeMulti _ _ => exact kept_execWriteMulti h
  | describe _ _ _ => exact kept_execDescribe h
  | domRead _ _ _ _ _ => exact kept_execDomRead h
  | domWrite _ _ _ _ _ => exact kept_execDomWrite h
  | spdm _ _ => exact kept_execSpdm h
  | ident _ _ => exact kept_execIdent h
  | camipSessionIdleTimeout _ => exact kept_execCamipSessionIdleTimeout h
  | camipSessionClose _ _ _ => exact kept_execCamipSessionClose h
  | camipEnable _ _ _ => exact kept_execCamipEnable h
  | camipNodeId _ _ _ => exact kept_execCamipNodeId h
  | plcaBeaconLost _ => exact kept_execPlcaBeaconLost h
  | notifyRepeat _ => exact kept_execNotifyRepeat h
  | mailboxCmd _ _ _ _ => exact kept_execMailboxCmd h
  | dictReplayDone _ _ => exact kept_execDictReplayDone h
  | dictHoldMs _ _ => exact kept_execDictHoldMs h
  | dictPathWrite _ _ => exact kept_execDictPathWrite h
  | memInitStart _ _ => exact kept_execMemInitStart h
  | secKeyRevoke _ _ => exact kept_execSecKeyRevoke h
  | secSvnCommit _ _ => exact kept_execSecSvnCommit h
  | srvTimeReselect _ _ => exact kept_execSrvTimeReselect h
  | timerefLoss => exact kept_execTimerefLoss h
  | referenceLoss => exact kept_execReferenceLoss h
  | tnsDieEnable _ _ => exact kept_execTnsDieEnable h
  | tnsQuadEnable _ _ _ => exact kept_execTnsQuadEnable h
  | tnsCanopyEnable _ _ _ => exact kept_execTnsCanopyEnable h
  | srvClusterEnable _ _ _ => exact kept_execSrvClusterEnable h
  | pwrMemgrpEnable _ _ => exact kept_execPwrMemgrpEnable h
  | pwrLdEnable _ _ => exact kept_execPwrLdEnable h
  | domainSwitchOff _ => exact kept_execDomainSwitchOff h
  | domainRegulatorFail _ _ => exact kept_execDomainRegulatorFail h
  | cappingSample _ => exact kept_execCappingSample h
  | pwrInputWPeak _ _ => exact kept_execPwrInputWPeak h
  | lpddrRefresh _ => exact kept_execLpddrRefresh h
  | mr4Read _ _ _ => exact kept_execMr4Read h
  | memScrubVisit _ _ _ => exact kept_execMemScrubVisit h
  | canopyScrubVisit _ _ => exact kept_execCanopyScrubVisit h
  | memGroupFail _ _ => exact kept_execMemGroupFail h
  | hsRateMeasure _ => exact kept_execHsRateMeasure h
  | tnsSelftestStart _ _ => exact kept_execTnsSelftestStart h
  | selftestDone _ _ => exact kept_execSelftestDone h
  | tnsDoorbell _ _ _ => exact kept_execTnsDoorbell h
  | controlRegisterWrite _ _ _ _ => exact kept_execControlRegisterWrite h
  | tnsDqCtrlEnable _ _ _ _ => exact kept_execTnsDqCtrlEnable h
  | tnsDqReset _ _ => exact kept_execTnsDqReset h
  | dqResetDone _ _ => exact kept_execDqResetDone h
  | descriptorTake _ => exact kept_execDescriptorTake h
  | splitNotice _ _ _ => exact kept_execSplitNotice h
  | operationStart _ _ => exact kept_execOperationStart h
  | nop _ _ => exact kept_execNop h
  | mma _ _ => exact kept_execMma h
  | mmaDrain _ _ => exact kept_execMmaDrain h
  | drain _ _ => exact kept_execDrain h
  | tileRestore _ _ => exact kept_execTileRestore h
  | vecMap _ _ => exact kept_execVecMap h
  | vecReduce _ _ => exact kept_execVecReduce h
  | stashBegin _ _ => exact kept_execStashBegin h
  | stashPut _ _ => exact kept_execStashPut h
  | regrowPut _ _ => exact kept_execRegrowPut h
  | stashFree _ _ => exact kept_execStashFree h
  | operationComplete _ _ => exact kept_execOperationComplete h
  | tnsSlotBindBound _ _ _ => exact kept_execTnsSlotBindBound h
  | tnsSlotBindRelease _ _ _ => exact kept_execTnsSlotBindRelease h
  | slotReleaseDone _ => exact kept_execSlotReleaseDone h
  | tnsStashPoolPeak _ _ _ _ => exact kept_execTnsStashPoolPeak h
  | rdShare _ _ => exact kept_execRdShare h
  | rdUnique _ _ => exact kept_execRdUnique h
  | promote _ _ => exact kept_execPromote h
  | rdPeek _ _ => exact kept_execRdPeek h
  | rdPeekWatch _ _ => exact kept_execRdPeekWatch h
  | wrFull _ _ _ => exact kept_execWrFull h
  | wrHint _ _ _ _ => exact kept_execWrHint h
  | wrMasked _ _ _ _ => exact kept_execWrMasked h
  | atomicHome _ _ _ _ _ _ => exact kept_execAtomicHome h
  | snpShare _ _ => exact kept_execSnpShare h
  | snpUnique _ _ => exact kept_execSnpUnique h
  | snpKill _ _ => exact kept_execSnpKill h
  | snpPeek _ _ => exact kept_execSnpPeek h
  | watchNotice _ _ => exact kept_execWatchNotice h
  | rspNone _ _ => exact kept_execRspNone h
  | rspSentKeep _ _ => exact kept_execRspSentKeep h
  | rspSentGone _ _ => exact kept_execRspSentGone h
  | wbInFlight _ _ => exact kept_execWbInFlight h
  | dat _ _ => exact kept_execDat h
  | evDirty _ _ => exact kept_execEvDirty h
  | evClean _ _ => exact kept_execEvClean h
  | ackGrant _ _ => exact kept_execAckGrant h
  | ackEv _ _ => exact kept_execAckEv h
  | ackWr _ _ => exact kept_execAckWr h
  | cacheEviction _ _ => exact kept_execCacheEviction h
  | agentLost _ => exact kept_execAgentLost h
  | cohHomeEnableSet _ _ => exact kept_execCohHomeEnableSet h
  | cohHomeEnableClear _ _ => exact kept_execCohHomeEnableClear h
  | amo _ _ _ _ _ => exact kept_execAmo h
  | lr _ _ _ => exact kept_execLr h
  | sc _ _ _ _ => exact kept_execSc h
  | streamingStore _ _ _ => exact kept_execStreamingStore h
  | cboClean _ _ => exact kept_execCboClean h
  | cboFlush _ _ => exact kept_execCboFlush h
  | cboInval _ _ => exact kept_execCboInval h
  | hartStartPc _ _ => exact kept_execHartStartPc h
  | coreCacheUe _ _ _ _ => exact kept_execCoreCacheUe h
  | fabPortEnable _ _ => exact kept_execFabPortEnable h
  | cmisRead _ _ => exact kept_execCmisRead h
  | portLaneTrainingDone _ => exact kept_execPortLaneTrainingDone h
  | portTrainTimeout _ => exact kept_execPortTrainTimeout h
  | portRetryTimer _ => exact kept_execPortRetryTimer h
  | fabPortExpect _ _ _ _ => exact kept_execFabPortExpect h
  | laneFailure _ => exact kept_execLaneFailure h
  | linkUnitReceive _ _ => exact kept_execLinkUnitReceive h
  | nak _ _ => exact kept_execNak h
  | replayTimeout _ => exact kept_execReplayTimeout h
  | frameRoute _ _ => exact kept_execFrameRoute h
  | data _ => exact kept_execData h
  | rdReq _ => exact kept_execRdReq h
  | rdRsp _ => exact kept_execRdRsp h
  | wrReq _ => exact kept_execWrReq h
  | wrPart _ => exact kept_execWrPart h
  | wrAck _ => exact kept_execWrAck h
  | ctrl _ => exact kept_execCtrl h
  | fellNotice _ => exact kept_execFellNotice h
  | identExchange _ => exact kept_execIdentExchange h
  | ringRecordWrite _ => exact kept_execRingRecordWrite h
  | remoteTimeout _ => exact kept_execRemoteTimeout h
  | vlStall _ _ => exact kept_execVlStall h
  | sendDoorbell _ _ => exact kept_execSendDoorbell h
  | sendDescriptor _ => exact kept_execSendDescriptor h
  | colDoorbell _ _ => exact kept_execColDoorbell h
  | colDescriptorTake _ => exact kept_execColDescriptorTake h
  | colNop _ _ => exact kept_execColNop h
  | reduce _ _ => exact kept_execReduce h
  | reduceHop _ _ => exact kept_execReduceHop h
  | broadcast _ _ => exact kept_execBroadcast h
  | prism _ _ => exact kept_execPrism h
  | collectiveComplete _ _ => exact kept_execCollectiveComplete h
  | luDoorbell _ _ => exact kept_execLuDoorbell h
  | luNop _ => exact kept_execLuNop h
  | ortho _ => exact kept_execOrtho h
  | norm _ => exact kept_execNorm h
  | update _ => exact kept_execUpdate h
  | stemRecord _ _ => exact kept_execStemRecord h
  | stragglerRelease _ _ => exact kept_execStragglerRelease h
  | memberList _ _ _ => exact kept_execMemberList h
  | normReport _ _ => exact kept_execNormReport h
  | clipRecord _ _ _ _ => exact kept_execClipRecord h
  | heartbeat _ _ => exact kept_execHeartbeat h
  | faultReport _ _ => exact kept_execFaultReport h
  | epochPlan _ _ => exact kept_execEpochPlan h
  | ready _ _ => exact kept_execReady h
  | start _ _ => exact kept_execStart h
  | prismPlan _ _ _ _ _ _ => exact kept_execPrismPlan h
  | switch _ _ => exact kept_execSwitch h
  | partDone _ _ => exact kept_execPartDone h
  | ckptDone _ _ => exact kept_execCkptDone h
  | snagReport _ _ => exact kept_execSnagReport h
  | jobCtrlStart _ _ => exact kept_execJobCtrlStart h
  | jobCtrlStop _ _ => exact kept_execJobCtrlStop h
  | jobCtrlSpare _ _ => exact kept_execJobCtrlSpare h
  | jobKick _ _ _ => exact kept_execJobKick h
  | jobSwitch _ _ _ => exact kept_execJobSwitch h
  | watchdogExpiry _ => exact kept_execWatchdogExpiry h
  | heartbeatTimer _ => exact kept_execHeartbeatTimer h
  | deadTimeout _ _ => exact kept_execDeadTimeout h
  | restartTimeout _ => exact kept_execRestartTimeout h
  | journalReplay _ => exact kept_execJournalReplay h
  | requestAccept _ _ _ _ _ _ _ => exact kept_execRequestAccept h
  | resultDelivery _ => exact kept_execResultDelivery h
  | attach _ _ => exact kept_execAttach h
  | detach _ => exact kept_execDetach h
  | pcieLinkUp _ _ _ => exact kept_execPcieLinkUp h
  | pcieLinkDown _ => exact kept_execPcieLinkDown h
  | pcieReset _ _ => exact kept_execPcieReset h
  | busMasterDisable _ => exact kept_execBusMasterDisable h
  | inboundRead _ _ _ => exact kept_execInboundRead h
  | inboundWrite _ _ _ _ => exact kept_execInboundWrite h
  | inboundAtomicop _ _ _ _ _ => exact kept_execInboundAtomicop h
  | setShared _ _ => exact kept_execSetShared h
  | setDevice _ _ => exact kept_execSetDevice h
  | flush _ _ => exact kept_execFlush h
  | ack _ _ => exact kept_execAck h
  | outboundReadCompletion _ _ => exact kept_execOutboundReadCompletion h
  | hostCplTimeout _ => exact kept_execHostCplTimeout h
  | eventPost _ _ => exact kept_execEventPost h
  | evtRingCons _ _ => exact kept_execEvtRingCons h
  | evtRingDone _ => exact kept_execEvtRingDone h
  | evtRingEnable _ _ _ => exact kept_execEvtRingEnable h
  | evtGlobalEnable _ _ => exact kept_execEvtGlobalEnable h
  | evtRingTarget _ _ _ => exact kept_execEvtRingTarget h
  | timerInterrupt _ _ => exact kept_execTimerInterrupt h
  | hartStop _ => exact kept_execHartStop h
  | timeReferenceReturn _ => exact kept_execTimeReferenceReturn h
  | plcaStatusTrue _ => exact kept_execPlcaStatusTrue h
  | vinCrosses20v _ => exact kept_execVinCrosses20v h
  | pwrRailTargetMv _ _ _ => exact kept_execPwrRailTargetMv h
  | domainRampDone _ => exact kept_execDomainRampDone h
  | landingOperationComplete _ => exact kept_execLandingOperationComplete h

/-- Settles O5: a step takes the front command, and its work, and the offering of its events, keep the form. -/
theorem stepsKeepMemoryForm : Obligations.StepsKeepMemoryForm := by
  intro s t hMem hStep
  cases hQueue : s.pending with
  | nil =>
    obtain rfl : tick s = t := Host.Outcome.next.inj ((step_idle s hQueue).symm.trans hStep)
    have h : Kept false s (tick s) := .ite (.recordPwr (.refl _ _)) (.refl _ _)
    exact ⟨h.mem hMem, h.pending.trans hQueue, h.free⟩
  | cons c r =>
    obtain ⟨u, rfl, hWork⟩ := (exec_works c { s with pending := r }).next ((step_cons s c r hQueue).symm.trans hStep)
    have h : Kept false { s with pending := r } (settle u) := kept_settle hWork
    exact ⟨h.mem hMem, h.pending, h.free⟩

/-! ### The start of the boot -/

/-- The package is on with a board, with the dictionary open or not, and with what the BSTAT pins show. -/
structure Booting (e : Board) (f : Fuses) (opened bstat1 bstat0 : Bool) (t : State) : Prop where
  on : t.pwr.on = true
  en : t.pwr.en = true
  board : t.pwr.board = e
  now : t.tim.now = 0
  started : t.tim.started = (e.timeref || e.refclk)
  fuses : t.fuses = f
  opened : t.pwr.opened = opened
  bstat1 : t.pwr.bstat1 = bstat1
  bstat0 : t.pwr.bstat0 = bstat0

theorem sourceOf_started (timeref refclk : Bool) : (sourceOf timeref refclk != 0) = (timeref || refclk) := by
  cases timeref <;> cases refclk <;> rfl

section
variable {e : Board} {f : Fuses} {opened bstat1 bstat0 : Bool} {s t u : State}

theorem Booting.of_kept (h : Booting e f opened bstat1 bstat0 t) (hk : Kept true t u) : Booting e f opened bstat1 bstat0 u := by
  obtain ⟨hPwr, hTim, hFuses⟩ := hk.board rfl
  constructor
  · rw [hPwr, h.on]
  · rw [hPwr, h.en]
  · rw [hPwr, h.board]
  · rw [hTim, h.now]
  · rw [hTim, h.started]
  · rw [hFuses, h.fuses]
  · rw [hPwr, h.opened]
  · rw [hPwr, h.bstat1]
  · rw [hPwr, h.bstat0]

theorem Booting.opens (h : Booting e f opened bstat1 bstat0 t) :
    Booting e f true bstat1 bstat0 { t with pwr := { t.pwr with opened := true } } :=
  ⟨h.on, h.en, h.board, h.now, h.started, h.fuses, rfl, h.bstat1, h.bstat0⟩

theorem Booting.stops (h : Booting e f opened bstat1 bstat0 t) :
    Booting e f opened true bstat0 { t with pwr := { t.pwr with bstat1 := true } } :=
  ⟨h.on, h.en, h.board, h.now, h.started, h.fuses, h.opened, rfl, h.bstat0⟩

theorem Booting.fails (h : Booting e f opened bstat1 bstat0 t) :
    Booting e f opened true true { t with pwr := { t.pwr with bstat1 := true, bstat0 := true, faulted := false } } :=
  ⟨h.on, h.en, h.board, h.now, h.started, h.fuses, h.opened, rfl, rfl⟩

/-- An update of the power state that leaves these alone. -/
theorem Booting.repowered (h : Booting e f opened bstat1 bstat0 t) {p : Pwr} (hOn : p.on = t.pwr.on) (hEn : p.en = t.pwr.en)
    (hBoard : p.board = t.pwr.board) (hOpened : p.opened = t.pwr.opened) (h1 : p.bstat1 = t.pwr.bstat1) (h0 : p.bstat0 = t.pwr.bstat0) :
    Booting e f opened bstat1 bstat0 { t with pwr := p } :=
  ⟨hOn.trans h.on, hEn.trans h.en, hBoard.trans h.board, h.now, h.started, h.fuses, hOpened.trans h.opened, h1.trans h.bstat1,
    h0.trans h.bstat0⟩

theorem iodUp_booting (hEn : s.pwr.en = true) : Booting e s.fuses false false false (iodUp e s) := by
  rw [iodUp]
  refine Booting.of_kept (t := { offState s with
      tim := { now := 0, started := sourceOf e.timeref e.refclk != 0, timeref := e.timeref, refclk := e.refclk },
      pwr := { (offState s).pwr with on := true, board := e } }) ?_
    (kept_setNum (kept_setNum (.foldl (fun _ _ hu => kept_setDomain hu) (.refl _ _))))
  exact ⟨rfl, hEn, rfl, rfl, sourceOf_started _ _, rfl, rfl, rfl, rfl⟩

theorem loadMc_booting (h : Booting e f opened bstat1 bstat0 t) (flash : Flash) (bank : Nat) :
    Booting e f opened bstat1 bstat0 (loadMc flash bank t) := by
  rw [loadMc]
  split
  · exact h
  · split
    · exact h.repowered rfl rfl rfl rfl rfl rfl
    · exact h

theorem setIdentity_booting (h : Booting e f opened bstat1 bstat0 t) (digest : List Byte) (svn : Nat) :
    Booting e f opened bstat1 bstat0 (setIdentity digest svn t) := by
  rw [setIdentity]
  exact (h.of_kept (kept_setOct (kept_setOct (kept_setOct (kept_setOct (kept_setOct (kept_setOct (kept_setOct (.refl _ _))))))))).repowered
    rfl rfl rfl rfl rfl rfl

theorem runMc_booting (h : Booting e f opened bstat1 bstat0 t) (bank : Nat) (head : List Byte) :
    Booting e f opened bstat1 bstat0 (runMc bank head t) := by
  rw [runMc]
  refine setIdentity_booting ?_ _ _
  exact (h.of_kept (kept_setOct (kept_setNum (kept_setNum (.refl _ _))))).repowered rfl rfl rfl rfl rfl rfl

theorem openDictionary_booting (h : Booting e f opened bstat1 bstat0 t) : Booting e f true bstat1 bstat0 (openDictionary t) := by
  rw [openDictionary]
  have hCores : Kept true t ((List.range 72).foldl (fun s h => s.setNum 0x6002 (h + 1) 0xFF) (t.setNum 0x3C00 2 0xFF)) :=
    .foldl (fun _ _ hu => kept_setNum hu) (kept_setNum (.refl _ _))
  exact (h.of_kept hCores).opens.of_kept (kept_refreshCamip (kept_refreshCamip (.refl _ _)))

theorem bootFrom_booting (h : Booting e f opened bstat1 bstat0 t) (b : Board) (bank : Nat) :
    Booting e f true bstat1 bstat0 (bootFrom b bank t) :=
  openDictionary_booting ((runMc_booting h bank _).of_kept (kept_reportFault (kept_mirrorBoard (.refl _ _))))

/-- With an accepted MC image the dictionary opens, and with none the boot stops and shows it. -/
theorem bootMc_booting (h : Booting e f false false false t) :
    Booting e f true false false (bootMc e t) ∨ Booting e f false true false (bootMc e t) := by
  have hA := loadMc_booting h e.flash 0
  rw [bootMc]
  split
  · exact .inl (bootFrom_booting hA e 0)
  · extract_lets v c
    have hB : Booting e f false false false v := loadMc_booting (hA.of_kept (kept_rejectBank (.refl _ _))) e.flash 1
    clear_value c v
    have hC : Booting e f false false false (rejectBank 1 1 c v) := hB.of_kept (kept_rejectBank (.refl _ _))
    split
    · exact .inl (bootFrom_booting hB e 1)
    · exact .inr hC.stops

theorem boot_bad (hIod : e.iodOk = false) :
    boot e s = { iodUp e s with pwr := { (iodUp e s).pwr with bstat1 := true, bstat0 := true, faulted := false } } := by
  rw [boot, hIod]
  rfl

theorem boot_good (hIod : e.iodOk = true) :
    boot e s = { bootMc e (iodUp e s) with pwr := { (bootMc e (iodUp e s)).pwr with faulted := false } } := by
  rw [boot, if_pos hIod]

/-- What the boot leaves, by the check that the IOD makes of itself. -/
theorem boot_booting (hEn : s.pwr.en = true) :
    ∃ o b1 b0, Booting e s.fuses o b1 b0 (boot e s) ∧ (boot e s).pwr.faulted = false
      ∧ (e.iodOk = false → b1 = true ∧ b0 = true ∧ o = false) ∧ (e.iodOk = true → b0 = false ∧ (o = true ↔ b1 = false)) := by
  have h := iodUp_booting (e := e) hEn
  cases hIod : e.iodOk with
  | false =>
    rw [boot_bad hIod]
    exact ⟨false, true, true, h.fails, rfl, fun _ => ⟨rfl, rfl, rfl⟩, nofun⟩
  | true =>
    rw [boot_good hIod]
    rcases bootMc_booting h with h | h
    · exact ⟨true, false, false, h.repowered rfl rfl rfl rfl rfl rfl, rfl, nofun, fun _ => ⟨rfl, by decide⟩⟩
    · exact ⟨false, true, false, h.repowered rfl rfl rfl rfl rfl rfl, rfl, nofun, fun _ => ⟨rfl, by decide⟩⟩

end

/-- Both commands come to a boot of the package with EN high. -/
theorem starts_boot {s : State} {b : Board} {c : Instr} (hOff : s.pwr.on = false) (hVin : 36000 ≤ b.vinMv)
    (hc : (c = .powerUp b ∧ s.pwr.restDone = true) ∨ (c = .restIntervalExpiry b ∧ s.pwr.resting = true ∧ s.pwr.en = true)) :
    ∃ u : State, exec c s = .next (settle (boot b u)) ∧ u.pwr.en = true ∧ u.fuses = s.fuses ∧ u.pending = s.pending := by
  rcases hc with ⟨rfl, hRest⟩ | ⟨rfl, hResting, hEn⟩
  · exact ⟨_, forUnit_settled rfl (raiseEn_boots hOff hRest hVin), rfl, rfl, rfl⟩
  · have hStarts : restEnds b s = raiseEn b { s with pwr := { s.pwr with resting := false, restDone := true } } :=
      (if_pos hResting).trans (if_pos hEn)
    exact ⟨_, forUnit_settled rfl (hStarts.trans (raiseEn_boots hOff rfl hVin)), rfl, rfl, rfl⟩

/-- Settles O13: the boot leaves the dictionary open or shows its stop, and the offering of its events keeps that. -/
theorem bootStarts : Obligations.BootStarts := by
  intro s b _ hOff hVin c hc
  obtain ⟨u, hExec, hEn, hFuses, hPending⟩ := starts_boot hOff hVin hc
  obtain ⟨o, b1, b0, hBoot, hFaulted, hBad, hGood⟩ := boot_booting (e := b) hEn
  have hk : Kept true (boot b u) (settle (boot b u)) := kept_settle (.refl _ _)
  have h := hBoot.of_kept hk
  have hQueue : (settle (boot b u)).pending = s.pending := hk.pending.trans ((kept_boot (.refl _ u)).pending.trans hPending)
  have hStays : (settle (boot b u)).pwr.faulted = false := by rw [(hk.board rfl).1, hFaulted]
  refine ⟨_, hExec, h.on, h.en, h.board, hStays, h.now, h.started, h.fuses.trans hFuses, hQueue, fun hIod => ?_, fun hIod => ?_⟩
  · obtain ⟨h1, h0, hOpened⟩ := hBad hIod
    exact ⟨h.bstat1.trans h1, h.bstat0.trans h0, h.opened.trans hOpened⟩
  · obtain ⟨h0, hIff⟩ := hGood hIod
    exact ⟨h.bstat0.trans h0, by rw [h.opened, h.bstat1]; exact hIff⟩

end Sys2Proof.Machine
end
